-- ==== Sys2Proof/Word.lean ====
section
/-! DEFINITION. The words of the part and the numbers of its objects (00_scope.md, "Numbering"). -/

namespace Sys2Proof

/-- A byte of a feed-port frame, of a link message or of a font region. -/
abbrev Byte := BitVec 8

/-- A digest (R147). -/
abbrev Digest := BitVec 16

/-- Feed ports FP0 to FP3. -/
abbrev PortId := Fin 4
/-- Panels 0 to 63. -/
abbrev PanelId := Fin 64
/-- Placards 0 to 191. -/
abbrev PlacardId := Fin 192
/-- Holds 0 to 31. -/
abbrev HoldId := Fin 32
/-- Departure lists 0 to 15. -/
abbrev ListId := Fin 16
/-- Encode lanes 0 to 7. -/
abbrev LaneId := Fin 8
/-- Display links L0 to L7. -/
abbrev LinkId := Fin 8
/-- Drops 0 to 7 of a link. -/
abbrev Drop := Fin 8
/-- Tickers 0 to 7. -/
abbrev TickerId := Fin 8
/-- Swap groups 0 to 7. -/
abbrev GroupId := Fin 8
/-- Fonts 0 to 3. -/
abbrev FontId := Fin 4
/-- Split tags 0 to 15 of a port. -/
abbrev Tag := Fin 16

end Sys2Proof
end

