-- ==== Sys2Proof/Syntax.lean ====
section
/-! DEFINITION. The commands: one constructor of Instr per row of spec/opcode_table.json, and the shapes of their
operands. A request carries the port that executes it and the values of its body (13_message_and_frame_layouts.md);
values that the owning rule judges are plain numbers, so that values out of range can be sent. -/

namespace Sys2Proof

/-- The kind fields a POST carries (R44). `unknown` is a kind code absent from its row (chapter 13), with the bytes
that follow it, whose layout the spec gives only for the five kinds. -/
inductive ContentReq where
  | text (chars : List Nat) (font align : Nat)
  | departures (list firstRow rowCount rowFont badgeFont : Nat)
  | ticker (ticker : Nat)
  | clock (font : Nat)
  | glyph (font glyph : Nat)
  | unknown (code : Nat) (rest : List Byte)
  deriving DecidableEq, Repr

/-- The fields of a POST (R53). `background` is 0 to 3 or 4 for CLEAR; `flags` is bit 0 blink, bit 1 invert. -/
structure PostReq where
  base : Byte
  mask : Byte
  x : Nat
  w : Nat
  y : Nat
  h : Nat
  layer : Nat
  content : ContentReq
  foreground : Nat
  background : Nat
  flags : Nat
  windowStart : Option Nat
  windowEnd : Option Nat
  hold : Option Nat
  deriving DecidableEq, Repr

/-- What an AMEND says of an optional field: not carried, carried with a value, or named absent (chapter 13). -/
inductive Change where
  | keep
  | set (v : Nat)
  | remove
  deriving DecidableEq, Repr

/-- The fields an AMEND may carry (R54); `none` and `keep` are fields not carried. -/
structure AmendReq where
  base : Option Byte
  mask : Option Byte
  x : Option Nat
  w : Option Nat
  y : Option Nat
  h : Option Nat
  layer : Option Nat
  text : Option (List Nat)
  font : Option Nat
  align : Option Nat
  list : Option Nat
  firstRow : Option Nat
  rowCount : Option Nat
  rowFont : Option Nat
  badgeFont : Option Nat
  ticker : Option Nat
  glyph : Option Nat
  foreground : Option Nat
  background : Option Nat
  flags : Option Nat
  windowStart : Change
  windowEnd : Change
  hold : Change
  deriving DecidableEq, Repr

/-- One entry of a GLYPH_LOAD (R121). -/
structure GlyphEntry where
  glyph : Nat
  width : Nat
  bitmap : List Byte
  deriving DecidableEq, Repr

/-- One character received on LRX (R193): its byte, whether its stop bit was high, and whether a gap of more than one
byte time separates it from the character before. -/
structure RxChar where
  byte : Byte
  stopHigh : Bool
  gapBefore : Bool
  deriving DecidableEq, Repr

/-- The commands of the part: one constructor per row of spec/opcode_table.json, in the table's order. -/
inductive Instr where
  /-- RESETN: RESETn rises with the levels of RK0 to RK3 (R181). -/
  | resetn (rk0 rk1 rk2 rk3 : Bool)
  /-- TRANSFER: one select period; `fdi` are the levels of FDI at the rising edges of FCK (R182). -/
  | transfer (port : PortId) (fdi : List Bool)
  | depPut (port : PortId) (list trip line destination scheduled : Nat)
  | depPredict (port : PortId) (list trip predicted : Nat)
  | depArrive (port : PortId) (list trip : Nat)
  | depDepart (port : PortId) (list trip : Nat)
  | depCancel (port : PortId) (list trip : Nat)
  | depRead (port : PortId) (list : Nat)
  | destSet (port : PortId) (index : Nat) (text : List Nat)
  | clockSet (port : PortId) (t : Nat)
  | newDay (port : PortId) (t : Nat)
  | clockRead (port : PortId)
  /-- SETTINGS: pairs of a parameter code and a value (R190). -/
  | settings (port : PortId) (pairs : List (Nat × Nat))
  | post (port : PortId) (fields : PostReq)
  | amend (port : PortId) (number : Nat) (fields : AmendReq)
  | textSet (port : PortId) (number : Nat) (text : List Nat)
  | withdraw (port : PortId) (number : Nat)
  | boardRead (port : PortId) (number : Nat)
  | confirmShown (port : PortId) (tag number timeout : Nat)
  /-- TAKE: the tag counts when the wait is 1 or more (R69). -/
  | take (port : PortId) (tag hold wait : Nat)
  | release (port : PortId) (hold : Nat)
  | handover (port : PortId) (hold heir : Nat)
  | holdSetup (port : PortId) (hold limit group : Nat)
  | holdRead (port : PortId) (hold : Nat)
  | holdExpiry (hold : HoldId)
  /-- WAIT_TIMEOUT: the wait of a port in a hold's queue reaches its deadline (R70). -/
  | waitTimeout (hold : HoldId) (port : PortId)
  | panelDefine (port : PortId) (panel : Nat) (address : Byte) (link drop cls width height level refresh : Nat)
  | panelRemove (port : PortId) (panel : Nat)
  | panelRestore (port : PortId) (panel : Nat)
  | panelRead (port : PortId) (panel : Nat)
  | fontSetup (port : PortId) (font height : Nat)
  | glyphLoad (port : PortId) (font : Nat) (entries : List GlyphEntry)
  | tokenSet (port : PortId) (token : Nat) (text : List Nat)
  | tickerSetup (port : PortId) (ticker font window period columns lowWater : Nat)
  | tickerFeed (port : PortId) (ticker : Nat) (chars : List Nat)
  | tickerFlush (port : PortId) (ticker : Nat)
  | tickerRead (port : PortId) (ticker : Nat)
  | scrollStep (ticker : TickerId)
  | linkSetup (port : PortId) (link divider timeout startLevel : Nat)
  | linkEnable (port : PortId) (link : Nat)
  | linkDisable (port : PortId) (link : Nat)
  | linkRead (port : PortId) (link : Nat)
  | groupSetup (port : PortId) (group : Nat) (members : List Nat) (deadline : Nat)
  | groupArm (port : PortId) (group : Nat)
  | groupRead (port : PortId) (group : Nat)
  | groupDeadline (group : GroupId)
  | cancelSplit (port : PortId) (tag : Nat)
  | noticeTake (port : PortId)
  | noticeMask (port : PortId) (kinds : BitVec 16)
  | partStatus (port : PortId)
  | boardClear (port : PortId)
  | countInterval
  | confirmDeadline (port : PortId) (tag : Tag)
  | holdoffEnd (panel : PanelId)
  | refreshDeadline (panel : PanelId)
  | contextCopyComplete (lane : LaneId)
  | strip (lane : LaneId)
  /-- FIFO_ROOM: the lane's link has sent `sent` further bytes of its FIFO, and the lane resumes (R110). -/
  | fifoRoom (lane : LaneId) (sent : Nat)
  | codingEnd (lane : LaneId)
  | frameStart (link : LinkId)
  | underflow (link : LinkId)
  | breakEnd (link : LinkId)
  | lastByteSent (link : LinkId)
  /-- ACK: the characters received on LRX that complete an ACK (R165, R193). -/
  | ack (link : LinkId) (rx : List RxChar)
  /-- NAK: the characters received on LRX that complete a NAK. -/
  | nak (link : LinkId) (rx : List RxChar)
  | replyTimeout (link : LinkId)
  /-- PROBE_DUE: the probe of an OFFLINE panel falls due (R167). -/
  | probeDue (panel : PanelId)
  | probeSent (link : LinkId)
  /-- IDENT: the characters received on LRX that complete an IDENT (R168, R193). -/
  | ident (link : LinkId) (rx : List RxChar)
  | probeTimeout (link : LinkId)
  | showEnd (link : LinkId)
  /-- RESETN_LOW: RESETn falls (R181). -/
  | resetnLow
  deriving DecidableEq, Repr

end Sys2Proof
end

