-- ==== Sys2Proof/Decode.lean ====
section
/-! DEFINITION. Feed-port request frames (13_message_and_frame_layouts.md, section 13.1): the layout of every request's
body, the frame it makes, and the judgement of received bytes (R192). Last, decodeTableWord: no row of
spec/opcode_table.json gives bits. -/

namespace Sys2Proof

/-! ## Bytes -/

/-- The low `width` bytes of a number, low byte first (chapter 13). -/
def leBytes : Nat → Nat → List Byte
  | 0, _ => []
  | width + 1, v => BitVec.ofNat 8 v :: leBytes width (v / 256)

/-- The number that bytes spell, low byte first. -/
def leValue : List Byte → Nat
  | [] => 0
  | b :: bs => b.toNat + 256 * leValue bs

/-- Eight bits as a byte, most significant bit first (R182). -/
def byteOfBits (bits : List Bool) : Byte :=
  BitVec.ofNat 8 (bits.foldl (fun n b => 2 * n + cond b 1 0) 0)

/-- The bits of a byte, most significant first (R182). -/
def bitsOfByte (b : Byte) : List Bool :=
  [b.getLsbD 7, b.getLsbD 6, b.getLsbD 5, b.getLsbD 4, b.getLsbD 3, b.getLsbD 2, b.getLsbD 1, b.getLsbD 0]

/-- The whole bytes of a bit sequence; an incomplete last byte is ignored (R182). -/
def wholeBytes : List Bool → List Byte
  | b7 :: b6 :: b5 :: b4 :: b3 :: b2 :: b1 :: b0 :: rest =>
    byteOfBits [b7, b6, b5, b4, b3, b2, b1, b0] :: wholeBytes rest
  | _ => []

/-! ## The body of each request: its values and their widths -/

/-- A value and its width in bytes. -/
abbrev Field := Nat × Nat

/-- A text: a one-byte character count, then two bytes a character. -/
def textFields (text : List Nat) : List Field := (text.length, 1) :: text.map (fun c => (c, 2))

/-- A list of numbers of one width, after a one-byte count. -/
def listFields (width : Nat) (items : List Nat) : List Field := (items.length, 1) :: items.map (fun v => (v, width))

/-- An optional field after its presence byte. -/
def optFields (width : Nat) : Option Nat → List Field
  | none => [(0, 1)]
  | some v => [(1, 1), (v, width)]

/-- A field of an AMEND after its mark. -/
def markFields (width : Nat) : Option Nat → List Field
  | none => [(0, 1)]
  | some v => [(1, 1), (v, width)]

/-- A removable field of an AMEND after its mark. -/
def changeFields (width : Nat) : Change → List Field
  | .keep => [(0, 1)]
  | .set v => [(1, 1), (v, width)]
  | .remove => [(2, 1)]

/-- Bytes as fields. -/
def byteFields (bs : List Byte) : List Field := bs.map (fun b => (b.toNat, 1))

/-- The kind code and the kind fields of a POST, in the order of R44. -/
def ContentReq.fields : ContentReq → List Field
  | .text chars font align => (0, 1) :: (textFields chars ++ [(font, 1), (align, 1)])
  | .departures list firstRow rowCount rowFont badgeFont =>
    [(1, 1), (list, 1), (firstRow, 1), (rowCount, 1), (rowFont, 1), (badgeFont, 1)]
  | .ticker k => [(2, 1), (k, 1)]
  | .clock font => [(3, 1), (font, 1)]
  | .glyph font g => [(4, 1), (font, 1), (g, 2)]
  | .unknown code rest => (code, 1) :: byteFields rest

/-- The body of a POST in the order of R53; after a kind code absent from its row nothing can be laid out (log 11). -/
def PostReq.bodyFields (f : PostReq) : List Field :=
  [(f.base.toNat, 1), (f.mask.toNat, 1), (f.x, 2), (f.w, 2), (f.y, 1), (f.h, 1), (f.layer, 1)] ++ f.content.fields ++
    match f.content with
    | .unknown _ _ => []
    | _ => [(f.foreground, 1), (f.background, 1), (f.flags, 1)] ++
        optFields 3 f.windowStart ++ optFields 3 f.windowEnd ++ optFields 1 f.hold

/-- The fields of an AMEND in the order of R43 and R44, each after its mark (log 10). -/
def AmendReq.bodyFields (f : AmendReq) : List Field :=
  markFields 1 (f.base.map BitVec.toNat) ++ markFields 1 (f.mask.map BitVec.toNat) ++
  markFields 2 f.x ++ markFields 2 f.w ++ markFields 1 f.y ++ markFields 1 f.h ++ markFields 1 f.layer ++
  (match f.text with
    | none => [(0, 1)]
    | some t => (1, 1) :: textFields t) ++
  markFields 1 f.font ++ markFields 1 f.align ++ markFields 1 f.list ++ markFields 1 f.firstRow ++
  markFields 1 f.rowCount ++ markFields 1 f.rowFont ++ markFields 1 f.badgeFont ++ markFields 1 f.ticker ++
  markFields 2 f.glyph ++ markFields 1 f.foreground ++ markFields 1 f.background ++ markFields 1 f.flags ++
  changeFields 3 f.windowStart ++ changeFields 3 f.windowEnd ++ changeFields 1 f.hold

/-- One GLYPH_LOAD entry: glyph, width, bitmap (chapter 13). -/
def GlyphEntry.fields (e : GlyphEntry) : List Field := [(e.glyph, 2), (e.width, 1)] ++ byteFields e.bitmap

/-- The body of each request; no command that is not a request has one. -/
def Instr.bodyFields : Instr → List Field
  | .depPut _ list trip line destination scheduled => [(list, 1), (trip, 3), (line, 1), (destination, 1), (scheduled, 3)]
  | .depPredict _ list trip predicted => [(list, 1), (trip, 3), (predicted, 3)]
  | .depArrive _ list trip => [(list, 1), (trip, 3)]
  | .depDepart _ list trip => [(list, 1), (trip, 3)]
  | .depCancel _ list trip => [(list, 1), (trip, 3)]
  | .depRead _ list => [(list, 1)]
  | .destSet _ index text => (index, 1) :: textFields text
  | .clockSet _ t => [(t, 4)]
  | .newDay _ t => [(t, 4)]
  | .clockRead _ => []
  | .settings _ pairs => (pairs.length, 1) :: pairs.flatMap (fun q => [(q.1, 1), (q.2, 2)])
  | .post _ fields => fields.bodyFields
  | .amend _ number fields => (number, 1) :: fields.bodyFields
  | .textSet _ number text => (number, 1) :: textFields text
  | .withdraw _ number => [(number, 1)]
  | .boardRead _ number => [(number, 1)]
  | .confirmShown _ _ number timeout => [(number, 1), (timeout, 1)]
  | .take _ _ hold wait => [(hold, 1), (wait, 1)]
  | .release _ hold => [(hold, 1)]
  | .handover _ hold heir => [(hold, 1), (heir, 1)]
  | .holdSetup _ hold limit group => [(hold, 1), (limit, 1), (group, 1)]
  | .holdRead _ hold => [(hold, 1)]
  | .panelDefine _ panel address link drop cls width height level refresh =>
    [(panel, 1), (address.toNat, 1), (link, 1), (drop, 1), (cls, 1), (width, 2), (height, 1), (level, 1), (refresh, 1)]
  | .panelRemove _ panel => [(panel, 1)]
  | .panelRestore _ panel => [(panel, 1)]
  | .panelRead _ panel => [(panel, 1)]
  | .fontSetup _ font height => [(font, 1), (height, 1)]
  | .glyphLoad _ font entries => [(font, 1), (entries.length, 1)] ++ entries.flatMap GlyphEntry.fields
  | .tokenSet _ token text => (token, 1) :: textFields text
  | .tickerSetup _ ticker font window period columns lowWater =>
    [(ticker, 1), (font, 1), (window, 2), (period, 1), (columns, 1), (lowWater, 2)]
  | .tickerFeed _ ticker chars => (ticker, 1) :: textFields chars
  | .tickerFlush _ ticker => [(ticker, 1)]
  | .tickerRead _ ticker => [(ticker, 1)]
  | .linkSetup _ link divider timeout startLevel => [(link, 1), (divider, 2), (timeout, 1), (startLevel, 2)]
  | .linkEnable _ link => [(link, 1)]
  | .linkDisable _ link => [(link, 1)]
  | .linkRead _ link => [(link, 1)]
  | .groupSetup _ group members deadline => (group, 1) :: (listFields 1 members ++ [(deadline, 1)])
  | .groupArm _ group => [(group, 1)]
  | .groupRead _ group => [(group, 1)]
  | .cancelSplit _ tag => [(tag, 1)]
  | .noticeTake _ => []
  | .noticeMask _ kinds => [(kinds.toNat, 2)]
  | .partStatus _ => []
  | .boardClear _ => []
  | .resetn _ _ _ _ | .transfer _ _ | .holdExpiry _ | .waitTimeout _ _ | .scrollStep _ | .groupDeadline _
  | .countInterval | .confirmDeadline _ _ | .holdoffEnd _ | .refreshDeadline _ | .contextCopyComplete _ | .strip _
  | .fifoRoom _ _ | .codingEnd _ | .frameStart _ | .underflow _ | .breakEnd _ | .lastByteSent _ | .ack _ _ | .nak _ _
  | .replyTimeout _ | .probeDue _ | .probeSent _ | .ident _ _ | .probeTimeout _ | .showEnd _ | .resetnLow => []

/-- The kind code of a request (chapter 13, table of request kinds); 0 for a command that is no request. -/
def Instr.kindCode : Instr → Nat
  | .depPut .. => 0x10
  | .depPredict .. => 0x11
  | .depArrive .. => 0x12
  | .depDepart .. => 0x13
  | .depCancel .. => 0x14
  | .depRead .. => 0x15
  | .destSet .. => 0x16
  | .clockSet .. => 0x20
  | .newDay .. => 0x21
  | .clockRead .. => 0x22
  | .settings .. => 0x23
  | .post .. => 0x30
  | .amend .. => 0x31
  | .textSet .. => 0x32
  | .withdraw .. => 0x33
  | .boardRead .. => 0x34
  | .confirmShown .. => 0x35
  | .take .. => 0x40
  | .release .. => 0x41
  | .handover .. => 0x42
  | .holdSetup .. => 0x43
  | .holdRead .. => 0x44
  | .panelDefine .. => 0x50
  | .panelRemove .. => 0x51
  | .panelRestore .. => 0x52
  | .panelRead .. => 0x53
  | .fontSetup .. => 0x60
  | .glyphLoad .. => 0x61
  | .tokenSet .. => 0x62
  | .tickerSetup .. => 0x70
  | .tickerFeed .. => 0x71
  | .tickerFlush .. => 0x72
  | .tickerRead .. => 0x73
  | .linkSetup .. => 0x80
  | .linkEnable .. => 0x81
  | .linkDisable .. => 0x82
  | .linkRead .. => 0x83
  | .groupSetup .. => 0x90
  | .groupArm .. => 0x91
  | .groupRead .. => 0x92
  | .cancelSplit .. => 0xA0
  | .noticeTake .. => 0xA1
  | .noticeMask .. => 0xA2
  | .partStatus .. => 0xA3
  | .boardClear .. => 0xA4
  | .resetn .. | .transfer .. | .holdExpiry .. | .waitTimeout .. | .scrollStep .. | .groupDeadline ..
  | .countInterval | .confirmDeadline .. | .holdoffEnd .. | .refreshDeadline .. | .contextCopyComplete .. | .strip ..
  | .fifoRoom .. | .codingEnd .. | .frameStart .. | .underflow .. | .breakEnd .. | .lastByteSent .. | .ack .. | .nak ..
  | .replyTimeout .. | .probeDue .. | .probeSent .. | .ident .. | .probeTimeout .. | .showEnd .. | .resetnLow => 0

/-- The tag byte of a request, and byte 3 of its response: that of a CONFIRM_SHOWN or a TAKE, 0 for the others. MODEL'S
CHOICE (log 39): that of a TAKE with no wait, which is no split request, is kept as well, and a request without a tag is
answered with 0. -/
def Instr.tagByte : Instr → Byte
  | .confirmShown _ tag _ _ => BitVec.ofNat 8 tag
  | .take _ tag _ _ => BitVec.ofNat 8 tag
  | _ => 0

/-- The bytes of a list of fields. -/
def fieldBytes (fs : List Field) : List Byte := fs.flatMap (fun f => leBytes f.2 f.1)

/-- The request frame of a request: kind code, tag, body length, body (chapter 13). -/
def Instr.frameBytes (i : Instr) : List Byte :=
  let body := fieldBytes i.bodyFields
  [BitVec.ofNat 8 i.kindCode, i.tagByte] ++ leBytes 2 body.length ++ body

/-! ## Reading a body -/

/-- Read one number of `width` bytes. -/
def rdNum (width : Nat) (bs : List Byte) : Option (Nat × List Byte) :=
  if bs.length < width then none else some (leValue (bs.take width), bs.drop width)

/-- Read one byte. -/
def rdByte : List Byte → Option (Byte × List Byte)
  | [] => none
  | b :: bs => some (b, bs)

/-- Read numbers of the widths given, to the exact end of the body (R192: the fixed body length of a kind). -/
def rdAll : List Nat → List Byte → Option (List Nat)
  | [], [] => some []
  | [], _ :: _ => none
  | width :: widths, bs => do
    let (v, bs) ← rdNum width bs
    let vs ← rdAll widths bs
    some (v :: vs)

/-- Read `n` numbers of one width. -/
def rdMany (width : Nat) : Nat → List Byte → Option (List Nat × List Byte)
  | 0, bs => some ([], bs)
  | n + 1, bs => do
    let (v, bs) ← rdNum width bs
    let (vs, bs) ← rdMany width n bs
    some (v :: vs, bs)

/-- Read a list of numbers after its one-byte count. -/
def rdList (width : Nat) (bs : List Byte) : Option (List Nat × List Byte) := do
  let (n, bs) ← rdNum 1 bs
  rdMany width n bs

/-- Read an optional field after its presence byte: 00h or 01h (chapter 13). -/
def rdOpt (width : Nat) (bs : List Byte) : Option (Option Nat × List Byte) := do
  let (mark, bs) ← rdNum 1 bs
  match mark with
  | 0 => some (none, bs)
  | 1 => do
    let (v, bs) ← rdNum width bs
    some (some v, bs)
  | _ => none

/-- Read a removable field of an AMEND after its mark: 00h, 01h or 02h (chapter 13). -/
def rdChange (width : Nat) (bs : List Byte) : Option (Change × List Byte) := do
  let (mark, bs) ← rdNum 1 bs
  match mark with
  | 0 => some (.keep, bs)
  | 1 => do
    let (v, bs) ← rdNum width bs
    some (.set v, bs)
  | 2 => some (.remove, bs)
  | _ => none

/-- Read the text of an AMEND after its mark. -/
def rdOptText (bs : List Byte) : Option (Option (List Nat) × List Byte) := do
  let (mark, bs) ← rdNum 1 bs
  match mark with
  | 0 => some (none, bs)
  | 1 => do
    let (t, bs) ← rdList 2 bs
    some (some t, bs)
  | _ => none

/-- Read a byte after a mark. -/
def rdOptByte (bs : List Byte) : Option (Option Byte × List Byte) := do
  let (v, bs) ← rdOpt 1 bs
  some (v.map (BitVec.ofNat 8), bs)

/-- Read `n` SETTINGS pairs (R190): a code of one byte, a value of two bytes whatever its parameter (MODEL'S CHOICE,
log 37). -/
def rdPairs : Nat → List Byte → Option (List (Nat × Nat) × List Byte)
  | 0, bs => some ([], bs)
  | n + 1, bs => do
    let (code, bs) ← rdNum 1 bs
    let (v, bs) ← rdNum 2 bs
    let (qs, bs) ← rdPairs n bs
    some ((code, v) :: qs, bs)

/-- Read `n` GLYPH_LOAD entries for a font of height `height`: the bitmap has width × height / 8 bytes (R119, log 11). -/
def rdGlyphs (height : Nat) : Nat → List Byte → Option (List GlyphEntry × List Byte)
  | 0, bs => some ([], bs)
  | n + 1, bs => do
    let (glyph, bs) ← rdNum 2 bs
    let (width, bs) ← rdNum 1 bs
    let size := width * height / 8
    if bs.length < size then none else do
      let (es, bs') ← rdGlyphs height n (bs.drop size)
      some (⟨glyph, width, bs.take size⟩ :: es, bs')

/-- Read the kind fields of a known kind (R44). -/
def rdContent (code : Nat) (bs : List Byte) : Option (ContentReq × List Byte) :=
  match code with
  | 0 => do
    let (chars, bs) ← rdList 2 bs
    let (font, bs) ← rdNum 1 bs
    let (align, bs) ← rdNum 1 bs
    some (.text chars font align, bs)
  | 1 => do
    let (list, bs) ← rdNum 1 bs
    let (firstRow, bs) ← rdNum 1 bs
    let (rowCount, bs) ← rdNum 1 bs
    let (rowFont, bs) ← rdNum 1 bs
    let (badgeFont, bs) ← rdNum 1 bs
    some (.departures list firstRow rowCount rowFont badgeFont, bs)
  | 2 => do
    let (ticker, bs) ← rdNum 1 bs
    some (.ticker ticker, bs)
  | 3 => do
    let (font, bs) ← rdNum 1 bs
    some (.clock font, bs)
  | 4 => do
    let (font, bs) ← rdNum 1 bs
    let (glyph, bs) ← rdNum 2 bs
    some (.glyph font glyph, bs)
  | code => some (.unknown code bs, [])

/-- Read what follows the kind fields of a POST, to the exact end: foreground, background, flags, and the window start, the
window end and the hold after their presence bytes (R53). -/
def rdPostTail (bs : List Byte) : Option (Nat × Nat × Nat × Option Nat × Option Nat × Option Nat) := do
  let (foreground, bs) ← rdNum 1 bs
  let (background, bs) ← rdNum 1 bs
  let (flags, bs) ← rdNum 1 bs
  let (windowStart, bs) ← rdOpt 3 bs
  let (windowEnd, bs) ← rdOpt 3 bs
  let (hold, bs) ← rdOpt 1 bs
  if bs.isEmpty then some (foreground, background, flags, windowStart, windowEnd, hold) else none

/-- Some end of the bytes reads as what follows the kind fields of a POST: the presence marks account for the bytes after
a kind code whose kind fields are not known (R192, log 11). -/
def endsPost : List Byte → Bool
  | [] => false
  | b :: bs => (rdPostTail (b :: bs)).isSome || endsPost bs

/-- Read the body of a POST (R53). -/
def rdPost (bs : List Byte) : Option PostReq := do
  let (base, bs) ← rdByte bs
  let (mask, bs) ← rdByte bs
  let (x, bs) ← rdNum 2 bs
  let (w, bs) ← rdNum 2 bs
  let (y, bs) ← rdNum 1 bs
  let (h, bs) ← rdNum 1 bs
  let (layer, bs) ← rdNum 1 bs
  let (code, bs) ← rdNum 1 bs
  let (content, bs) ← rdContent code bs
  match content with
  | .unknown code rest =>
    if endsPost rest then some ⟨base, mask, x, w, y, h, layer, .unknown code rest, 0, 0, 0, none, none, none⟩ else none
  | content => do
    let (foreground, background, flags, windowStart, windowEnd, hold) ← rdPostTail bs
    some ⟨base, mask, x, w, y, h, layer, content, foreground, background, flags, windowStart, windowEnd, hold⟩

/-- Read the fields of an AMEND after its placard number (R54). -/
def rdAmend (bs : List Byte) : Option AmendReq := do
  let (base, bs) ← rdOptByte bs
  let (mask, bs) ← rdOptByte bs
  let (x, bs) ← rdOpt 2 bs
  let (w, bs) ← rdOpt 2 bs
  let (y, bs) ← rdOpt 1 bs
  let (h, bs) ← rdOpt 1 bs
  let (layer, bs) ← rdOpt 1 bs
  let (text, bs) ← rdOptText bs
  let (font, bs) ← rdOpt 1 bs
  let (align, bs) ← rdOpt 1 bs
  let (list, bs) ← rdOpt 1 bs
  let (firstRow, bs) ← rdOpt 1 bs
  let (rowCount, bs) ← rdOpt 1 bs
  let (rowFont, bs) ← rdOpt 1 bs
  let (badgeFont, bs) ← rdOpt 1 bs
  let (ticker, bs) ← rdOpt 1 bs
  let (glyph, bs) ← rdOpt 2 bs
  let (foreground, bs) ← rdOpt 1 bs
  let (background, bs) ← rdOpt 1 bs
  let (flags, bs) ← rdOpt 1 bs
  let (windowStart, bs) ← rdChange 3 bs
  let (windowEnd, bs) ← rdChange 3 bs
  let (hold, bs) ← rdChange 1 bs
  if bs.isEmpty then
    some ⟨base, mask, x, w, y, h, layer, text, font, align, list, firstRow, rowCount, rowFont, badgeFont, ticker, glyph,
      foreground, background, flags, windowStart, windowEnd, hold⟩
  else none

/-- A value when nothing is left over. -/
def atEnd {α : Type} (r : Option (α × List Byte)) : Option α := do
  let (v, bs) ← r
  if bs.isEmpty then some v else none

/-- A fixed body of one number. -/
def rd1 (width : Nat) (k : Nat → Instr) (bs : List Byte) : Option Instr := do
  let (v, bs) ← rdNum width bs
  if bs.isEmpty then some (k v) else none

/-- A number of one byte and then a text. -/
def rdNumText (k : Nat → List Nat → Instr) (bs : List Byte) : Option Instr := do
  let (n, bs) ← rdNum 1 bs
  let t ← atEnd (rdList 2 bs)
  some (k n t)

/-- Read the entries of a GLYPH_LOAD to the exact end. A font above 3 has no height: its entries must account for the bytes
at a height that a font can have, 8 or 16 (R192, log 11). -/
def rdEntries (heights : List Nat) (font n : Nat) (bs : List Byte) : Option (List GlyphEntry) :=
  match heights[font]? with
  | some height => atEnd (rdGlyphs height n bs)
  | none => (atEnd (rdGlyphs 8 n bs)).orElse (fun _ => atEnd (rdGlyphs 16 n bs))

/-- The request that a kind code, a tag byte and a body spell for a port; none where R192 calls the frame malformed.
`heights` are the heights of fonts 0 to 3, by which a GLYPH_LOAD's bitmap lengths are judged (log 11). -/
def readRequest (p : PortId) (heights : List Nat) (kind tag : Nat) (body : List Byte) : Option Instr :=
  match kind with
  | 0x10 => match rdAll [1, 3, 1, 1, 3] body with
    | some [list, trip, line, destination, scheduled] => some (.depPut p list trip line destination scheduled)
    | _ => none
  | 0x11 => match rdAll [1, 3, 3] body with
    | some [list, trip, predicted] => some (.depPredict p list trip predicted)
    | _ => none
  | 0x12 => match rdAll [1, 3] body with
    | some [list, trip] => some (.depArrive p list trip)
    | _ => none
  | 0x13 => match rdAll [1, 3] body with
    | some [list, trip] => some (.depDepart p list trip)
    | _ => none
  | 0x14 => match rdAll [1, 3] body with
    | some [list, trip] => some (.depCancel p list trip)
    | _ => none
  | 0x15 => rd1 1 (.depRead p) body
  | 0x16 => rdNumText (.destSet p) body
  | 0x20 => rd1 4 (.clockSet p) body
  | 0x21 => rd1 4 (.newDay p) body
  | 0x22 => if body.isEmpty then some (.clockRead p) else none
  | 0x23 => do
    let (n, bs) ← rdNum 1 body
    let qs ← atEnd (rdPairs n bs)
    some (.settings p qs)
  | 0x30 => (rdPost body).map (.post p)
  | 0x31 => do
    let (n, bs) ← rdNum 1 body
    let f ← rdAmend bs
    some (.amend p n f)
  | 0x32 => rdNumText (.textSet p) body
  | 0x33 => rd1 1 (.withdraw p) body
  | 0x34 => rd1 1 (.boardRead p) body
  | 0x35 => match rdAll [1, 1] body with
    | some [number, timeout] => some (.confirmShown p tag number timeout)
    | _ => none
  | 0x40 => match rdAll [1, 1] body with
    | some [hold, wait] => some (.take p tag hold wait)
    | _ => none
  | 0x41 => rd1 1 (.release p) body
  | 0x42 => match rdAll [1, 1] body with
    | some [hold, heir] => some (.handover p hold heir)
    | _ => none
  | 0x43 => match rdAll [1, 1, 1] body with
    | some [hold, limit, group] => some (.holdSetup p hold limit group)
    | _ => none
  | 0x44 => rd1 1 (.holdRead p) body
  | 0x50 => match rdAll [1, 1, 1, 1, 1, 2, 1, 1, 1] body with
    | some [panel, address, link, drop, cls, width, height, level, refresh] =>
      some (.panelDefine p panel (BitVec.ofNat 8 address) link drop cls width height level refresh)
    | _ => none
  | 0x51 => rd1 1 (.panelRemove p) body
  | 0x52 => rd1 1 (.panelRestore p) body
  | 0x53 => rd1 1 (.panelRead p) body
  | 0x60 => match rdAll [1, 1] body with
    | some [font, height] => some (.fontSetup p font height)
    | _ => none
  | 0x61 => do
    let (font, bs) ← rdNum 1 body
    let (n, bs) ← rdNum 1 bs
    let es ← rdEntries heights font n bs
    some (.glyphLoad p font es)
  | 0x62 => rdNumText (.tokenSet p) body
  | 0x70 => match rdAll [1, 1, 2, 1, 1, 2] body with
    | some [ticker, font, window, period, columns, lowWater] =>
      some (.tickerSetup p ticker font window period columns lowWater)
    | _ => none
  | 0x71 => rdNumText (.tickerFeed p) body
  | 0x72 => rd1 1 (.tickerFlush p) body
  | 0x73 => rd1 1 (.tickerRead p) body
  | 0x80 => match rdAll [1, 2, 1, 2] body with
    | some [link, divider, timeout, startLevel] => some (.linkSetup p link divider timeout startLevel)
    | _ => none
  | 0x81 => rd1 1 (.linkEnable p) body
  | 0x82 => rd1 1 (.linkDisable p) body
  | 0x83 => rd1 1 (.linkRead p) body
  | 0x90 => do
    let (group, bs) ← rdNum 1 body
    let (members, bs) ← rdList 1 bs
    let (deadline, bs) ← rdNum 1 bs
    if bs.isEmpty then some (.groupSetup p group members deadline) else none
  | 0x91 => rd1 1 (.groupArm p) body
  | 0x92 => rd1 1 (.groupRead p) body
  | 0xA0 => rd1 1 (.cancelSplit p) body
  | 0xA1 => if body.isEmpty then some (.noticeTake p) else none
  | 0xA2 => rd1 2 (fun v => .noticeMask p (BitVec.ofNat 16 v)) body
  | 0xA3 => if body.isEmpty then some (.partStatus p) else none
  | 0xA4 => if body.isEmpty then some (.boardClear p) else none
  | _ => none

/-- What the port finds when FSEL rises (R183, R192). -/
inductive Judgement where
  | emptyPoll
  /-- An incomplete or malformed frame: the kind code and the tag of its BAD_FRAME response. -/
  | badFrame (kind tag : Byte)
  | request (i : Instr)
  deriving DecidableEq, Repr

/-- The judgement of the bytes received in one select period (R192). No byte at all is no transfer (R182). -/
def judgeFrame (p : PortId) (heights : List Nat) (bytes : List Byte) : Judgement :=
  match bytes with
  | [] => .emptyPoll
  | kind :: rest =>
    if kind = 0x00 ∨ kind = 0xFF then .emptyPoll else
      match rest with
      | tag :: l0 :: l1 :: body =>
        let len := leValue [l0, l1]
        if 596 < len ∨ body.length < len then .badFrame kind tag else
          match readRequest p heights kind.toNat tag.toNat (body.take len) with
          | some i => .request i
          | none => .badFrame kind tag
      | tag :: _ => .badFrame kind tag
      | [] => .badFrame kind 0

/-! ## The opcode table's words -/

/-- No row of spec/opcode_table.json gives bits, so no word spells a command. -/
def decodeTableWord (_nbits _w : Nat) : Option Instr := none

end Sys2Proof
end

