-- ==== Sys2Proof/Config.lean ====
section
/-! DEFINITION. What the spec leaves to the implementation: the free values (constants with no body). -/

namespace Sys2Proof

/-- FREE VALUE, DESIGN CHOICE (log 14). Whether LINK_READ (R170) rounds up the bit rate of a divider that does not divide
50,000,000: R158 gives the rate as the quotient and states no rounding. -/
opaque Config.rateRoundedUp : Nat → Bool

/-- FREE VALUE, DESIGN CHOICE (log 14). The bit rate that LINK_READ (R170) reports for divider 0, which stops the link: R158
gives no rate for it. -/
opaque Config.rateOfStoppedLink : Nat

end Sys2Proof
end

