-- ==== Sys2Proof/Machine/State.lean ====
section
/-! DEFINITION. The state of the part as plain data, block by block (00_scope.md, block diagram), and the state after
RESETn. A record that the spec calls FREE, UNDEFINED or absent is `none`; a state that decides which fields are present
carries those fields. -/

namespace Sys2Proof.Machine

/-! ## Departure lists and figures (chapters 1 and 2) -/

/-- The figure of an entry (section 2.3). -/
inductive Figure where
  | minutes (m : Nat)
  | due
  | clock (hh mm : Nat)
  | atPlatform
  | cancelled
  deriving DecidableEq, Repr

/-- A predicted time with its prediction stamp: one is present exactly when the other is (R2). -/
structure Prediction where
  time : Nat
  stamp : Nat
  deriving DecidableEq, Repr

/-- The state of an entry with the optional fields that state carries (R3). -/
inductive EntryState where
  | planned
  | tracked (p : Prediction)
  | arrived (p : Option Prediction) (stamp : Nat)
  | cancelled (linger : Nat)
  deriving DecidableEq, Repr

/-- An entry of a departure list (R2). -/
structure Entry where
  trip : Nat
  line : Nat
  destination : Nat
  scheduled : Nat
  state : EntryState
  figure : Figure
  source : PortId
  deriving DecidableEq, Repr

/-- The six parameters of SETTINGS (R190). -/
structure Settings where
  horizon : Nat
  threshold : Nat
  staleness : Nat
  overdue : Nat
  cancelLinger : Nat
  arrivalLinger : Nat
  deriving DecidableEq, Repr

/-! ## The station clock (R26) -/

/-- The states of the station clock. -/
inductive ClockState where
  | unset
  | running
  | slewing
  | limit
  deriving DecidableEq, Repr

/-- The station clock: its value in centiseconds, its state, its remaining slew (R26). -/
structure Clock where
  value : Nat
  state : ClockState
  slew : Int
  deriving DecidableEq, Repr

/-! ## The board (chapter 3) -/

/-- The alignment of a TEXT placard (R44). -/
inductive Align where
  | left
  | centre
  | right
  deriving DecidableEq, Repr

/-- The kind of a placard with its kind fields (R44). -/
inductive PlacardContent where
  | text (chars : List Nat) (font : FontId) (align : Align)
  | departures (list : ListId) (firstRow rowCount : Nat) (rowFont badgeFont : FontId)
  | ticker (t : TickerId)
  | clock (font : FontId)
  | glyph (font : FontId) (g : Nat)
  deriving DecidableEq, Repr

/-- A placard that is not FREE (R43). `background` is none for CLEAR; `live` is the state LIVE, its opposite DORMANT. -/
structure Placard where
  owner : PortId
  base : Byte
  mask : Byte
  x : Nat
  w : Nat
  y : Nat
  h : Nat
  layer : Nat
  content : PlacardContent
  foreground : Nat
  background : Option Nat
  blink : Bool
  invert : Bool
  windowStart : Option Nat
  windowEnd : Option Nat
  hold : Option HoldId
  generation : Nat
  live : Bool
  deriving DecidableEq, Repr

/-- The board but for the confirmations in progress (R42); a FREE placard is none. -/
structure Board where
  placards : Vector (Option Placard) 192
  drawOrder : List PlacardId
  cellsUsed : Nat
  generation : Nat
  deriving DecidableEq, Repr

/-! ## Holds (R65) -/

/-- A waiting TAKE: its port, its tag, its wait deadline. -/
structure Waiter where
  port : PortId
  tag : Tag
  deadline : Nat
  deriving DecidableEq, Repr

/-- The state of a hold with the owner, heir and limit deadline that state carries (R65). -/
inductive HoldState where
  | empty
  | taken (owner : PortId) (deadline : Nat)
  | handed (owner heir : PortId) (deadline : Nat)
  deriving DecidableEq, Repr

/-- A hold record (R65); `limit` in seconds, waiters oldest first. -/
structure Hold where
  state : HoldState
  waiters : List Waiter
  limit : Nat
  group : Option GroupId
  deriving DecidableEq, Repr

/-! ## The type store (R118) -/

/-- A present glyph: its width, 1 to 16, and the place of its bitmap in the region. -/
structure GlyphSlot where
  width : Nat
  place : Nat
  deriving DecidableEq, Repr

/-- A font region. `region` is its loaded bytes from the start upward, so its length is the space used (R119);
`directory` lists the present glyphs by rising index. -/
structure Font where
  height : Nat
  region : List Byte
  directory : List (Nat × GlyphSlot)
  deriving DecidableEq, Repr

/-- The type store: four fonts, and the tokens DUE, MIN, CANCELLED, AT_PLATFORM (R118). -/
structure TypeStore where
  fonts : Vector Font 4
  tokens : Vector (List Nat) 4
  deriving DecidableEq, Repr

/-! ## Tickers (R136) -/

/-- The states of a ticker. -/
inductive TickerState where
  | undefined
  | idle
  | running
  | dry
  deriving DecidableEq, Repr

/-- A ticker record (R136). `chars` are the characters held, from the head in ring order, so its length is the count. -/
structure Ticker where
  state : TickerState
  font : FontId
  window : Nat
  period : Nat
  columns : Nat
  lowWater : Nat
  chars : List Nat
  head : Nat
  offset : Int
  lastFeeder : Option PortId
  deadline : Option Nat
  deriving DecidableEq, Repr

/-- The content blocks of the part: what is shown, and who may edit it. -/
structure Content where
  lists : Vector (List Entry) 16
  destinations : Vector (List Nat) 128
  settings : Settings
  clock : Clock
  board : Board
  holds : Vector Hold 32
  typeStore : TypeStore
  tickers : Vector Ticker 8
  deriving DecidableEq, Repr

/-! ## Panels (chapter 5) -/

/-- The wake causes (section 5.4). -/
inductive Cause where
  | content
  | urgent
  | figure
  | clock
  | blink
  | scroll
  | refresh
  | retry
  | stage
  deriving DecidableEq, Repr

/-- A set of wake causes, each at most once. -/
structure CauseSet where
  content : Bool
  urgent : Bool
  figure : Bool
  clock : Bool
  blink : Bool
  scroll : Bool
  refresh : Bool
  retry : Bool
  stage : Bool
  deriving DecidableEq, Repr

/-- The empty set of causes. -/
def CauseSet.none : CauseSet := ⟨false, false, false, false, false, false, false, false, false⟩

/-- The panel classes (R80). -/
inductive PanelClass where
  | line
  | rows
  | wide
  deriving DecidableEq, Repr

/-- The states of a defined panel (R79); UNDEFINED is the absence of the record. -/
inductive PanelState where
  | offline
  | parked
  | ready
  | loaded
  | sending
  | isolated
  deriving DecidableEq, Repr

/-- A KNOWN acknowledged record (R79 note 1): strip digests from the top, frame digest, acknowledged generation. -/
structure AckRecord where
  strips : List Digest
  frame : Digest
  generation : Nat
  deriving DecidableEq, Repr

/-- A defined panel record (R79); `ack` is none for UNKNOWN. -/
structure Panel where
  address : Byte
  link : LinkId
  drop : Drop
  cls : PanelClass
  width : Nat
  height : Nat
  level : Nat
  refresh : Nat
  state : PanelState
  wake : CauseSet
  interest : CauseSet
  inFlight : Option CauseSet
  ack : Option AckRecord
  fullDemand : Bool
  failures : Nat
  holdoff : Option Nat
  refreshDeadline : Option Nat
  probeDue : Option Nat
  probeMark : Bool
  lastFrame : Byte
  deriving DecidableEq, Repr

/-! ## Lanes and their scheduling (chapters 6 and 9) -/

/-- The states of a lane (R97). -/
inductive LaneState where
  | free
  | resident
  | loading
  | working
  | claimed
  deriving DecidableEq, Repr

/-- A lane's copy of a panel's context (R108). -/
structure Context where
  panel : PanelId
  cls : PanelClass
  width : Nat
  height : Nat
  link : LinkId
  drop : Drop
  strips : Nat
  ack : Option AckRecord
  fullDemand : Bool
  deriving DecidableEq, Repr

/-- The kind of a strip (R149). -/
inductive StripKind where
  | keep
  | coded
  deriving DecidableEq, Repr

/-- A frame under construction (R149), with the compose generation of R96. `swapEnded` says of a staged candidate that the
swap it was marked for has ended while it was in its lane (R178). -/
structure FrameBuild where
  generation : Nat
  stagedCandidate : Bool
  committed : Bool
  digests : List Digest
  kinds : List StripKind
  wouldKeep : Bool
  swapEnded : Bool
  deriving DecidableEq, Repr

/-- A lane record (R96). `buffer` is the strip buffer (R125): the columns of the strip or half-strip last composed, from
the left, each the levels 0 to 3 of its eight rows, top row first; empty before the first composition (log 22). `composed`
says that it holds a strip, or half of one, not yet decided (R111). `unwritten` are code bytes that wait for room in the
link FIFO (R110). -/
structure Lane where
  state : LaneState
  panel : Option PanelId
  partner : Option LaneId
  context : Option Context
  work : CauseSet
  nextStrip : Nat
  frame : Option FrameBuild
  buffer : List (List Nat)
  composed : Bool
  unwritten : List Byte
  deriving DecidableEq, Repr

/-- A FREE lane. -/
def Lane.free : Lane := ⟨.free, none, none, none, CauseSet.none, 0, none, [], false, []⟩

/-- A position of the first-level cycle: a panel number or the second-level slot (R96). -/
inductive FirstPointer where
  | panel (p : PanelId)
  | slot
  deriving DecidableEq, Repr

/-- A pair claim: its WIDE panel and its pair (2k, 2k + 1) (R105). -/
structure Claim where
  panel : PanelId
  pair : Fin 4
  deriving DecidableEq, Repr

/-- The rotation state (R96). -/
structure Rotation where
  urgent : PanelId
  first : FirstPointer
  second : PanelId
  passes : Vector Nat 64
  claim : Option Claim
  deriving DecidableEq, Repr

/-! ## Display links (R157) -/

/-- The states of a link. -/
inductive LinkState where
  | disabled
  | idle
  | reserved
  | streaming
  | awaitingReply
  | probing
  deriving DecidableEq, Repr

/-- What the line carries; LDE is high for all but `released`. `brk toDisabled` is a break, and the state the link takes
when it ends: DISABLED or IDLE (R158). -/
inductive Line where
  | released
  | frame
  | probe
  | show
  | brk (toDisabled : Bool)
  deriving DecidableEq, Repr

/-- The frame record of a link (R157); the frame number is present from FRAME_START (R163). `swapEnded` says of a staged
frame that its swap ended before the lane reported CODED (R178). -/
structure FrameRecord where
  panel : PanelId
  drop : Drop
  number : Option Byte
  strips : List Digest
  expected : Digest
  generation : Nat
  full : Bool
  staged : Bool
  committed : Bool
  complete : Bool
  swapEnded : Bool
  deriving DecidableEq, Repr

/-- The probe record of a link (R157). -/
structure ProbeRecord where
  panel : PanelId
  drop : Drop
  cls : PanelClass
  width : Nat
  height : Nat
  deriving DecidableEq, Repr

/-- The last outcome of a link (R165, R170). -/
inductive LinkOutcome where
  | delivered
  | digestMismatch
  | nakFormat
  | nakDigest
  | timeout
  | restarted
  | abandoned
  deriving DecidableEq, Repr

/-- A link record (R157), with what its pins carry (R158, R193). `busy` is the line time, in units of 200 ns, until the
next FIFO byte is taken (log 3); `sent` are the bytes of the message last begun that LTX has carried (log 21). -/
structure Link where
  state : LinkState
  divider : Nat
  timeout : Nat
  startLevel : Nat
  fifo : List Byte
  frame : Option FrameRecord
  probe : Option ProbeRecord
  wait : Option Nat
  pendingShow : List Drop
  probePointer : Drop
  abandons : Nat
  lastOutcome : Option (LinkOutcome × PanelId)
  line : Line
  busy : Nat
  sent : List Byte
  rx : List Byte
  deriving DecidableEq, Repr

/-- Panels, lanes, rotation, links and the moment on the internal time base, in ms: all that a selection may change. -/
structure Works where
  panels : Vector (Option Panel) 64
  lanes : Vector Lane 8
  rotation : Rotation
  links : Vector Link 8
  now : Nat
  deriving DecidableEq, Repr

/-! ## Swap groups (R171) -/

/-- Who armed a group. -/
inductive ArmSource where
  | port (p : PortId)
  | hold
  deriving DecidableEq, Repr

/-- The staged record of an arrived member (R171). -/
structure StagedRecord where
  panel : PanelId
  strips : List Digest
  frame : Digest
  generation : Nat
  full : Bool
  byTransmission : Bool
  deriving DecidableEq, Repr

/-- A swap in progress; the arrived set is the panels of the staged records, one per arrived member (R171). -/
structure Swap where
  source : ArmSource
  expected : List PanelId
  dropped : List PanelId
  staged : List StagedRecord
  deadline : Nat
  deriving DecidableEq, Repr

/-- A group record: ARMED when a swap is in progress, IDLE otherwise (R171). -/
structure Group where
  members : List PanelId
  setting : Nat
  swap : Option Swap
  deriving DecidableEq, Repr

/-! ## Feed ports (R181) -/

/-- The rank of a port. -/
inductive Rank where
  | supervisor
  | feed
  deriving DecidableEq, Repr

/-- The statuses of a response (R184). -/
inductive Status where
  | ok
  | accepted
  | busy
  | badFrame
  | badValue
  | denied
  | notOwner
  | noRoom
  | notFound
  | inUse
  | listFull
  | tagInUse
  | state
  deriving DecidableEq, Repr

/-- The outcomes of a completion (R185). -/
inductive CompletionOutcome where
  | ok
  | partially
  | timeout
  | cancelled
  deriving DecidableEq, Repr

/-- A response frame: its header bytes and its body (chapter 13). -/
structure Frame where
  form : Byte
  kind : Byte
  code : Byte
  tag : Byte
  body : List Byte
  deriving DecidableEq, Repr

/-- A completion fixed for a split request. -/
structure Completion where
  tag : Tag
  kind : Byte
  outcome : CompletionOutcome
  body : List Byte
  deriving DecidableEq, Repr

/-- A tag record (R185): free; outstanding for a waiting TAKE of a hold, or for a confirmation; or outstanding with its
completion fixed and waiting for a slot. -/
inductive TagRecord where
  | free
  | take (hold : HoldId)
  | confirm
  | ended
  deriving DecidableEq, Repr

/-- A notice with its detail (R187). -/
inductive Notice where
  | panelIsolated (panel : PanelId)
  | panelMismatch (panel : PanelId)
  | holdExpired (hold : HoldId)
  | swapIncomplete (group : GroupId) (missing : Nat)
  | listEvict (list : ListId) (trip : Nat)
  | entryExpired (list : ListId) (trip : Nat)
  | predictionStale (list : ListId) (trip : Nat)
  | clockLimit (second : Nat)
  | tickerLow (ticker : TickerId)
  | panelOnline (panel : PanelId)
  deriving DecidableEq, Repr

/-- A pending notice record: the latest notice of its kind and the count (R187). -/
structure PendingNotice where
  notice : Notice
  count : Nat
  deriving DecidableEq, Repr

/-- A port record (R181). `notices` and `mask` are indexed by priority less 1, as the NOTICE_MASK body numbers kinds;
`reserved` is the slot held for the response of the request being executed; `fdo` are the bits shifted out in the last
transfer (R182, log 21). -/
structure Port where
  rank : Rank
  requests : List Instr
  responses : List Frame
  reserved : Bool
  tags : Vector TagRecord 16
  waiting : List Completion
  notices : Vector (Option PendingNotice) 10
  mask : BitVec 10
  fdo : List Bool
  deriving DecidableEq, Repr

/-- A confirmation in progress (R61). -/
structure Confirmation where
  port : PortId
  tag : Tag
  placard : PlacardId
  deadline : Nat
  deriving DecidableEq, Repr

/-- The delivery side of the part: the works, the swap groups, the confirmations in progress and the feed ports. -/
structure Delivery where
  works : Works
  groups : Vector Group 8
  confirmations : List Confirmation
  ports : Vector Port 4
  deriving DecidableEq, Repr

/-- The state of the part: content, delivery, the moment of the next count interval (R27), the RESETn pin (R181), and
the commands that wait, first in first out. -/
structure State where
  content : Content
  delivery : Delivery
  nextCount : Nat
  resetIsLow : Bool
  pending : List Instr
  deriving DecidableEq, Repr

/-- The reasons a step can stop with a fault. The spec gives none: no rule stops the part. -/
inductive Fault where
  /-- Raised by no command: the spec describes no fault of the part. Safe, as it never happens. -/
  | none
  deriving DecidableEq, Repr

/-- The reasons a step can refuse. -/
inductive Refusal where
  /-- Raised by an arm of exec whose command has no meaning yet. Safe: nothing follows from a refusal. -/
  | notModelled (mnemonic : String)
  deriving DecidableEq, Repr

/-! ## After RESETn -/

/-- The station clock after RESETn (R26). -/
def Clock.reset : Clock := ⟨0, .unset, 0⟩

/-- The parameters after RESETn (R23, R41, R190). -/
def Settings.reset : Settings := ⟨30, 45, 300, 600, 120, 180⟩

/-- The board after RESETn (R42). -/
def Board.reset : Board := ⟨Vector.replicate 192 none, [], 0, 0⟩

/-- A hold after RESETn (R65). -/
def Hold.reset : Hold := ⟨.empty, [], 20, none⟩

/-- A font after RESETn (R118). -/
def Font.reset : Font := ⟨8, [], []⟩

/-- A ticker after RESETn (R136). -/
def Ticker.reset : Ticker := ⟨.undefined, 0, 128, 50, 1, 0, [], 0, 0, none, none⟩

/-- The content blocks after RESETn. -/
def Content.reset : Content :=
  { lists := Vector.replicate 16 []
    destinations := Vector.replicate 128 []
    settings := Settings.reset
    clock := Clock.reset
    board := Board.reset
    holds := Vector.replicate 32 Hold.reset
    typeStore := ⟨Vector.replicate 4 Font.reset, Vector.replicate 4 []⟩
    tickers := Vector.replicate 8 Ticker.reset }

/-- The rotation state after RESETn (R96). -/
def Rotation.reset : Rotation := ⟨63, .panel 0, 0, Vector.replicate 64 0, none⟩

/-- A link after RESETn (R157). -/
def Link.reset : Link :=
  ⟨.disabled, 0, 20, 256, [], none, none, none, [], 7, 0, none, .released, 0, [], []⟩

/-- Panels, lanes and links after RESETn (R78, R96, R157); the time base counts from RESETn. -/
def Works.reset : Works :=
  ⟨Vector.replicate 64 none, Vector.replicate 8 Lane.free, Rotation.reset, Vector.replicate 8 Link.reset, 0⟩

/-- A group after RESETn (R171). -/
def Group.reset : Group := ⟨[], 20, none⟩

/-- A port after RESETn (R181), with the rank its RK pin gives it. -/
def Port.reset (rank : Rank) : Port :=
  ⟨rank, [], [], false, Vector.replicate 16 .free, [], Vector.replicate 10 none, 0, []⟩

/-- The rank an RK pin gives: high SUPERVISOR, low FEED (R181). -/
def rankOfPin (high : Bool) : Rank := cond high .supervisor .feed

/-- The delivery side after RESETn with the levels of RK0 to RK3. -/
def Delivery.reset (rk0 rk1 rk2 rk3 : Bool) : Delivery :=
  { works := Works.reset
    groups := Vector.replicate 8 Group.reset
    confirmations := []
    ports := #v[Port.reset (rankOfPin rk0), Port.reset (rankOfPin rk1), Port.reset (rankOfPin rk2),
      Port.reset (rankOfPin rk3)] }

/-- The state when RESETn has risen with the levels of RK0 to RK3 (R181), and nothing waits. -/
def State.resetWith (rk0 rk1 rk2 rk3 : Bool) : State :=
  { content := Content.reset
    delivery := Delivery.reset rk0 rk1 rk2 rk3
    nextCount := 10
    resetIsLow := false
    pending := [] }

/-- The machine right after reset. RK0 high and RK1 to RK3 low, the strapping of 00_scope.md's typical start-up
sequence: DESIGN CHOICE (log 4), since the pins are inputs. -/
def State.reset : State := State.resetWith true false false false

end Sys2Proof.Machine
end

