-- ==== Sys2Proof/Machine/Flags.lean ====
section
/-! DEFINITION. Sets of wake causes (section 5.4), notice records and the notice line FNTC (section 12.5), and the codes
of enumerated fields (chapter 13). -/

namespace Sys2Proof.Machine

/-! ## Wake causes -/

/-- The set holds the cause. -/
def CauseSet.has (s : CauseSet) : Cause → Bool
  | .content => s.content
  | .urgent => s.urgent
  | .figure => s.figure
  | .clock => s.clock
  | .blink => s.blink
  | .scroll => s.scroll
  | .refresh => s.refresh
  | .retry => s.retry
  | .stage => s.stage

/-- The set with the cause, held once (R85). -/
def CauseSet.insert (c : Cause) (s : CauseSet) : CauseSet :=
  match c with
  | .content => { s with content := true }
  | .urgent => { s with urgent := true }
  | .figure => { s with figure := true }
  | .clock => { s with clock := true }
  | .blink => { s with blink := true }
  | .scroll => { s with scroll := true }
  | .refresh => { s with refresh := true }
  | .retry => { s with retry := true }
  | .stage => { s with stage := true }

/-- Two sets merged, each cause at most once (R86). -/
def CauseSet.union (a b : CauseSet) : CauseSet :=
  ⟨a.content || b.content, a.urgent || b.urgent, a.figure || b.figure, a.clock || b.clock, a.blink || b.blink,
    a.scroll || b.scroll, a.refresh || b.refresh, a.retry || b.retry, a.stage || b.stage⟩

/-- The set without STAGE (R91). -/
def CauseSet.withoutStage (s : CauseSet) : CauseSet := { s with stage := false }

/-- The set is empty. -/
def CauseSet.isEmpty (s : CauseSet) : Bool := decide (s = CauseSet.none)

/-- A set as its two bytes: bit k for the cause of code k (chapter 13). -/
def CauseSet.bits (s : CauseSet) : Nat :=
  let b (x : Bool) (v : Nat) : Nat := cond x v 0
  b s.content 1 + b s.urgent 2 + b s.figure 4 + b s.clock 8 + b s.blink 16 + b s.scroll 32 + b s.refresh 64 +
    b s.retry 128 + b s.stage 256

/-- The causes that a panel's interest filters (section 5.4). -/
def Cause.filtered : Cause → Bool
  | .figure => true
  | .clock => true
  | .blink => true
  | .scroll => true
  | .content => false
  | .urgent => false
  | .refresh => false
  | .retry => false
  | .stage => false

/-! ## Notices -/

/-- The kind of a notice as its priority less 1 (R187). -/
def Notice.kind : Notice → Fin 10
  | .panelIsolated _ => 0
  | .panelMismatch _ => 1
  | .holdExpired _ => 2
  | .swapIncomplete _ _ => 3
  | .listEvict _ _ => 4
  | .entryExpired _ _ => 5
  | .predictionStale _ _ => 6
  | .clockLimit _ => 7
  | .tickerLow _ => 8
  | .panelOnline _ => 9

/-- The four detail bytes of a notice (chapter 13). -/
def Notice.detail : Notice → List Byte
  | .panelIsolated panel => [BitVec.ofNat 8 panel.val, 0, 0, 0]
  | .panelMismatch panel => [BitVec.ofNat 8 panel.val, 0, 0, 0]
  | .holdExpired hold => [BitVec.ofNat 8 hold.val, 0, 0, 0]
  | .swapIncomplete group missing => [BitVec.ofNat 8 group.val, BitVec.ofNat 8 missing, 0, 0]
  | .listEvict list trip =>
    [BitVec.ofNat 8 list.val, BitVec.ofNat 8 trip, BitVec.ofNat 8 (trip / 256), BitVec.ofNat 8 (trip / 65536)]
  | .entryExpired list trip =>
    [BitVec.ofNat 8 list.val, BitVec.ofNat 8 trip, BitVec.ofNat 8 (trip / 256), BitVec.ofNat 8 (trip / 65536)]
  | .predictionStale list trip =>
    [BitVec.ofNat 8 list.val, BitVec.ofNat 8 trip, BitVec.ofNat 8 (trip / 256), BitVec.ofNat 8 (trip / 65536)]
  | .clockLimit second =>
    [BitVec.ofNat 8 second, BitVec.ofNat 8 (second / 256), BitVec.ofNat 8 (second / 65536), 0]
  | .tickerLow ticker => [BitVec.ofNat 8 ticker.val, 0, 0, 0]
  | .panelOnline panel => [BitVec.ofNat 8 panel.val, 0, 0, 0]

/-- The record of a kind after a notice: created with count 1, or merged with the count stopping at 255 (R187). -/
def mergeNotice (n : Notice) : Option PendingNotice → PendingNotice
  | none => ⟨n, 1⟩
  | some r => ⟨n, min 255 (r.count + 1)⟩

/-- Record a notice in a port's notice set, masked or not (R187). -/
def Port.record (n : Notice) (pt : Port) : Port :=
  { pt with notices := pt.notices.set n.kind (some (mergeNotice n pt.notices[n.kind])) }

/-- A pending record of this kind is unmasked. -/
def Port.unmasked (pt : Port) (k : Fin 10) : Bool := pt.notices[k].isSome && !pt.mask.getLsbD k.val

/-- The level the port's notice set and mask give FNTC (R187). -/
def Port.fntc (pt : Port) : Bool := (List.finRange 10).any pt.unmasked

/-- The notice line of a port: low while RESETn is low (R181, R187). -/
def State.fntc (s : State) (p : PortId) : Bool := !s.resetIsLow && s.delivery.ports[p].fntc

/-- The driver enable of a link: high while the part sends (R158). -/
def Link.lde (l : Link) : Bool := decide (l.line ≠ .released)

/-! ## Codes of enumerated fields (chapter 13) -/

/-- Status codes 00h to 0Ch in the order of R184's table. -/
def Status.code : Status → Byte
  | .ok => 0x00
  | .accepted => 0x01
  | .busy => 0x02
  | .badFrame => 0x03
  | .badValue => 0x04
  | .denied => 0x05
  | .notOwner => 0x06
  | .noRoom => 0x07
  | .notFound => 0x08
  | .inUse => 0x09
  | .listFull => 0x0A
  | .tagInUse => 0x0B
  | .state => 0x0C

/-- Completion outcomes. -/
def CompletionOutcome.code : CompletionOutcome → Byte
  | .ok => 0x00
  | .partially => 0x0D
  | .timeout => 0x0E
  | .cancelled => 0x0F

/-- Response outcomes (chapter 13). -/
inductive Outcome where
  | inserted
  | updated
  | reinstated
  | started
  | slewed
  | stepped
  | held
  | cancelled
  | alreadyEnded
  deriving DecidableEq, Repr

/-- Response outcome codes. -/
def Outcome.code : Outcome → Byte
  | .inserted => 0x00
  | .updated => 0x01
  | .reinstated => 0x02
  | .started => 0x03
  | .slewed => 0x04
  | .stepped => 0x05
  | .held => 0x06
  | .cancelled => 0x07
  | .alreadyEnded => 0x08

/-- Clock state codes. -/
def ClockState.code : ClockState → Byte
  | .unset => 0
  | .running => 1
  | .slewing => 2
  | .limit => 3

/-- Panel class codes. -/
def PanelClass.code : PanelClass → Byte
  | .line => 0
  | .rows => 1
  | .wide => 2

/-- The panel class of a code. -/
def panelClassOf : Nat → Option PanelClass
  | 0 => some .line
  | 1 => some .rows
  | 2 => some .wide
  | _ => none

/-- Panel state codes; UNDEFINED is 00h. -/
def PanelState.code : PanelState → Byte
  | .offline => 1
  | .parked => 2
  | .ready => 3
  | .loaded => 4
  | .sending => 5
  | .isolated => 6

/-- Ticker state codes. -/
def TickerState.code : TickerState → Byte
  | .undefined => 0
  | .idle => 1
  | .running => 2
  | .dry => 3

/-- Link state codes. -/
def LinkState.code : LinkState → Byte
  | .disabled => 0
  | .idle => 1
  | .reserved => 2
  | .streaming => 3
  | .awaitingReply => 4
  | .probing => 5

/-- Link outcome codes; 00h is none. -/
def LinkOutcome.code : LinkOutcome → Byte
  | .delivered => 1
  | .digestMismatch => 2
  | .nakFormat => 3
  | .nakDigest => 4
  | .timeout => 5
  | .restarted => 6
  | .abandoned => 7

/-- Alignment codes. -/
def Align.code : Align → Byte
  | .left => 0
  | .centre => 1
  | .right => 2

/-- The alignment of a code. -/
def alignOf : Nat → Option Align
  | 0 => some .left
  | 1 => some .centre
  | 2 => some .right
  | _ => none

/-- Entry state codes. -/
def EntryState.code : EntryState → Byte
  | .planned => 0
  | .tracked _ => 1
  | .arrived _ _ => 2
  | .cancelled _ => 3

/-- Hold state codes. -/
def HoldState.code : HoldState → Byte
  | .empty => 0
  | .taken _ _ => 1
  | .handed _ _ _ => 2

/-- A figure: its kind code, and for MINUTES and CLOCK its values (R13, chapter 13). -/
def Figure.bytes : Figure → List Byte
  | .minutes m => [0, BitVec.ofNat 8 m]
  | .due => [1]
  | .clock hh mm => [2, BitVec.ofNat 8 hh, BitVec.ofNat 8 mm]
  | .atPlatform => [3]
  | .cancelled => [4]

end Sys2Proof.Machine
end

