-- ==== Sys2Proof/Machine/Operands.lean ====
section
/-! DEFINITION. Operand forms: numbers of objects, clamped parameters, values and their ranges, and the bytes that
responses are built of (chapter 13). -/

namespace Sys2Proof.Machine

/-- A number as the number of one of `n` objects, if it names one. -/
def index? (n v : Nat) : Option (Fin n) := if h : v < n then some ⟨v, h⟩ else none

/-- A value clamped to the nearest limit of `lo`–`hi`. -/
def clampTo (lo hi v : Nat) : Nat := max lo (min hi v)

/-- A text of at most `limit` characters, each a glyph index 0–511. -/
def textValid (limit : Nat) (text : List Nat) : Bool := decide (text.length ≤ limit) && text.all (fun c => decide (c < 512))

/-- An optional value is absent or passes the test. -/
def optOk (test : Nat → Bool) : Option Nat → Bool
  | none => true
  | some v => test v

/-- The new value of a removable field of an AMEND (R54). -/
def changedField (c : Change) (old : Option Nat) : Option Nat :=
  match c with
  | .keep => old
  | .set v => some v
  | .remove => none

/-- The value a removable field carries, if it carries one. -/
def changeValue? : Change → Option Nat
  | .set v => some v
  | .keep => none
  | .remove => none

/-! ## Response bytes -/

/-- A number up to 255. -/
def b1 (v : Nat) : List Byte := leBytes 1 v
/-- A number up to 65,535. -/
def b2 (v : Nat) : List Byte := leBytes 2 v
/-- A station second or a trip. -/
def b3 (v : Nat) : List Byte := leBytes 3 v
/-- A centisecond value, a board generation, a time left. -/
def b4 (v : Nat) : List Byte := leBytes 4 v
/-- A signed number in two bytes, two's complement. -/
def bSigned (v : Int) : List Byte := leBytes 2 (BitVec.ofInt 16 v).toNat
/-- A flag. -/
def bFlag (b : Bool) : List Byte := [cond b 1 0]
/-- An optional field after its presence byte. -/
def bOpt (enc : Nat → List Byte) : Option Nat → List Byte
  | none => [0]
  | some v => 1 :: enc v
/-- A text. -/
def bText (text : List Nat) : List Byte := b1 text.length ++ text.flatMap b2
/-- A list after its count. -/
def bList (enc : Nat → List Byte) (items : List Nat) : List Byte := b1 items.length ++ items.flatMap enc
/-- A port, FFh for none. -/
def bPort : Option PortId → List Byte
  | none => [0xFF]
  | some p => b1 p.val
/-- A group, FFh for none. -/
def bGroup : Option GroupId → List Byte
  | none => [0xFF]
  | some g => b1 g.val
/-- The time left to a deadline, in ms. MODEL'S CHOICE (log 35): one already reached is present with 0, never absent. -/
def timeLeft (now deadline : Nat) : Nat := deadline - now

/-- The status and the body of a response. -/
structure Reply where
  status : Status
  body : List Byte
  deriving DecidableEq, Repr

/-- A refusal: a status alone (log 9). -/
def refuse (st : Status) : Reply := ⟨st, []⟩
/-- OK with its outcome and data. -/
def okWith (body : List Byte) : Reply := ⟨.ok, body⟩

end Sys2Proof.Machine
end

