-- ==== Sys2Proof/Machine/Coding.lean ====
section
/-! DEFINITION. Strip coding (chapter 9) and link messages (section 13.2): digests, strip bytes, the KEEP decision, code
words, strip blocks, and the messages the part sends on a link. -/

namespace Sys2Proof.Machine

/-! ## Digests -/

/-- One byte taken into a digest (R147). -/
def digestStep (d : Digest) (b : Byte) : Digest := d.rotateLeft 1 + b.setWidth 16

/-- The digest of a byte sequence (R147). -/
def digest (bytes : List Byte) : Digest := bytes.foldl digestStep 0

/-- A digest as its low byte and its high byte. -/
def digestBytes (d : Digest) : List Byte := [d.setWidth 8, (d >>> 8).setWidth 8]

/-- The frame digest of a frame's strip digests, strip 0 first (R148). -/
def frameDigest (strips : List Digest) : Digest := digest (strips.flatMap digestBytes)

/-- A message followed by its two-byte check (section 13.2). -/
def withCheck (message : List Byte) : List Byte := message ++ digestBytes (digest message)

/-! ## The bytes of a strip -/

/-- The bit a level gives a plane of a panel class (R146). -/
def levelBit (cls : PanelClass) (plane level : Nat) : Bool :=
  match cls with
  | .rows => if plane = 0 then decide (level % 2 = 1) else decide (2 ≤ level)
  | .line => decide (1 ≤ level)
  | .wide => decide (1 ≤ level)

/-- Bits as a number, the first bit bit 0. -/
def numberOfBits : List Bool → Nat
  | [] => 0
  | b :: bs => cond b 1 0 + 2 * numberOfBits bs

/-- The byte of a column of levels, top row first, bit 0 the top row (R146). -/
def columnByte (cls : PanelClass) (plane : Nat) (column : List Nat) : Byte :=
  BitVec.ofNat 8 (numberOfBits (column.map (levelBit cls plane)))

/-- The strip bytes of columns of levels: plane 0, and on a ROWS panel then plane 1 (R146). -/
def stripBytes (cls : PanelClass) (columns : List (List Nat)) : List Byte :=
  match cls with
  | .rows => columns.map (columnByte cls 0) ++ columns.map (columnByte cls 1)
  | .line => columns.map (columnByte cls 0)
  | .wide => columns.map (columnByte cls 0)

/-! ## Code words (R152) -/

/-- A code word: n copies of a byte, or bytes as they are. -/
inductive CodeWord where
  | run (n : Nat) (b : Byte)
  | literal (bytes : List Byte)
  deriving DecidableEq, Repr

/-- The code bytes of a code word (section 13.2). -/
def CodeWord.bytes : CodeWord → List Byte
  | .run n b => [BitVec.ofNat 8 (128 + (n - 3)), b]
  | .literal bytes => BitVec.ofNat 8 (bytes.length - 1) :: bytes

/-- The bytes a code word stands for. -/
def CodeWord.expand : CodeWord → List Byte
  | .run n b => List.replicate n b
  | .literal bytes => bytes

/-- How many bytes at the head equal `b`, up to a limit. -/
def runOf (b : Byte) : Nat → List Byte → Nat
  | 0, _ => 0
  | _ + 1, [] => 0
  | n + 1, x :: xs => if x = b then runOf b n xs + 1 else 0

/-- Three equal bytes begin here. -/
def beginsRun : List Byte → Bool
  | a :: b :: c :: _ => decide (a = b ∧ b = c)
  | _ => false

/-- The bytes of a LITERAL of at most the limit given that starts here, and what follows it. -/
def literalOf : Nat → List Byte → List Byte × List Byte
  | 0, bs => ([], bs)
  | _ + 1, [] => ([], [])
  | n + 1, b :: bs =>
    if beginsRun (b :: bs) then ([], b :: bs)
    else (b :: (literalOf n bs).1, (literalOf n bs).2)

/-- The greedy scan, with a bound on the number of code words. -/
def scan : Nat → List Byte → List CodeWord
  | 0, _ => []
  | _ + 1, [] => []
  | fuel + 1, b :: bs =>
    let n := runOf b 130 (b :: bs)
    if 3 ≤ n then .run n b :: scan fuel ((b :: bs).drop n)
    else .literal (literalOf 128 (b :: bs)).1 :: scan fuel (literalOf 128 (b :: bs)).2

/-- The code words of a segment (R152). -/
def codeSegment (segment : List Byte) : List CodeWord := scan segment.length segment

/-- The code bytes of a segment. -/
def segmentCode (segment : List Byte) : List Byte := (codeSegment segment).flatMap CodeWord.bytes

/-! ## Strip blocks (R151) -/

/-- A strip block header: the strip number, bit 7 for CODED (section 13.2). -/
def stripHeader (strip : Nat) (kind : StripKind) : Byte :=
  match kind with
  | .keep => BitVec.ofNat 8 strip
  | .coded => BitVec.ofNat 8 (128 + strip)

/-- The segments of the bytes that one lane composed: the planes of a LINE or ROWS strip, the half of a WIDE one. -/
def laneSegments (cls : PanelClass) (bytes : List Byte) : List (List Byte) :=
  match cls with
  | .rows => [bytes.take (bytes.length / 2), bytes.drop (bytes.length / 2)]
  | .line => [bytes]
  | .wide => [bytes]

/-- The code bytes of the segments of one lane. -/
def laneCode (cls : PanelClass) (bytes : List Byte) : List Byte := (laneSegments cls bytes).flatMap segmentCode

/-- What the lane that opens a strip block writes: the header, and for CODED its code words (R151). -/
def openingCode (cls : PanelClass) (strip : Nat) (kind : StripKind) (bytes : List Byte) : List Byte :=
  match kind with
  | .keep => [stripHeader strip .keep]
  | .coded => stripHeader strip .coded :: laneCode cls bytes

/-- What the odd lane of a pair writes of a strip block (R111, R151). -/
def closingCode (cls : PanelClass) (kind : StripKind) (bytes : List Byte) : List Byte :=
  match kind with
  | .keep => []
  | .coded => laneCode cls bytes

/-! ## The KEEP decision (R150) -/

/-- Conditions 1, 2, 3 and 5 of R150 hold: the strip would be kept but for a staged candidate mark. -/
def wouldKeepStrip (ctx : Context) (work : CauseSet) (strip : Nat) (d : Digest) : Bool :=
  match ctx.ack with
  | none => false
  | some r => !ctx.fullDemand && !work.has .refresh && decide (r.strips[strip]? = some d)

/-- The kind of a strip (R150): condition 4 is the staged candidate mark. -/
def stripKind (ctx : Context) (work : CauseSet) (candidate : Bool) (strip : Nat) (d : Digest) : StripKind :=
  if wouldKeepStrip ctx work strip d && !candidate then .keep else .coded

/-- The frame under construction after a strip is decided: its digest and kind added, and the frame committed at its
first CODED block, or for a staged candidate at its first strip that would not be kept (R153). -/
def FrameBuild.decideStrip (ctx : Context) (work : CauseSet) (strip : Nat) (d : Digest) (f : FrameBuild) : FrameBuild :=
  let would := wouldKeepStrip ctx work strip d
  { f with
    digests := f.digests ++ [d]
    kinds := f.kinds ++ [stripKind ctx work f.stagedCandidate strip d]
    committed := f.committed || !would
    wouldKeep := f.wouldKeep && (would || !f.stagedCandidate) }

/-- The frame is full: committed with every strip CODED (R154). -/
def FrameBuild.full (f : FrameBuild) : Bool := f.committed && f.kinds.all (fun k => decide (k = .coded))

/-- The frame is staged: committed with its staged candidate mark set (R154). -/
def FrameBuild.staged (f : FrameBuild) : Bool := f.committed && f.stagedCandidate

/-! ## Messages of the part (section 13.2) -/

/-- The FRAME header: drop, frame number, staged flag, strip count, check. -/
def frameHeader (drop : Drop) (number : Byte) (staged : Bool) (strips : Nat) : List Byte :=
  withCheck [0x80, BitVec.ofNat 8 drop.val, number, cond staged 1 0, BitVec.ofNat 8 strips]

/-- The PROBE message: drop and reply timeout. -/
def probeMessage (drop : Drop) (timeout : Nat) : List Byte :=
  withCheck [0x81, BitVec.ofNat 8 drop.val, BitVec.ofNat 8 timeout]

/-- The SHOW message: a count and that many drops, ascending. -/
def showMessage (drops : List Drop) : List Byte :=
  withCheck (0x82 :: BitVec.ofNat 8 drops.length :: drops.map (fun d => BitVec.ofNat 8 d.val))

end Sys2Proof.Machine
end

