-- ==== Sys2Proof/Machine/Ops.lean ====
section
/-! DEFINITION. The named operations over the records of the part that several commands share: notices and split
completions in the ports, the matching relations of the board, wake causes, confirmations, swap groups, and the lines of
the display links. -/

namespace Sys2Proof.Machine

/-! ## Tables -/

/-- Every record of a table changed by one function. -/
def mapTable {α : Type} {n : Nat} (f : α → α) (v : Vector α n) : Vector α n :=
  ⟨(v.toList.map f).toArray, by simp⟩

/-- One record of a table changed. -/
def modifyAt {α : Type} {n : Nat} (i : Fin n) (f : α → α) (v : Vector α n) : Vector α n := v.set i (f v[i])

/-- The numbers of a table of `n` in rising order, beginning at `start` and wrapping once round. -/
def cycleFrom (n : Nat) [NeZero n] (start : Nat) : List (Fin n) :=
  (List.finRange n).map (fun i => Fin.ofNat n (start + i.val))

/-! ## Ports: slots, completions and notices (chapter 12) -/

/-- One port record changed. -/
def Delivery.mapPort (p : PortId) (f : Port → Port) (d : Delivery) : Delivery := { d with ports := modifyAt p f d.ports }

/-- A response slot is free: the queue frames and the reserved slot together are fewer than 8 (R183, R184). -/
def Port.slotFree (pt : Port) : Bool := decide (pt.responses.length + cond pt.reserved 1 0 < 8)

/-- The frame of a completion (section 13.1). -/
def Completion.frame (x : Completion) : Frame := ⟨0x02, x.kind, x.outcome.code, BitVec.ofNat 8 x.tag.val, x.body⟩

/-- A completion placed at the tail of the response queue; its tag is free (R185). -/
def Port.place (x : Completion) (pt : Port) : Port :=
  { pt with responses := pt.responses ++ [x.frame], tags := pt.tags.set x.tag .free }

/-- A fixed completion handed to the port (R185): placed in a free slot, or waiting with its tag outstanding. One fixed
while a request of the port is executed waits for that request's response (R184). -/
def Port.offer (x : Completion) (pt : Port) : Port :=
  if pt.reserved || !pt.waiting.isEmpty || !pt.slotFree then
    { pt with waiting := pt.waiting ++ [x], tags := pt.tags.set x.tag .ended }
  else pt.place x

/-- Waiting completions take free slots, oldest first; what finds none goes on waiting (R185). -/
def Port.drainWaiting : List Completion → Port → Port
  | [], pt => { pt with waiting := [] }
  | x :: xs, pt => if pt.slotFree then drainWaiting xs (pt.place x) else { pt with waiting := x :: xs }

/-- The waiting completions offered to the free slots (R185). -/
def Port.drain (pt : Port) : Port := Port.drainWaiting pt.waiting pt

/-- A completion fixed for a port. -/
def Delivery.complete (p : PortId) (x : Completion) (d : Delivery) : Delivery := d.mapPort p (Port.offer x)

/-- A notice recorded in the notice set of one port (R187). -/
def Delivery.notify (n : Notice) (p : PortId) (d : Delivery) : Delivery := d.mapPort p (Port.record n)

/-- A notice recorded in the notice set of every port. -/
def Delivery.notifyAll (n : Notice) (d : Delivery) : Delivery := { d with ports := mapTable (Port.record n) d.ports }

/-! ## Panels, the board and the holds (R45, R46, R60, R66) -/

/-- The defined panels with their numbers, ascending. -/
def Works.panelList (w : Works) : List (PanelId × Panel) :=
  ((List.finRange 64).zip w.panels.toList).filterMap (fun x => x.2.map (fun q => (x.1, q)))

/-- The placards that are not FREE. -/
def Board.present (b : Board) : List Placard := b.placards.toList.filterMap id

/-- A placard matches a defined panel (R45). -/
def Placard.matchesPanel (pl : Placard) (q : Panel) : Bool := decide (q.address &&& pl.mask = pl.base &&& pl.mask)

/-- A placard's rectangle is not clipped to nothing on a panel (R46). -/
def Placard.inside (pl : Placard) (q : Panel) : Bool :=
  decide (0 < pl.w ∧ 0 < pl.h ∧ pl.x < q.width ∧ pl.y < q.height)

/-- A panel draws a placard (R46). -/
def Placard.drawnOn (pl : Placard) (q : Panel) : Bool := pl.matchesPanel q && pl.live && pl.inside q

/-- A placard of kind DEPARTURES. -/
def PlacardContent.isDepartures : PlacardContent → Bool
  | .departures _ _ _ _ _ => true
  | .text _ _ _ => false
  | .ticker _ => false
  | .clock _ => false
  | .glyph _ _ => false

/-- A placard of kind CLOCK. -/
def PlacardContent.isClock : PlacardContent → Bool
  | .clock _ => true
  | .text _ _ _ => false
  | .departures _ _ _ _ _ => false
  | .ticker _ => false
  | .glyph _ _ => false

/-- A placard of kind TICKER. -/
def PlacardContent.isTicker : PlacardContent → Bool
  | .ticker _ => true
  | .text _ _ _ => false
  | .departures _ _ _ _ _ => false
  | .clock _ => false
  | .glyph _ _ => false

/-- A placard of kind TEXT. -/
def PlacardContent.isText : PlacardContent → Bool
  | .text _ _ _ => true
  | .departures _ _ _ _ _ => false
  | .ticker _ => false
  | .clock _ => false
  | .glyph _ _ => false

/-- The interest of a panel, computed afresh from what it draws (R60). -/
def Board.interestOf (b : Board) (q : Panel) : CauseSet :=
  let drawn := b.present.filter (fun pl => pl.drawnOn q)
  { CauseSet.none with
    figure := drawn.any (fun pl => pl.content.isDepartures)
    clock := drawn.any (fun pl => pl.content.isClock)
    blink := drawn.any (fun pl => pl.blink)
    scroll := drawn.any (fun pl => pl.content.isTicker) }

/-- The placard is bound to a hold that is TAKEN or HANDED. -/
def Content.isHeld (c : Content) (pl : Placard) : Bool :=
  match pl.hold with
  | none => false
  | some h => decide (c.holds[h].state ≠ .empty)

/-- The panel is frozen (R66). -/
def Content.frozen (c : Content) (q : Panel) : Bool := c.board.present.any (fun pl => c.isHeld pl && pl.matchesPanel q)

/-- The panel is online: PARKED, READY, LOADED or SENDING (section 5.2). -/
def Panel.online (q : Panel) : Bool :=
  match q.state with
  | .parked => true
  | .ready => true
  | .loaded => true
  | .sending => true
  | .offline => false
  | .isolated => false

/-- The strip count of a panel: its height divided by 8 (R80). -/
def Panel.stripCount (q : Panel) : Nat := q.height / 8

/-- A panel record whose acknowledged record and full-frame demand are as they were. -/
def Works.setPanel (p : PanelId) (q : Panel) (w : Works) : Works := { w with panels := w.panels.set p (some q) }

/-- A lane's copy of a panel's context in agreement with the record (R108). -/
def Lane.syncContext (p : PanelId) (q : Panel) (n : Lane) : Lane :=
  match n.context with
  | none => n
  | some x => if x.panel = p then { n with context := some { x with ack := q.ack, fullDemand := q.fullDemand } } else n

/-- A panel record, its acknowledged record and full-frame demand written into each lane copy of its context (R108). -/
def Works.putPanel (p : PanelId) (q : Panel) (w : Works) : Works :=
  { w with panels := w.panels.set p (some q), lanes := mapTable (Lane.syncContext p q) w.lanes }

/-- PARKED with an empty wake set, READY with any cause. -/
def Panel.rest (q : Panel) : Panel := { q with state := cond q.wake.isEmpty .parked .ready }

/-- The record UNKNOWN, the refresh deadline removed and full-frame demand set (R91, R93, R95). -/
def Panel.distrust (q : Panel) : Panel := { q with ack := none, refreshDeadline := none, fullDemand := true }

/-- The refresh deadline that a KNOWN acknowledgement of a full frame sets (R88). -/
def Panel.refreshFrom (now : Nat) (q : Panel) : Option Nat :=
  if q.refresh = 0 then none else some (now + 60000 * q.refresh)

/-- A KNOWN acknowledgement applied to the record (R89 steps 1 and 3, R90). -/
def Panel.acknowledge (now : Nat) (r : AckRecord) (full : Bool) (q : Panel) : Panel :=
  if full then { q with ack := some r, fullDemand := false, refreshDeadline := q.refreshFrom now }
  else { q with ack := some r }

/-- The panel table takes a raised cause on one record (R85). -/
def Panel.gain (cause : Cause) (q : Panel) : Panel :=
  if cause.filtered && !q.interest.has cause then q
  else { q with wake := q.wake.insert cause, state := if q.state = .parked then .ready else q.state }

/-! ## Confirmations (R61 to R63) -/

/-- The counted panels of a placard: matched and online (R62). -/
def countedPanels (w : Works) (pl : Placard) : List (PanelId × Panel) :=
  w.panelList.filter (fun x => pl.matchesPanel x.2 && x.2.online)

/-- A counted panel is confirmed for a placard's change generation (R62). -/
def Panel.confirms (generation : Nat) (q : Panel) : Bool :=
  match q.ack with
  | none => false
  | some r => decide (generation ≤ r.generation)

/-- The completion a confirmation has earned: every counted panel is confirmed (R62). -/
def Confirmation.success? (b : Board) (w : Works) (k : Confirmation) : Option Completion :=
  match b.placards[k.placard] with
  | none => none
  | some pl =>
    if (countedPanels w pl).all (fun x => x.2.confirms pl.generation) then
      some ⟨k.tag, 0x35, .ok, b1 (countedPanels w pl).length⟩
    else none

/-- The completion of a confirmation whose deadline is reached: PARTIAL or TIMEOUT (R62). -/
def Confirmation.lapse (b : Board) (w : Works) (k : Confirmation) : Completion :=
  match b.placards[k.placard] with
  | none => ⟨k.tag, 0x35, .timeout, b1 0 ++ b1 0⟩
  | some pl =>
    let counted := countedPanels w pl
    let confirmed := counted.filter (fun x => x.2.confirms pl.generation)
    let missing := counted.filter (fun x => !x.2.confirms pl.generation)
    ⟨k.tag, 0x35, if confirmed.isEmpty then .timeout else .partially,
      b1 confirmed.length ++ bList b1 (missing.map (fun x => x.1.val))⟩

/-- A confirmation ended: its completion fixed and its record removed (R63). -/
def Delivery.endConfirmation (k : Confirmation) (x : Completion) (d : Delivery) : Delivery :=
  { d.complete k.port x with confirmations := d.confirmations.filter (fun j => decide (j ≠ k)) }

/-- One check of a confirmation (R62). -/
def Delivery.checkConfirmation (b : Board) (d : Delivery) (k : Confirmation) : Delivery :=
  match k.success? b d.works with
  | none => d
  | some x => d.endConfirmation k x

/-- Every confirmation in progress checked, in the order of acceptance (R62, R63). -/
def Delivery.checkConfirmations (b : Board) (d : Delivery) : Delivery :=
  d.confirmations.foldl (Delivery.checkConfirmation b) d

/-- The confirmations of one placard checked. -/
def Delivery.checkPlacard (b : Board) (n : PlacardId) (d : Delivery) : Delivery :=
  (d.confirmations.filter (fun k => decide (k.placard = n))).foldl (Delivery.checkConfirmation b) d

/-- A confirmation ended CANCELLED (R63). -/
def Delivery.cancelConfirmation (d : Delivery) (k : Confirmation) : Delivery :=
  d.endConfirmation k ⟨k.tag, 0x35, .cancelled, []⟩

/-! ## Lines of the display links (R158, R162, R167, R169) -/

/-- One link record written. -/
def Works.setLink (l : LinkId) (k : Link) (w : Works) : Works := { w with links := w.links.set l k }

/-- The link is enabled (R81, R83): not DISABLED. MODEL'S CHOICE (log 40): nor is it enabled in the break of a LINK_DISABLE,
though it stays in its former state until the break ends (R158). -/
def Link.enabled (k : Link) : Bool := decide (k.state ≠ .disabled ∧ k.line ≠ .brk true)

/-- The panel at a drop of a link. -/
def Works.panelAt (w : Works) (l : LinkId) (drop : Drop) : Option (PanelId × Panel) :=
  w.panelList.find? (fun x => decide (x.2.link = l ∧ x.2.drop = drop))

/-- The panel is OFFLINE with its probe due reached. -/
def Panel.probeIsDue (now : Nat) (q : Panel) : Bool :=
  match q.probeDue with
  | none => false
  | some t => decide (q.state = .offline ∧ t ≤ now)

/-- The drop that a probe takes next: from the drop after the probe pointer upward, once round (R167). -/
def Works.dueProbe (w : Works) (l : LinkId) : Option (PanelId × Panel) :=
  (cycleFrom 8 (w.links[l].probePointer.val + 1)).findSome? (fun drop =>
    (w.panelAt l drop).filter (fun x => x.2.probeIsDue w.now))

/-- The link record as a probe of a panel begins (R167 steps 1, 2, 4). -/
def Link.probing (p : PanelId) (q : Panel) (k : Link) : Link :=
  { k with
    state := .probing
    probePointer := q.drop
    probe := some ⟨p, q.drop, q.cls, q.width, q.height⟩
    line := .probe
    sent := probeMessage q.drop k.timeout
    rx := [] }

/-- The link begins a probe of a panel, whose probe due moves on by 5 s and whose probe mark is set (R94, R167). -/
def Works.beginProbe (l : LinkId) (p : PanelId) (q : Panel) (w : Works) : Works :=
  (w.setPanel p { q with probeDue := some (w.now + 5000), probeMark := true }).setLink l (w.links[l].probing p q)

/-- The link begins the probe that is due, if one is (R167). -/
def Works.beginDueProbe (l : LinkId) (w : Works) : Works :=
  match w.dueProbe l with
  | none => w
  | some x => w.beginProbe l x.1 x.2

/-- The link record as its pending SHOW begins; the pending SHOW is emptied (R169). -/
def Link.showing (k : Link) : Link :=
  { k with line := .show, sent := showMessage k.pendingShow, pendingShow := [], rx := [] }

/-- The state lets a SHOW be sent: IDLE or RESERVED (R169). -/
def Link.mayShow (k : Link) : Bool := decide (k.state = .idle ∨ k.state = .reserved)

/-- What a link does when its line is free: the pending SHOW goes first, then on an IDLE link a due probe (R167, R169). -/
def Works.lineFree (l : LinkId) (w : Works) : Works :=
  let k := w.links[l]
  if k.line ≠ .released then w
  else if k.mayShow && !k.pendingShow.isEmpty then w.setLink l k.showing
  else if k.state = .idle then w.beginDueProbe l
  else w

/-- The link record with no frame, no probe, no wait and an empty FIFO; a SHOW on the line goes on (R162, R169). -/
def Link.clear (state : LinkState) (k : Link) : Link :=
  { k with
    state := state
    fifo := []
    frame := none
    probe := none
    wait := none
    line := if k.line = .show then .show else .released
    busy := 0
    rx := [] }

/-- The link returns to IDLE; a pending SHOW or a due probe may begin at once (R165, R167, R169). -/
def Works.toIdle (l : LinkId) (w : Works) : Works := (w.setLink l (w.links[l].clear .idle)).lineFree l

/-- The line holds a break (R158). -/
def Link.breaking (k : Link) : Bool :=
  match k.line with
  | .brk _ => true
  | .released => false
  | .frame => false
  | .probe => false
  | .show => false

/-- The frame of a STREAMING link is abandoned with a break and counted, once (R158, R164). -/
def Link.abandon (k : Link) : Link :=
  if k.breaking then k else { k with line := .brk false, abandons := min 65535 (k.abandons + 1), busy := 0 }

/-- A link lets a frame go without a report (R82, R115, R162, R166): a frame in transmission is cut short with a break, a
frame that waits or whose reply is awaited is discarded and the link returns to IDLE. -/
def Works.dropFrame (l : LinkId) (w : Works) : Works :=
  match w.links[l].state with
  | .streaming => w.setLink l w.links[l].abandon
  | .reserved => w.toIdle l
  | .awaitingReply => w.toIdle l
  | .disabled => w
  | .idle => w
  | .probing => w

/-- The drops added to the pending SHOW, each at most once, ascending (R169). -/
def Link.addShow (drops : List Drop) (k : Link) : Link :=
  { k with pendingShow := (List.finRange 8).filter (fun x => decide (x ∈ k.pendingShow ∨ x ∈ drops)) }

/-- A request for SHOW reaches a link: dropped when DISABLED, sent at once when the line is free (R169). -/
def Works.requestShow (l : LinkId) (drops : List Drop) (w : Works) : Works :=
  let k := w.links[l]
  if k.state = .disabled ∨ drops = [] then w
  else
    let k' := k.addShow drops
    w.setLink l (if k'.mayShow && decide (k'.line = .released) then k'.showing else k')

/-! ## Swap groups (R174 to R177) -/

/-- One group record changed. -/
def Delivery.mapGroup (g : GroupId) (f : Group → Group) (d : Delivery) : Delivery :=
  { d with groups := modifyAt g f d.groups }

/-- The works changed. -/
def Delivery.mapWorks (f : Works → Works) (d : Delivery) : Delivery := { d with works := f d.works }

/-- The moment on the internal time base moved on to a deadline that is reached (log 3). -/
def Delivery.reach (t : Nat) (d : Delivery) : Delivery := d.mapWorks (fun w => { w with now := max w.now t })

/-- The arrived set: the members with a staged record (R171). -/
def Swap.arrived (s : Swap) : List PanelId := s.staged.map (fun r => r.panel)

/-- The member is expected and has neither arrived nor dropped out (R174, R175). -/
def Swap.awaits (p : PanelId) (s : Swap) : Bool :=
  decide (p ∈ s.expected) && !decide (p ∈ s.dropped) && !decide (p ∈ s.arrived)

/-- An ARMED group awaits the panel. -/
def Group.awaits (p : PanelId) (g : Group) : Bool :=
  match g.swap with
  | none => false
  | some s => s.awaits p

/-- The group whose swap awaits the panel. -/
def awaitingGroup (gs : Vector Group 8) (p : PanelId) : Option GroupId :=
  (List.finRange 8).find? (fun g => gs[g].awaits p)

/-- A panel number joined to an ascending list. -/
def insertNumber {n : Nat} (p : Fin n) : List (Fin n) → List (Fin n)
  | [] => [p]
  | x :: xs => if p < x then p :: x :: xs else if p = x then x :: xs else x :: insertNumber p xs

/-- Every member of the expected set has arrived or dropped out (R177). -/
def Swap.isComplete (s : Swap) : Bool := s.expected.all (fun p => decide (p ∈ s.arrived ∨ p ∈ s.dropped))

/-- The staged records that arrived by transmission, by rising panel number. -/
def Swap.toShow (s : Swap) : List StagedRecord :=
  (s.expected.filterMap (fun p => s.staged.find? (fun r => decide (r.panel = p)))).filter (fun r => r.byTransmission)

/-- A staged record adopted by the panel table: steps 1, 3 and 6 of R89 (R90). MODEL'S CHOICE (log 38): the confirmations
are checked after each record, so that the order of acceptance (R63) holds within one check, not over the whole swap. -/
def Delivery.adopt (b : Board) (d : Delivery) (r : StagedRecord) : Delivery :=
  match d.works.panels[r.panel] with
  | none => d
  | some q =>
    (d.mapWorks (Works.putPanel r.panel (q.acknowledge d.works.now ⟨r.strips, r.frame, r.generation⟩ r.full))
      ).checkConfirmations b

/-- The drops on a link of the panels given. -/
def Works.dropsOn (w : Works) (panels : List PanelId) (l : LinkId) : List Drop :=
  panels.filterMap (fun p => (w.panels[p].filter (fun q => decide (q.link = l))).map (fun q => q.drop))

/-- The arrived images shown: records adopted, then SHOW asked of each link concerned (R177 steps 1 and 2). -/
def Delivery.showSwap (b : Board) (s : Swap) (d : Delivery) : Delivery :=
  let d' := s.toShow.foldl (Delivery.adopt b) d
  let shown := s.toShow.map (fun r => r.panel)
  d'.mapWorks (fun w => (List.finRange 8).foldl (fun w l => w.requestShow l (w.dropsOn shown l)) w)

/-- A staged candidate whose swap ends keeps its staged mark; its outcome will be applied as for an IDLE group (R178). -/
def FrameBuild.outlive (f : FrameBuild) : FrameBuild := { f with swapEnded := f.swapEnded || f.stagedCandidate }

/-- The frame of a lane as the swap of these members ends. -/
def Lane.outlive (panels : List PanelId) (n : Lane) : Lane :=
  if n.panel.any (fun p => decide (p ∈ panels)) then { n with frame := n.frame.map FrameBuild.outlive } else n

/-- The staged candidates still in a lane as the swap of these members ends (R178, log 36). -/
def Works.outlive (panels : List PanelId) (w : Works) : Works := { w with lanes := mapTable (Lane.outlive panels) w.lanes }

/-- The expected panels that are still members as the swap ends: PANEL_REMOVE takes a panel out of the members (R82, R176),
and what a panel defined anew has in a lane may be a candidate of another group's swap, which R178 does not speak of. -/
def Swap.membersLeft (members : List PanelId) (s : Swap) : List PanelId := s.expected.filter (fun p => decide (p ∈ members))

/-- The group returned to IDLE, its swap discarded (R177 step 3); the staged candidates that its members leave in a lane are
none of a later swap (R178). -/
def Delivery.endSwap (g : GroupId) (s : Swap) (d : Delivery) : Delivery :=
  (d.mapGroup g (fun r => { r with swap := none })).mapWorks (Works.outlive (s.membersLeft d.groups[g].members))

/-- The check for completion (R177). -/
def Delivery.checkSwap (b : Board) (g : GroupId) (d : Delivery) : Delivery :=
  match d.groups[g].swap with
  | none => d
  | some s => if s.isComplete then (d.showSwap b s).endSwap g s else d

/-- A member joins the dropped set and loses its staged record (R176). -/
def Swap.dropMember (p : PanelId) (s : Swap) : Swap :=
  { s with dropped := insertNumber p s.dropped, staged := s.staged.filter (fun r => decide (r.panel ≠ p)) }

/-- The panel is an expected member of an ARMED group and has not dropped out. -/
def Group.mayDrop (p : PanelId) (g : Group) : Bool :=
  match g.swap with
  | none => false
  | some s => decide (p ∈ s.expected) && !decide (p ∈ s.dropped)

/-- An event that drops an expected member out of its swap, and the check that follows (R176). -/
def Delivery.dropOut (b : Board) (p : PanelId) (d : Delivery) : Delivery :=
  match (List.finRange 8).find? (fun g => d.groups[g].mayDrop p) with
  | none => d
  | some g => (d.mapGroup g (fun r => { r with swap := r.swap.map (Swap.dropMember p) })).checkSwap b g

/-- An event that drops several members out of their swaps at once (R95, R177): every one joins the dropped set of its
group, and each group touched is then checked, by rising number. -/
def Delivery.dropOutAll (b : Board) (panels : List PanelId) (d : Delivery) : Delivery :=
  let leaves (g : Group) : List PanelId := panels.filter (fun p => g.mayDrop p)
  let mark (g : Group) : Group := { g with swap := g.swap.map (fun s => (leaves g).foldl (fun s p => s.dropMember p) s) }
  let touched := (List.finRange 8).filter (fun g => !(leaves d.groups[g]).isEmpty)
  touched.foldl (fun d g => d.checkSwap b g) { d with groups := mapTable mark d.groups }

/-- An arrival stored as the member's staged record, and the check that follows (R175). -/
def Delivery.arrive (b : Board) (g : GroupId) (r : StagedRecord) (d : Delivery) : Delivery :=
  (d.mapGroup g (fun k => { k with swap := k.swap.map (fun s => { s with staged := s.staged ++ [r] }) })).checkSwap b g

/-! ## Wake causes (R85) -/

/-- A cause raised on a panel; URGENT drops an expected member out of its swap (R85, R176). -/
def Delivery.raise (b : Board) (cause : Cause) (d : Delivery) (p : PanelId) : Delivery :=
  match d.works.panels[p] with
  | none => d
  | some q =>
    let d' := d.mapWorks (Works.setPanel p (q.gain cause))
    if cause = .urgent then d'.dropOut b p else d'

/-- A cause raised on the defined panels that pass a test, by rising panel number. -/
def Delivery.raiseWhere (b : Board) (cause : Cause) (test : Panel → Bool) (d : Delivery) : Delivery :=
  ((d.works.panelList.filter (fun x => test x.2)).map (fun x => x.1)).foldl (Delivery.raise b cause) d

/-- The panel draws some placard that passes a test (R46). -/
def Board.draws (b : Board) (test : Placard → Bool) (q : Panel) : Bool :=
  b.present.any (fun pl => test pl && pl.drawnOn q)

/-- The interest of a panel record recomputed (R60). -/
def Panel.refreshInterest (b : Board) (q : Panel) : Panel := { q with interest := b.interestOf q }

/-- The interest recomputed of the defined panels that pass a test (R60). -/
def Works.recomputeInterest (b : Board) (test : Panel → Bool) (w : Works) : Works :=
  { w with panels := mapTable (Option.map (fun q => if test q then q.refreshInterest b else q)) w.panels }

end Sys2Proof.Machine
end

