-- ==== Sys2Proof/Machine/Scheduling.lean ====
section
/-! DEFINITION. Lane scheduling (chapter 6): eligibility, lane and pair choice, service, the three steps of a selection,
preemption, the pair claim, and the selections that follow a command. -/

namespace Sys2Proof.Machine

/-! ## Lanes and pairs (R96, R97) -/

/-- One lane record changed. -/
def Works.mapLane (n : LaneId) (f : Lane → Lane) (w : Works) : Works := { w with lanes := modifyAt n f w.lanes }

/-- The pair of a lane. -/
def pairOf (n : LaneId) : Fin 4 := ⟨n.val / 2, by omega⟩
/-- The even lane of a pair. -/
def evenLane (k : Fin 4) : LaneId := ⟨2 * k.val, by omega⟩
/-- The odd lane of a pair. -/
def oddLane (k : Fin 4) : LaneId := ⟨2 * k.val + 1, by omega⟩

/-- The lane that holds the work causes and the frame under construction: the even lane of a pair that serves a WIDE
panel, else the lane itself (R97, R149). -/
def Works.holder (w : Works) (n : LaneId) : LaneId :=
  match w.lanes[n].partner with
  | none => n
  | some _ => evenLane (pairOf n)

/-- The lane serves its panel: LOADING or WORKING (R97). -/
def Lane.serves (n : Lane) : Bool := decide (n.state = .loading ∨ n.state = .working)

/-- The lane may be given a panel: FREE or RESIDENT (R97). -/
def Lane.open (n : Lane) : Bool := decide (n.state = .free ∨ n.state = .resident)

/-- The lane is RESIDENT with the context of the panel. -/
def Lane.residentFor (p : PanelId) (n : Lane) : Bool := decide (n.state = .resident ∧ n.panel = some p)

/-- The lane serves an urgent panel (R97). -/
def Works.servesUrgent (w : Works) (n : LaneId) : Bool :=
  w.lanes[n].serves && w.lanes[w.holder n].work.has .urgent

/-- The lane serves a panel that is not urgent. -/
def Works.servesPlain (w : Works) (n : LaneId) : Bool :=
  w.lanes[n].serves && !w.lanes[w.holder n].work.has .urgent

/-- The lanes that serve a panel. -/
def Works.lanesServing (w : Works) (p : PanelId) : List LaneId :=
  (List.finRange 8).filter (fun n => w.lanes[n].serves && decide (w.lanes[n].panel = some p))

/-- The lane is of the claimed pair (R106). -/
def Works.inClaimedPair (w : Works) (n : LaneId) : Bool :=
  match w.rotation.claim with
  | none => false
  | some x => decide (x.pair = pairOf n)

/-- A CLAIMED lane: no context, no panel (R97). -/
def Lane.claimed : Lane := { Lane.free with state := .claimed }

/-- A lane lets everything go: FREE, or CLAIMED in a claimed pair (R106). -/
def Works.freeLane (w : Works) (n : LaneId) : Works :=
  w.mapLane n (fun _ => if w.inClaimedPair n then Lane.claimed else Lane.free)

/-- A lane keeps its panel's context alone: RESIDENT, or CLAIMED in a claimed pair (R106, R112, R117). -/
def Works.residentLane (w : Works) (n : LaneId) : Works :=
  w.mapLane n (fun k =>
    if w.inClaimedPair n then Lane.claimed
    else { Lane.free with state := .resident, panel := k.panel, partner := k.partner, context := k.context })

/-- The resident contexts of a panel dropped, their lanes FREE (R108, R116, R117). -/
def Works.dropResident (p : PanelId) (w : Works) : Works :=
  { w with lanes := mapTable (fun n => if n.residentFor p then Lane.free else n) w.lanes }

/-- The pass count of a panel number. -/
def Works.setPasses (p : PanelId) (v : Nat) (w : Works) : Works :=
  { w with rotation := { w.rotation with passes := w.rotation.passes.set p v } }

/-- The pair claim ends: each CLAIMED lane becomes FREE (R106). -/
def Works.endClaim (w : Works) : Works :=
  { w with
    rotation := { w.rotation with claim := none }
    lanes := mapTable (fun n => if n.state = .claimed then Lane.free else n) w.lanes }

/-- The pair claim ends if the panel holds it, and the panel's pass count is 0 (R106). -/
def Works.endClaimOf (p : PanelId) (w : Works) : Works :=
  match w.rotation.claim with
  | none => w
  | some x => if x.panel = p then w.endClaim.setPasses p 0 else w

/-! ## Eligibility (R98) -/

/-- The panel is deferred by an armed swap group (R174), its wake set without URGENT. -/
def deferred (gs : Vector Group 8) (p : PanelId) (q : Panel) : Bool :=
  gs.toList.any (fun g => g.swap.isSome && decide (p ∈ g.members)) && !q.wake.has .stage

/-- The link takes a reservation: IDLE, with no due probe waiting for a SHOW to end (R98, R167). -/
def Works.linkOpen (w : Works) (l : LinkId) : Bool :=
  decide (w.links[l].state = .idle) && !(decide (w.links[l].line = .show) && (w.dueProbe l).isSome)

/-- The panel is eligible for selection (R98). -/
def eligible (c : Content) (gs : Vector Group 8) (w : Works) (p : PanelId) : Bool :=
  match w.panels[p] with
  | none => false
  | some q =>
    decide (q.state = .ready) && q.holdoff.isNone && w.linkOpen q.link &&
      (q.wake.has .urgent || (!c.frozen q && !deferred gs p q))

/-- The panel's wake set holds URGENT. -/
def Works.urgent (w : Works) (p : PanelId) : Bool :=
  match w.panels[p] with
  | none => false
  | some q => q.wake.has .urgent

/-! ## Lane choice and pair choice (R103, R104) -/

/-- The lowest-numbered lane that passes a test. -/
def Works.lowestLane (w : Works) (test : Lane → Bool) : Option LaneId :=
  (List.finRange 8).find? (fun n => test w.lanes[n])

/-- The lane for a LINE or ROWS panel (R103). -/
def Works.chooseLane (w : Works) (p : PanelId) : Option LaneId :=
  match w.lowestLane (Lane.residentFor p) with
  | some n => some n
  | none =>
    match w.lowestLane (fun n => decide (n.state = .free)) with
    | some n => some n
    | none => w.lowestLane (fun n => decide (n.state = .resident))

/-- The lowest pair whose two lanes pass a test. -/
def lowestPair (test : LaneId → Bool) : Option (Fin 4) :=
  (List.finRange 4).find? (fun k => test (evenLane k) && test (oddLane k))

/-- The pair for a WIDE panel (R104). -/
def Works.choosePair (w : Works) (p : PanelId) : Option (Fin 4) :=
  match lowestPair (fun n => w.lanes[n].residentFor p) with
  | some k => some k
  | none =>
    match lowestPair (fun n => decide (w.lanes[n].state = .free)) with
    | some k => some k
    | none => lowestPair (fun n => w.lanes[n].open)

/-! ## Service (R107 to R110, R162) -/

/-- The copy of a panel's context (R108). -/
def Panel.context (p : PanelId) (q : Panel) : Context :=
  ⟨p, q.cls, q.width, q.height, q.link, q.drop, q.stripCount, q.ack, q.fullDemand⟩

/-- The frame under construction as a lane enters WORKING (R110, R149): a staged candidate when the work causes hold STAGE
and the panel's group awaits it. MODEL'S CHOICE (log 32): so is the frame of a member that held URGENT already when its
group was armed, which no drop-out has taken out of the swap. -/
def newFrame (generation : Nat) (gs : Vector Group 8) (p : PanelId) (work : CauseSet) : FrameBuild :=
  ⟨generation, work.has .stage && (awaitingGroup gs p).isSome, false, [], [], true, false⟩

/-- A lane enters WORKING (R110). The frame under construction is held by the lane of the work causes. -/
def Lane.startWorking (frame : Option FrameBuild) (n : Lane) : Lane :=
  { n with state := .working, nextStrip := 0, frame := frame, buffer := [], composed := false, unwritten := [] }

/-- The link takes the reservation of a panel (R162). -/
def Link.reserve (p : PanelId) (q : Panel) (k : Link) : Link :=
  { k with
    state := .reserved
    fifo := []
    frame := some ⟨p, q.drop, none, [], 0, 0, false, false, false, false, false⟩ }

/-- The panel table hands its wake set over, and the panel becomes LOADED (R86). -/
def Panel.load (q : Panel) : Panel := { q with state := .loaded, wake := CauseSet.none }

/-- One lane given to a panel (R107 steps 2 to 4): WORKING when it was RESIDENT with the panel's context, else LOADING.
MODEL'S CHOICE (log 31): a lane taken out of a pair RESIDENT with a WIDE panel drops its own context alone, and the other
lane of that pair stays RESIDENT. -/
def serveLane (p : PanelId) (partner : Option LaneId) (work : CauseSet) (frame : Option FrameBuild) (resident : Bool)
    (n : Lane) : Lane :=
  if resident then Lane.startWorking frame { n with panel := some p, partner := partner, work := work }
  else { Lane.free with state := .loading, panel := some p, partner := partner, work := work }

/-- A panel served with one lane (R107). -/
def Works.serveSingle (c : Content) (gs : Vector Group 8) (p : PanelId) (q : Panel) (n : LaneId) (w : Works) : Works :=
  let frame := newFrame c.board.generation gs p q.wake
  ((w.setLink q.link (w.links[q.link].reserve p q)).setPanel p q.load).mapLane n
    (serveLane p none q.wake (some frame) (w.lanes[n].residentFor p))

/-- A WIDE panel served with a pair (R107): its pass count is 0, and a claim it held ends (R100, R104, R106). -/
def Works.servePair (c : Content) (gs : Vector Group 8) (p : PanelId) (q : Panel) (k : Fin 4) (w : Works) : Works :=
  let w := (w.endClaimOf p).setPasses p 0
  let e := evenLane k
  let o := oddLane k
  let resident := w.lanes[e].residentFor p && w.lanes[o].residentFor p
  let frame := newFrame c.board.generation gs p q.wake
  (((w.setLink q.link (w.links[q.link].reserve p q)).setPanel p q.load).mapLane e
    (serveLane p (some o) q.wake (some frame) resident)).mapLane o (serveLane p (some e) CauseSet.none none resident)

/-! ## Preemption (R114, R115) -/

/-- A panel's lanes stopped and its frame let go; the panel READY with the work causes merged back (R86, R115). -/
def Works.preempt (p : PanelId) (w : Works) : Works :=
  match w.panels[p] with
  | none => w
  | some q =>
    let lanes := w.lanesServing p
    let work := (lanes.map (fun n => w.lanes[n].work)).foldl CauseSet.union CauseSet.none
    let w' := w.dropFrame q.link
    lanes.foldl Works.freeLane (w'.setPanel p { q with state := .ready, wake := q.wake.union work })

/-- The panel that a lane serves is preempted. -/
def Works.preemptLane (w : Works) (n : LaneId) : Works :=
  if w.lanes[n].serves then
    match w.lanes[n].panel with
    | none => w
    | some p => w.preempt p
  else w

/-- The lane that a LINE or ROWS urgent panel preempts (R114). -/
def Works.targetLane (w : Works) : Option LaneId :=
  match (List.finRange 8).find? (fun n => decide (w.lanes[n].state = .loading) && w.servesPlain n) with
  | some n => some n
  | none => (List.finRange 8).find? (fun n => decide (w.lanes[n].state = .working) && w.servesPlain n)

/-- The pair that a WIDE urgent panel preempts (R114). -/
def Works.targetPair (w : Works) : Option (Fin 4) :=
  let usable (n : LaneId) : Bool := w.lanes[n].open || w.servesPlain n
  match lowestPair (fun n => usable n && decide (w.lanes[n].state ≠ .working)) with
  | some k => some k
  | none => lowestPair usable

/-! ## The urgent step (R100) -/

/-- An urgent panel obtains a lane or a pair, directly or by preemption. -/
def Works.serveUrgent (c : Content) (gs : Vector Group 8) (p : PanelId) (w : Works) : Option Works :=
  match w.panels[p] with
  | none => none
  | some q =>
    match q.cls with
    | .wide =>
      match w.choosePair p with
      | some k => some (w.servePair c gs p q k)
      | none => (w.targetPair).map (fun k =>
          ((w.preemptLane (evenLane k)).preemptLane (oddLane k)).servePair c gs p q k)
    | .line | .rows =>
      match w.chooseLane p with
      | some n => some (w.serveSingle c gs p q n)
      | none => (w.targetLane).map (fun n => (w.preemptLane n).serveSingle c gs p q n)

/-- The urgent step: the first eligible urgent panel after the urgent pointer that obtains lanes is served (R100). -/
def Works.urgentStep (c : Content) (gs : Vector Group 8) (w : Works) : Option Works :=
  (cycleFrom 64 (w.rotation.urgent.val + 1)).findSome? (fun p =>
    if w.urgent p && eligible c gs w p then
      (w.serveUrgent c gs p).map (fun w' => { w' with rotation := { w'.rotation with urgent := p } })
    else none)

/-! ## The rotation (R101, R102, R104, R105) -/

/-- The defined panels of a level, ascending. -/
def Works.ofLevel (w : Works) (level : Nat) : List PanelId :=
  (w.panelList.filter (fun x => decide (x.2.level = level))).map (fun x => x.1)

/-- The first-level cycle, once round from the first-level pointer (R101). -/
def Works.firstCycle (w : Works) : List FirstPointer :=
  let level1 := w.ofLevel 1
  match w.rotation.first with
  | .slot => .slot :: level1.map .panel
  | .panel k =>
    (level1.filter (fun p => decide (k ≤ p))).map .panel ++ .slot ::
      (level1.filter (fun p => decide (p < k))).map .panel

/-- The level-2 panels, once round from the second-level pointer (R101). -/
def Works.secondCycle (w : Works) : List PanelId :=
  let level2 := w.ofLevel 2
  level2.filter (fun p => decide (w.rotation.second ≤ p)) ++ level2.filter (fun p => decide (p < w.rotation.second))

/-- The position of the first-level cycle after a level-1 panel. -/
def Works.afterPanel (w : Works) (p : PanelId) : FirstPointer :=
  match (w.ofLevel 1).find? (fun x => decide (p < x)) with
  | some x => .panel x
  | none => .slot

/-- The position of the first-level cycle after the second-level slot. -/
def Works.afterSlot (w : Works) : FirstPointer :=
  match (w.ofLevel 1).head? with
  | some x => .panel x
  | none => .slot

/-- The next level-2 panel in ascending order, wrapping. -/
def Works.afterSecond (w : Works) (p : PanelId) : PanelId :=
  match (w.ofLevel 2).find? (fun x => decide (p < x)) with
  | some x => x
  | none => ((w.ofLevel 2).head?).getD p

/-- The pointers after a panel is served by the rotation, the table of R102. -/
def Works.movePointers (p : PanelId) (level : Nat) (w : Works) : Works :=
  if level = 1 then { w with rotation := { w.rotation with first := w.afterPanel p } }
  else { w with rotation := { w.rotation with first := w.afterSlot, second := w.afterSecond p } }

/-- A pair claim placed for a WIDE panel: the lowest pair in which no lane serves an urgent panel (R105). -/
def Works.placeClaim (p : PanelId) (w : Works) : Works :=
  match lowestPair (fun n => !w.servesUrgent n) with
  | none => w
  | some k =>
    let claim (n : Lane) : Lane := if n.open then Lane.claimed else n
    (({ w with rotation := { w.rotation with claim := some ⟨p, k⟩ } } : Works).mapLane (evenLane k) claim).mapLane
      (oddLane k) claim

/-- A WIDE panel passed over: its pass count rises to at most 4, and at 4 it places a claim if none exists (R104, R105). -/
def Works.passOver (p : PanelId) (w : Works) : Works :=
  let v := min 4 (w.rotation.passes[p] + 1)
  let w := w.setPasses p v
  if v = 4 ∧ w.rotation.claim = none then w.placeClaim p else w

/-- What the rotation step finds at a panel. -/
inductive Visit where
  /-- Not eligible, urgent, or without a lane: skipped. -/
  | skipped
  /-- An eligible WIDE panel that keeps its place. -/
  | passed (w : Works)
  | served (w : Works)

/-- The panel holds the pair claim. -/
def Works.holdsClaim (w : Works) (p : PanelId) : Bool :=
  match w.rotation.claim with
  | none => false
  | some x => decide (x.panel = p)

/-- The rotation step at one panel (R101). -/
def visitPanel (c : Content) (gs : Vector Group 8) (w : Works) (p : PanelId) : Visit :=
  match w.panels[p] with
  | none => .skipped
  | some q =>
    if !eligible c gs w p || q.wake.has .urgent then .skipped
    else if w.holdsClaim p then .passed w
    else
      match q.cls with
      | .wide =>
        match w.choosePair p with
        | some k => .served (w.servePair c gs p q k)
        | none => .passed (w.passOver p)
      | .line | .rows =>
        match w.chooseLane p with
        | some n => .served (w.serveSingle c gs p q n)
        | none => .skipped

/-- How a walk ended: the works, the panel served, and the first WIDE panel met and not served. -/
structure Walk where
  works : Works
  served : Option PanelId
  met : Option PanelId

/-- The walk over the level-2 panels at the slot. -/
def walkSecond (c : Content) (gs : Vector Group 8) : List PanelId → Option PanelId → Works → Walk
  | [], met, w => ⟨w, none, met⟩
  | p :: ps, met, w =>
    match visitPanel c gs w p with
    | .skipped => walkSecond c gs ps met w
    | .passed w' => walkSecond c gs ps (met.orElse (fun _ => some p)) w'
    | .served w' => ⟨w', some p, met⟩

/-- A pointer moves to the first WIDE panel met, in place of where the table puts it (R102). -/
def Works.keepPlace (first : Option FirstPointer) (second : Option PanelId) (w : Works) : Works :=
  { w with rotation := { w.rotation with
      first := first.getD w.rotation.first
      second := second.getD w.rotation.second } }

/-- The walk over the first-level cycle (R101, R102). `first` and `second` are the first positions of each level at which
a WIDE panel was met and not served. The Bool says whether a panel was served. -/
def walkFirst (c : Content) (gs : Vector Group 8) :
    List FirstPointer → Option FirstPointer → Option PanelId → Works → Works × Bool
  | [], first, second, w => (w.keepPlace first second, false)
  | .panel p :: rest, first, second, w =>
    match visitPanel c gs w p with
    | .skipped => walkFirst c gs rest first second w
    | .passed w' => walkFirst c gs rest (first.orElse (fun _ => some (.panel p))) second w'
    | .served w' => ((w'.movePointers p 1).keepPlace first second, true)
  | .slot :: rest, first, second, w =>
    let r := walkSecond c gs w.secondCycle none w
    let first := first.orElse (fun _ => r.met.map (fun _ => .slot))
    match r.served with
    | some p => ((r.works.movePointers p 2).keepPlace first r.met, true)
    | none => walkFirst c gs rest first (second.orElse (fun _ => r.met)) r.works

/-- The rotation step (R101): it runs when at least one lane is FREE or RESIDENT. -/
def Works.rotationStep (c : Content) (gs : Vector Group 8) (w : Works) : Works × Bool :=
  if w.lanes.toList.any Lane.open then walkFirst c gs w.firstCycle none none w else (w, false)

/-! ## The claim step and selections (R99, R106) -/

/-- The pointer of the panel's level moves as if the rotation step had served the panel: the first-level pointer, or the
second-level pointer for a level-2 panel (R106). MODEL'S CHOICES (log 5): the other pointer stays; and the pointer moves to
the position after the claim's panel though another eligible WIDE panel keeps its place at it (R102). -/
def Works.moveClaimPointer (p : PanelId) (level : Nat) (w : Works) : Works :=
  if level = 1 then { w with rotation := { w.rotation with first := w.afterPanel p } }
  else { w with rotation := { w.rotation with second := w.afterSecond p } }

/-- The claim step: both lanes CLAIMED and the claim's panel eligible, it is served with the pair (R106). -/
def Works.claimStep (c : Content) (gs : Vector Group 8) (w : Works) : Option Works :=
  match w.rotation.claim with
  | none => none
  | some x =>
    match w.panels[x.panel] with
    | none => none
    | some q =>
      if w.lanes[evenLane x.pair].state = .claimed ∧ w.lanes[oddLane x.pair].state = .claimed ∧
          eligible c gs w x.panel then
        some ((w.servePair c gs x.panel q x.pair).moveClaimPointer x.panel q.level)
      else none

/-- One selection: claim step, urgent step, rotation step (R99). The Bool says whether a panel was served. -/
def Works.selection (c : Content) (gs : Vector Group 8) (w : Works) : Works × Bool :=
  match w.claimStep c gs with
  | some w' => (w', true)
  | none =>
    match w.urgentStep c gs with
    | some w' => (w', true)
    | none => w.rotationStep c gs

/-- The lane states that trigger a selection when a lane takes them (R99). -/
def LaneState.triggers (s : LaneState) : Bool := decide (s = .free ∨ s = .resident ∨ s = .claimed)

/-- The lanes that became FREE, RESIDENT or CLAIMED. -/
def laneTriggers (before after : Works) : Nat :=
  ((before.lanes.toList.zip after.lanes.toList).filter (fun x =>
    x.2.state.triggers && decide (x.1.state ≠ x.2.state))).length

/-- The panels that became eligible, or eligible with URGENT (R99, log 5). -/
def panelTriggers (c c' : Content) (gs gs' : Vector Group 8) (before after : Works) : Nat :=
  ((List.finRange 64).filter (fun p =>
    eligible c' gs' after p &&
      (!eligible c gs before p || (after.urgent p && !before.urgent p)))).length

/-- A claim that ended while no lane became FREE, RESIDENT or CLAIMED: its end is a trigger of its own (R106). Where lanes
did, those are the triggers. -/
def claimTriggers (before after : Works) : Nat :=
  if before.rotation.claim.isSome && after.rotation.claim.isNone && decide (laneTriggers before after = 0) then 1 else 0

/-- The selections that a number of triggers lead to (R99): one that serves a panel is followed at once by another, and
what a selection frees or makes eligible triggers further ones. The first argument bounds their number. -/
def runSelections (c : Content) (gs : Vector Group 8) : Nat → Nat → Works → Works
  | 0, _, w => w
  | _ + 1, 0, w => w
  | fuel + 1, due + 1, w =>
    let r := w.selection c gs
    let more := laneTriggers w r.1 + panelTriggers c c gs gs w r.1
    runSelections c gs fuel (due + cond r.2 1 0 + more) r.1

/-- The bound on the selections within one command: more than can be triggered (log 5). -/
def selectionBound : Nat := 1000

/-- The selections that a command's changes trigger (R99, R106). -/
def settleDelivery (c : Content) (d : Delivery) (c' : Content) (d' : Delivery) : Delivery :=
  let due := laneTriggers d.works d'.works + panelTriggers c c' d.groups d'.groups d.works d'.works +
    claimTriggers d.works d'.works
  { d' with works := runSelections c' d'.groups selectionBound due d'.works }

/-! ## Commands: events and requests -/

/-- What a command answers. -/
abbrev Answer := Host.Outcome State Fault Refusal

/-- An event of the delivery side and the selections it triggers. -/
def event (f : Content → Delivery → Delivery) (s : State) : Answer :=
  .next { s with delivery := settleDelivery s.content s.delivery s.content (f s.content s.delivery) }

/-- An event of the content side, with what it does to the delivery side and the selections it triggers. -/
def contentEvent (f : Content → Delivery → Content × Delivery) (s : State) : Answer :=
  let r := f s.content s.delivery
  .next { s with content := r.1, delivery := settleDelivery s.content s.delivery r.1 r.2 }

/-- The port takes this request: no request being executed, no completion waiting, a response slot free (R184), and the
request is the oldest of its queue, or the queue is empty and the request reaches the port with the command (log 1). -/
def Port.takes (i : Instr) (pt : Port) : Bool :=
  !pt.reserved && pt.waiting.isEmpty && pt.slotFree &&
    (pt.requests.isEmpty || decide (pt.requests.head? = some i))

/-- The request taken from the queue and a response slot reserved (R184). -/
def Port.startRequest (pt : Port) : Port := { pt with requests := pt.requests.tail, reserved := true }

/-- The frame of the response to a request (section 13.1). -/
def responseFrame (i : Instr) (r : Reply) : Frame :=
  ⟨0x01, BitVec.ofNat 8 i.kindCode, r.status.code, i.tagByte, r.body⟩

/-- The response placed in the reserved slot; completions fixed meanwhile are then offered (R184). -/
def Port.finishRequest (i : Instr) (r : Reply) (pt : Port) : Port :=
  Port.drain { pt with responses := pt.responses ++ [responseFrame i r], reserved := false }

/-- A request executed by a port (R184): its block takes it whole, its outcome fixes the response, and the selections it
triggers follow. When the port does not take it, nothing changes. -/
def request (p : PortId) (i : Instr) (f : Content → Delivery → Content × Delivery × Reply) (s : State) : Answer :=
  if s.delivery.ports[p].takes i then
    let r := f s.content (s.delivery.mapPort p Port.startRequest)
    .next { s with
      content := r.1
      delivery := settleDelivery s.content s.delivery r.1 (r.2.1.mapPort p (Port.finishRequest i r.2.2)) }
  else .next s

/-- A request that changes no block: the port answers. -/
def query (p : PortId) (i : Instr) (f : Content → Delivery → Reply) (s : State) : Answer :=
  request p i (fun c d => (c, d, f c d)) s

/-- A supervisor request: DENIED from a FEED port before any other check (R181). -/
def supervised (p : PortId) (f : Content → Delivery → Content × Delivery × Reply) (c : Content) (d : Delivery) :
    Content × Delivery × Reply :=
  match d.ports[p].rank with
  | .feed => (c, d, refuse .denied)
  | .supervisor => f c d

/-- The port's checks of the tag of a split request, before the owning block sees it (R185). -/
def taggedRequest (p : PortId) (tag : Nat) (f : Tag → Content → Delivery → Content × Delivery × Reply) (c : Content)
    (d : Delivery) : Content × Delivery × Reply :=
  match index? 16 tag with
  | none => (c, d, refuse .badValue)
  | some t => if d.ports[p].tags[t] = .free then f t c d else (c, d, refuse .tagInUse)

end Sys2Proof.Machine
end

