-- ==== Sys2Proof/Machine/Groups.lean ====
section
/-! DEFINITION. Swap groups (chapter 11): setting up, arming, reading, and the deadline. Arrivals, drop-outs and completion
are in Machine/Ops.lean. -/

namespace Sys2Proof.Machine

/-! ## Arming (R173) -/

/-- The expected set at arming: the members that are online (R173 step 2). -/
def Works.onlineMembers (w : Works) (members : List PanelId) : List PanelId :=
  members.filter (fun p => (w.panels[p]).any Panel.online)

/-- The swap of a group as it is armed (R173 steps 1 to 3). -/
def newSwap (source : ArmSource) (w : Works) (g : Group) : Swap :=
  ⟨source, w.onlineMembers g.members, [], [], w.now + 100 * g.setting⟩

/-- An arming reaches a group: an IDLE one is armed, an ARMED one is unchanged (R173). -/
def Delivery.arm (b : Board) (source : ArmSource) (g : GroupId) (d : Delivery) : Delivery :=
  match d.groups[g].swap with
  | some _ => d
  | none =>
    let swap := newSwap source d.works d.groups[g]
    let d1 := d.mapGroup g (fun r => { r with swap := some swap })
    (swap.expected.foldl (Delivery.raise b .stage) d1).checkSwap b g

/-- The code of a group's state. -/
def Group.stateCode (g : Group) : Byte := if g.swap.isSome then 1 else 0

/-- What a GROUP_ARM does (R173). -/
def armRequest (p : PortId) (group : Nat) (c : Content) (d : Delivery) : Content × Delivery × Reply :=
  match index? 8 group with
  | none => (c, d, refuse .badValue)
  | some g =>
    if d.groups[g].members.isEmpty then (c, d, refuse .state)
    else if d.groups[g].swap.isSome then (c, d, refuse .busy)
    else
      let d1 := d.arm c.board (.port p) g
      (c, d1, okWith (b1 (d.works.onlineMembers d.groups[g].members).length ++ [d1.groups[g].stateCode]))

/-- GROUP_ARM (R173). -/
def execGroupArm (p : PortId) (group : Nat) (s : State) : Answer := request p (.groupArm p group) (armRequest p group) s

/-! ## GROUP_SETUP (R172) -/

/-- The panel numbers of a member list; none when one is above 63. -/
def membersOf : List Nat → Option (List PanelId)
  | [] => some []
  | v :: vs =>
    match index? 64 v, membersOf vs with
    | some p, some ps => some (insertNumber p ps)
    | _, _ => none

/-- The panel belongs to another group. -/
def Delivery.inOtherGroup (d : Delivery) (g : GroupId) (p : PanelId) : Bool :=
  (List.finRange 8).any (fun k => decide (k ≠ g) && decide (p ∈ d.groups[k].members))

/-- What a GROUP_SETUP does (R172); the rank is checked before. -/
def setupGroup (group : Nat) (members : List Nat) (deadline : Nat) (c : Content) (d : Delivery) :
    Content × Delivery × Reply :=
  match index? 8 group, membersOf members with
  | some g, some ps =>
    if 16 < members.length then (c, d, refuse .badValue)
    else if d.groups[g].swap.isSome then (c, d, refuse .state)
    else if ps.any (d.inOtherGroup g) then (c, d, refuse .inUse)
    else
      let setting := clampTo 1 100 deadline
      (c, d.mapGroup g (fun _ => ⟨ps, setting, none⟩), okWith (bList b1 (ps.map Fin.val) ++ b1 setting))
  | _, _ => (c, d, refuse .badValue)

/-- GROUP_SETUP (R172). -/
def execGroupSetup (p : PortId) (group : Nat) (members : List Nat) (deadline : Nat) (s : State) : Answer :=
  request p (.groupSetup p group members deadline) (supervised p (setupGroup group members deadline)) s

/-! ## GROUP_READ (R179) -/

/-- An arming source: a port, or 04h for HOLD (chapter 13). -/
def ArmSource.bytes : ArmSource → List Byte
  | .port p => b1 p.val
  | .hold => b1 4

/-- A list of panel numbers. -/
def panelBytes (ps : List PanelId) : List Byte := bList b1 (ps.map Fin.val)

/-- A group as GROUP_READ returns it (R179, log 9); the arrived set ascending, as the expected set is. MODEL'S CHOICE
(log 33): the fields present in ARMED alone follow the state, which tells that they are there, and no presence byte. -/
def Group.bytes (now : Nat) (g : Group) : List Byte :=
  [g.stateCode] ++ panelBytes g.members ++ b1 g.setting ++
    match g.swap with
    | none => []
    | some s =>
      s.source.bytes ++ panelBytes s.expected ++ panelBytes (s.expected.filter (fun p => decide (p ∈ s.arrived))) ++
        panelBytes s.dropped ++ b4 (timeLeft now s.deadline)

/-- What a GROUP_READ answers (R179). -/
def readGroup (group : Nat) (d : Delivery) : Reply :=
  match index? 8 group with
  | none => refuse .badValue
  | some g => okWith (d.groups[g].bytes d.works.now)

/-- GROUP_READ (R179). -/
def execGroupRead (p : PortId) (group : Nat) (s : State) : Answer :=
  query p (.groupRead p group) (fun _ d => readGroup group d) s

/-! ## GROUP_DEADLINE (R178) -/

/-- The members of the expected set that have not arrived, drop-outs included (R178 step 2). -/
def Swap.missing (s : Swap) : List PanelId := s.expected.filter (fun p => !decide (p ∈ s.arrived))

/-- SWAP_INCOMPLETE in the arming port, or in every port when a hold armed the group (R178 step 3). -/
def Delivery.notifyIncomplete (g : GroupId) (s : Swap) (d : Delivery) : Delivery :=
  match s.source with
  | .port p => d.notify (.swapIncomplete g s.missing.length) p
  | .hold => d.notifyAll (.swapIncomplete g s.missing.length)

/-- The deadline of a swap in progress is reached (R178). -/
def Delivery.lapseSwap (b : Board) (g : GroupId) (s : Swap) (d : Delivery) : Delivery :=
  (s.missing.foldl (Delivery.raise b .content) ((d.showSwap b s).notifyIncomplete g s)).endSwap g s

/-- GROUP_DEADLINE (R178). -/
def execGroupDeadline (g : GroupId) (s : State) : Answer :=
  event (fun c d =>
    match d.groups[g].swap with
    | none => d
    | some k => (d.reach k.deadline).lapseSwap c.board g k) s

end Sys2Proof.Machine
end

