-- ==== Sys2Proof/Machine/Holds.lean ====
section
/-! DEFINITION. Holds (chapter 4): TAKE, RELEASE, HANDOVER, HOLD_SETUP, HOLD_READ, and the deadlines of holds and waiters. -/

namespace Sys2Proof.Machine

/-- One hold record written. -/
def Content.setHold (h : HoldId) (k : Hold) (c : Content) : Content := { c with holds := c.holds.set h k }

/-- The hold TAKEN by a port, its limit timer started (R67). -/
def Hold.grant (now : Nat) (p : PortId) (k : Hold) : Hold := { k with state := .taken p (now + 1000 * k.limit) }

/-- The waiters without a port. -/
def leaveQueue (p : PortId) (ws : List Waiter) : List Waiter := ws.filter (fun x => decide (x.port ≠ p))

/-- The completion of a waiting TAKE that is granted: hold and state TAKEN (R70, chapter 13). -/
def grantCompletion (h : HoldId) (x : Waiter) : Completion := ⟨x.tag, 0x40, .ok, b1 h.val ++ [0x01]⟩

/-! ## TAKE (R68, R69) -/

/-- A TAKE that finds the hold in the hands of another port: BUSY, or with a wait queued under its tag (R68, R69). -/
def queueTake (p : PortId) (h : HoldId) (owner : PortId) (wait : Option (Tag × Nat)) (c : Content) (d : Delivery) :
    Content × Delivery × Reply :=
  match wait with
  | none => (c, d, ⟨.busy, b1 owner.val⟩)
  | some (t, seconds) =>
    let k := c.holds[h]
    if k.waiters.any (fun x => decide (x.port = p)) then (c, d, refuse .inUse)
    else
      (c.setHold h { k with waiters := k.waiters ++ [⟨p, t, d.works.now + 1000 * seconds⟩] },
        d.mapPort p (fun pt => { pt with tags := pt.tags.set t (.take h) }), ⟨.accepted, []⟩)

/-- What a TAKE does (R68, R69); `wait` is its tag and its wait in seconds, none for no wait. -/
def takeHold (p : PortId) (hold : Nat) (wait : Option (Tag × Nat)) (c : Content) (d : Delivery) :
    Content × Delivery × Reply :=
  match index? 32 hold with
  | none => (c, d, refuse .badValue)
  | some h =>
    match c.holds[h].state with
    | .empty => (c.setHold h (c.holds[h].grant d.works.now p), d, okWith [0x01])
    | .taken owner _ => if owner = p then (c, d, okWith [0x01]) else queueTake p h owner wait c d
    | .handed owner heir _ =>
      if owner = p then (c, d, okWith [0x02])
      else if heir = p then (c.setHold h (c.holds[h].grant d.works.now p), d, okWith [0x01])
      else queueTake p h owner wait c d

/-- What a TAKE does: with a wait of 1 or more it is a split request, the wait clamped to 60 s (R69). -/
def takeRequest (p : PortId) (tag hold wait : Nat) : Content → Delivery → Content × Delivery × Reply :=
  if wait = 0 then takeHold p hold none
  else taggedRequest p tag (fun t => takeHold p hold (some (t, min 60 wait)))

/-- TAKE (R68, R69). -/
def execTake (p : PortId) (tag hold wait : Nat) (s : State) : Answer :=
  request p (.take p tag hold wait) (takeRequest p tag hold wait) s

/-! ## Release and its consequences (R71, R72) -/

/-- The placard is bound to a hold. -/
def Placard.boundTo (h : HoldId) (pl : Placard) : Bool := decide (pl.hold = some h)

/-- What a release does beyond the hold: arming first, then CONTENT on the panels that the hold froze (R72). -/
def releaseNeighbours (h : HoldId) (c : Content) (d : Delivery) : Delivery :=
  let d1 := match c.holds[h].group with
    | none => d
    | some g => d.arm c.board .hold g
  d1.raiseWhere c.board .content (fun q => c.board.present.any (fun pl => pl.boundTo h && pl.matchesPanel q))

/-- The hold let go: granted to the oldest waiter, or EMPTY (R71 steps 1 to 3), and its consequences (R72). -/
def releaseHold (h : HoldId) (c : Content) (d : Delivery) : Content × Delivery :=
  let k := c.holds[h]
  match k.waiters with
  | [] =>
    let c' := c.setHold h { k with state := .empty }
    (c', releaseNeighbours h c' d)
  | x :: xs =>
    let c' := c.setHold h ({ k with waiters := xs }.grant d.works.now x.port)
    (c', releaseNeighbours h c' (d.complete x.port (grantCompletion h x)))

/-- The owner of a hold. -/
def Hold.owner (k : Hold) : Option PortId :=
  match k.state with
  | .empty => none
  | .taken owner _ => some owner
  | .handed owner _ _ => some owner

/-- The heir of a HANDED hold. -/
def Hold.heir (k : Hold) : Option PortId :=
  match k.state with
  | .empty => none
  | .taken _ _ => none
  | .handed _ heir _ => some heir

/-- The limit deadline of a hold. -/
def Hold.deadline (k : Hold) : Option Nat :=
  match k.state with
  | .empty => none
  | .taken _ t => some t
  | .handed _ _ t => some t

/-- What a RELEASE does (R71). -/
def releaseRequest (p : PortId) (hold : Nat) (c : Content) (d : Delivery) : Content × Delivery × Reply :=
  match index? 32 hold with
  | none => (c, d, refuse .badValue)
  | some h =>
    if c.holds[h].owner ≠ some p then (c, d, refuse .notOwner)
    else
      let r := releaseHold h c d
      (r.1, r.2, okWith ([(r.1.holds[h]).state.code] ++ bPort (r.1.holds[h]).owner))

/-- RELEASE (R71). -/
def execRelease (p : PortId) (hold : Nat) (s : State) : Answer := request p (.release p hold) (releaseRequest p hold) s

/-! ## HANDOVER (R73) -/

/-- The hold handed to a port: granted at once when it waits, else HANDED with it as heir; the timer restarted (R73). -/
def handHold (p : PortId) (h : HoldId) (heir : PortId) (c : Content) (d : Delivery) : Content × Delivery :=
  let k := c.holds[h]
  match k.waiters.find? (fun x => decide (x.port = heir)) with
  | some x =>
    (c.setHold h ({ k with waiters := leaveQueue heir k.waiters }.grant d.works.now heir),
      d.complete heir (grantCompletion h x))
  | none => (c.setHold h { k with state := .handed p heir (d.works.now + 1000 * k.limit) }, d)

/-- What a HANDOVER does (R73, log 20). -/
def handoverRequest (p : PortId) (hold heir : Nat) (c : Content) (d : Delivery) : Content × Delivery × Reply :=
  match index? 32 hold, index? 4 heir with
  | some h, some q =>
    if c.holds[h].owner ≠ some p then (c, d, refuse .notOwner)
    else if q = p then (c, d, refuse .badValue)
    else
      let r := handHold p h q c d
      (r.1, r.2, okWith ([(r.1.holds[h]).state.code] ++ bPort (r.1.holds[h]).owner ++ bPort (r.1.holds[h]).heir))
  | _, _ => (c, d, refuse .badValue)

/-- HANDOVER (R73). -/
def execHandover (p : PortId) (hold heir : Nat) (s : State) : Answer :=
  request p (.handover p hold heir) (handoverRequest p hold heir) s

/-! ## HOLD_SETUP and HOLD_READ (R75, R76) -/

/-- The group a HOLD_SETUP names: FFh for none (chapter 13). -/
def boundGroupOf (group : Nat) : Option (Option GroupId) :=
  if group = 255 then some none else (index? 8 group).map some

/-- What a HOLD_SETUP does (R75). -/
def setupHold (hold limit group : Nat) (c : Content) (d : Delivery) : Content × Delivery × Reply :=
  match index? 32 hold, boundGroupOf group with
  | some h, some g =>
    if c.holds[h].state ≠ .empty then (c, d, refuse .state)
    else
      let stored := clampTo 1 120 limit
      (c.setHold h { c.holds[h] with limit := stored, group := g }, d, okWith (b1 stored ++ bGroup g))
  | _, _ => (c, d, refuse .badValue)

/-- HOLD_SETUP (R75). -/
def execHoldSetup (p : PortId) (hold limit group : Nat) (s : State) : Answer :=
  request p (.holdSetup p hold limit group) (supervised p (setupHold hold limit group)) s

/-- A hold as HOLD_READ returns it (R76, log 9). -/
def Hold.bytes (now : Nat) (k : Hold) : List Byte :=
  [k.state.code] ++ bOpt b1 (k.owner.map Fin.val) ++ bOpt b1 (k.heir.map Fin.val) ++ b1 k.limit ++
    bOpt b4 (k.deadline.map (timeLeft now)) ++ bGroup k.group ++ b1 k.waiters.length ++
    k.waiters.flatMap (fun x => b1 x.port.val ++ b4 (timeLeft now x.deadline))

/-- What a HOLD_READ answers (R76). -/
def readHold (hold : Nat) (c : Content) (now : Nat) : Reply :=
  match index? 32 hold with
  | none => refuse .badValue
  | some h => okWith (c.holds[h].bytes now)

/-- HOLD_READ (R76). -/
def execHoldRead (p : PortId) (hold : Nat) (s : State) : Answer :=
  query p (.holdRead p hold) (fun c d => readHold hold c d.works.now) s

/-! ## The deadlines (R70, R74) -/

/-- The limit expiry of a hold that has an owner (R74). -/
def expireHold (h : HoldId) (c : Content) (d : Delivery) : Content × Delivery :=
  match c.holds[h].owner, c.holds[h].deadline with
  | some owner, some t => releaseHold h c ((d.reach t).notify (.holdExpired h) owner)
  | _, _ => (c, d)

/-- HOLD_EXPIRY (R74). -/
def execHoldExpiry (h : HoldId) (s : State) : Answer := contentEvent (expireHold h) s

/-- A waiter leaves its queue with a completion (R70). -/
def endWait (h : HoldId) (x : Waiter) (outcome : CompletionOutcome) (body : List Byte) (c : Content) (d : Delivery) :
    Content × Delivery :=
  (c.setHold h { c.holds[h] with waiters := leaveQueue x.port c.holds[h].waiters },
    d.complete x.port ⟨x.tag, 0x40, outcome, body⟩)

/-- The waiter of a port in a hold's queue. -/
def Hold.waiterOf (p : PortId) (k : Hold) : Option Waiter := k.waiters.find? (fun x => decide (x.port = p))

/-- WAIT_TIMEOUT (R70): the wait of a port in a hold's queue reaches its deadline. -/
def execWaitTimeout (h : HoldId) (p : PortId) (s : State) : Answer :=
  contentEvent (fun c d =>
    match c.holds[h].waiterOf p with
    | none => (c, d)
    | some x => endWait h x .timeout (b1 h.val) c (d.reach x.deadline)) s

/-! ## Board clear (R77) -/

/-- One hold at a board clear: its waiting TAKEs completed CANCELLED, oldest first, and the hold EMPTY (R77). -/
def clearHold (cd : Content × Delivery) (h : HoldId) : Content × Delivery :=
  let k := cd.1.holds[h]
  if k.state = .empty then cd
  else
    (cd.1.setHold h { k with state := .empty, waiters := [] },
      k.waiters.foldl (fun d x => d.complete x.port ⟨x.tag, 0x40, .cancelled, []⟩) cd.2)

/-- The hold unit at a board clear (R77). -/
def clearHolds (c : Content) (d : Delivery) : Content × Delivery := (List.finRange 32).foldl clearHold (c, d)

end Sys2Proof.Machine
end

