-- ==== Sys2Proof/Machine/Compose.lean ====
section
/-! DEFINITION. Composition and type (chapter 7): drawn glyphs, runs of characters, what each kind of placard draws, and
the columns of a strip. -/

namespace Sys2Proof.Machine

/-! ## Drawn glyphs (R119, R122) -/

/-- A present glyph of a font. -/
def Font.glyph? (f : Font) (g : Nat) : Option GlyphSlot :=
  (f.directory.find? (fun x => decide (x.1 = g))).map (fun x => x.2)

/-- The drawn glyph of a character: its own, else glyph 0, else none (R122). -/
def Font.drawn (f : Font) (g : Nat) : Option GlyphSlot :=
  match f.glyph? g with
  | some s => some s
  | none => f.glyph? 0

/-- The drawn width of a character (R122). -/
def Font.drawnWidth (f : Font) (g : Nat) : Nat :=
  match f.drawn g with
  | some s => s.width
  | none => 0

/-- The advance of a character: its drawn width plus 1 (R122). -/
def Font.advance (f : Font) (g : Nat) : Nat := f.drawnWidth g + 1

/-- The width of a run: the sum of its advances minus 1, and 0 for an empty run (R122). -/
def Font.runWidth (f : Font) (chars : List Nat) : Nat := (chars.map f.advance).sum - 1

/-- The bit of a glyph at a column and a row of its own (R119). -/
def Font.bit (f : Font) (s : GlyphSlot) (column row : Nat) : Bool :=
  match f.region[s.place + column * (f.height / 8) + row / 8]? with
  | some b => b.getLsbD (row % 8)
  | none => false

/-- The glyph and its column that stand `k` columns right of the start of a run, if a glyph does (R122). -/
def Font.columnAt (f : Font) : List Nat → Int → Option (GlyphSlot × Nat)
  | [], _ => none
  | g :: gs, k =>
    if k < 0 then none
    else if k < f.drawnWidth g then (f.drawn g).map (fun s => (s, k.toNat))
    else f.columnAt gs (k - f.advance g)

/-! ## Runs of characters (R128) -/

/-- A run: its characters from a start column and a top row, drawn at columns `left` up to `right` and rows `top` up to
`bottom`, the last excluded. -/
structure Run where
  font : Font
  chars : List Nat
  start : Int
  top : Int
  left : Int
  right : Int
  bottom : Int

/-- A run with no narrower limit than its placard's clipped rectangle. -/
def wholeRun (f : Font) (chars : List Nat) (start top : Int) (left right : Int) : Run :=
  ⟨f, chars, start, top, left, right, top + f.height⟩

/-- The run has a content pixel at a column and a row of the panel (R128). -/
def Run.paints (r : Run) (column row : Int) : Bool :=
  if r.left ≤ column ∧ column < r.right ∧ r.top ≤ row ∧ row < r.bottom ∧ row - r.top < r.font.height then
    match r.font.columnAt r.chars (column - r.start) with
    | some (s, k) => r.font.bit s k (row - r.top).toNat
    | none => false
  else false

/-! ## What each kind draws (R129 to R134) -/

/-- The digits of a number below 100, two of them (R131, R133). -/
def twoDigits (v : Nat) : List Nat := [48 + v / 10 % 10, 48 + v % 10]

/-- The decimal digits of a number below 100 without a leading zero (R131). -/
def plainDigits (v : Nat) : List Nat := if v < 10 then [48 + v] else twoDigits v

/-- hh, colon, mm (R131, R133). -/
def clockText (hh mm : Nat) : List Nat := twoDigits hh ++ [58] ++ twoDigits mm

/-- The figure text of an entry (R131); tokens are DUE, MIN, CANCELLED, AT_PLATFORM in this order. -/
def figureText (tokens : Vector (List Nat) 4) : Figure → List Nat
  | .minutes m => plainDigits m ++ (if tokens[1].isEmpty then [] else 32 :: tokens[1])
  | .due => tokens[0]
  | .clock hh mm => clockText hh mm
  | .atPlatform => tokens[3]
  | .cancelled => tokens[2]

/-- The clock form of a station second: hh and mm, truncated (R40). -/
def clockForm (second : Nat) : Nat × Nat := (second / 3600 % 24, second % 3600 / 60)

/-- The station second (R26). -/
def Clock.second (k : Clock) : Nat := k.value / 100

/-- The blink phase is on (R36). -/
def Clock.phaseOn (k : Clock) : Bool := decide (k.value % 100 < 50)

/-- The characters of a CLOCK placard (R133). -/
def Clock.face (k : Clock) : List Nat :=
  match k.state with
  | .unset => [45, 45, 58, 45, 45]
  | .running => clockText (clockForm k.second).1 (clockForm k.second).2
  | .slewing => clockText (clockForm k.second).1 (clockForm k.second).2
  | .limit => clockText (clockForm k.second).1 (clockForm k.second).2

/-- The start column of a text of width `t` in a rectangle at `x` of width `w` (R129). -/
def textStart (align : Align) (x w t : Nat) : Nat :=
  if w < t then x
  else
    match align with
    | .left => x
    | .centre => x + (w - t) / 2
    | .right => x + w - t

/-- The three runs of a departure row whose band begins at `top` (R130). -/
def rowRuns (c : Content) (rowFont badgeFont : Font) (x w : Nat) (top : Nat) (e : Entry) : List Run :=
  let bottom : Int := top + rowFont.height
  let figure := figureText c.typeStore.tokens e.figure
  let name := (c.destinations[e.destination]?).getD []
  let b := badgeFont.drawnWidth e.line
  let f := rowFont.runWidth figure
  let edge : Int := x + w
  [ ⟨badgeFont, [e.line], x, top, x, edge, bottom⟩,
    ⟨rowFont, name, x + b + 2, top, x, edge - f - 1, bottom⟩,
    ⟨rowFont, figure, edge - f, top, x, edge, bottom⟩ ]

/-- The runs that a placard draws (R129 to R134), in panel coordinates. -/
def placardRuns (c : Content) (pl : Placard) : List Run :=
  let fonts := c.typeStore.fonts
  let edge : Int := pl.x + pl.w
  match pl.content with
  | .text chars font align =>
    [wholeRun fonts[font] chars (textStart align pl.x pl.w (fonts[font].runWidth chars)) pl.y pl.x edge]
  | .departures list firstRow rowCount rowFont badgeFont =>
    (List.range rowCount).flatMap (fun i =>
      match (if firstRow + i < 12 then c.lists[list][firstRow + i]? else none) with
      | none => []
      | some e => rowRuns c fonts[rowFont] fonts[badgeFont] pl.x pl.w (pl.y + i * fonts[rowFont].height) e)
  | .ticker t =>
    match c.tickers[t].state with
    | .running => [wholeRun fonts[c.tickers[t].font] c.tickers[t].chars (pl.x - c.tickers[t].offset) pl.y pl.x edge]
    | .undefined => []
    | .idle => []
    | .dry => []
  | .clock font => [wholeRun fonts[font] c.clock.face pl.x pl.y pl.x edge]
  | .glyph font g => [wholeRun fonts[font] [g] pl.x pl.y pl.x edge]

/-! ## Painting (R126, R127) -/

/-- The fill level, none for no fill (R127). -/
def Placard.fillLevel (pl : Placard) : Option Nat := if pl.invert then some pl.foreground else pl.background

/-- The content level (R127). -/
def Placard.contentLevel (pl : Placard) : Nat := if pl.invert then pl.background.getD 0 else pl.foreground

/-- A placard ready to paint on a panel: its clipped rectangle, the last column and row excluded, its levels, its runs. -/
structure Brush where
  left : Nat
  right : Nat
  top : Nat
  bottom : Nat
  fill : Option Nat
  level : Nat
  runs : List Run

/-- The level a placard leaves at a pixel (R127): content over fill over what was there. -/
def Brush.paint (column row level : Nat) (k : Brush) : Nat :=
  if k.left ≤ column ∧ column < k.right ∧ k.top ≤ row ∧ row < k.bottom then
    if k.runs.any (fun r => r.paints column row) then k.level else k.fill.getD level
  else level

/-- The placard is drawn for a panel now: the panel draws it, and it does not blink in the off phase (R126). -/
def Content.showsNow (c : Content) (q : Panel) (pl : Placard) : Bool :=
  pl.drawnOn q && (!pl.blink || c.clock.phaseOn)

/-- The brush of a placard on a panel (R46). -/
def Content.brush (c : Content) (q : Panel) (pl : Placard) : Brush :=
  ⟨pl.x, min (pl.x + pl.w) q.width, pl.y, min (pl.y + pl.h) q.height, pl.fillLevel, pl.contentLevel, placardRuns c pl⟩

/-- The placards in draw order (R47). -/
def Board.inDrawOrder (b : Board) : List Placard := b.drawOrder.filterMap (fun n => b.placards[n])

/-- The brushes that paint a panel, in draw order. -/
def Content.brushes (c : Content) (q : Panel) : List Brush :=
  (c.board.inDrawOrder.filter (c.showsNow q)).map (c.brush q)

/-- The eight levels of a column of strip `strip`, top row first (R125). -/
def stripColumn (brushes : List Brush) (strip column : Nat) : List Nat :=
  (List.range 8).map (fun r => brushes.foldl (fun level k => k.paint column (8 * strip + r) level) 0)

/-- The columns of a strip of a panel from `left` on, `count` of them (R125, R135). -/
def composeColumns (c : Content) (q : Panel) (strip left count : Nat) : List (List Nat) :=
  let brushes := c.brushes q
  (List.range count).map (fun i => stripColumn brushes strip (left + i))

end Sys2Proof.Machine
end

