-- ==== Sys2Proof/Machine/Lanes.lean ====
section
/-! DEFINITION. The work of the lanes (sections 6.5 and 9.3 to 9.6): context copy, composing and coding a strip, writing
code into the link FIFO, and the end of coding. -/

namespace Sys2Proof.Machine

/-! ## Context copy (R109) -/

/-- A lane takes its copy of the context (R109). -/
def Works.copyContext (n : LaneId) (p : PanelId) (q : Panel) (w : Works) : Works :=
  w.mapLane n (fun k => { k with context := some (q.context p) })

/-- Every lane that serves the panel holds its context. -/
def Works.copiesDone (w : Works) (p : PanelId) : Bool := (w.lanesServing p).all (fun n => (w.lanes[n].context).isSome)

/-- The lanes of a panel enter WORKING; the first of them holds the work causes and the frame (R110, R149). -/
def Works.startLanes (c : Content) (gs : Vector Group 8) (p : PanelId) (w : Works) : Works :=
  (w.lanesServing p).foldl (fun w n =>
    w.mapLane n (fun k =>
      k.startWorking (if w.holder n = n then some (newFrame c.board.generation gs p k.work) else none))) w

/-- A context copy completes; the lane, or the pair when both copies have completed, enters WORKING (R109). -/
def copyComplete (n : LaneId) (c : Content) (d : Delivery) : Delivery :=
  let k := d.works.lanes[n]
  if k.state ≠ .loading then d
  else
    match k.panel with
    | none => d
    | some p =>
      match d.works.panels[p] with
      | none => d
      | some q =>
        d.mapWorks (fun w =>
          let w := w.copyContext n p q
          if w.copiesDone p then w.startLanes c d.groups p else w)

/-- CONTEXT_COPY_COMPLETE (R109). -/
def execContextCopyComplete (n : LaneId) (s : State) : Answer := event (copyComplete n) s

/-! ## Writing code into the link FIFO (R110, R111, R153) -/

/-- The FIFO's capacity in bytes (R157). -/
def fifoSize : Nat := 1024

/-- The next strip field once the code of its strip has been written: raised by 1, unless it was the last (R110). -/
def nextStripAfter (decided strips next : Nat) : Nat := if next < decided ∧ next + 1 < strips then next + 1 else next

/-- A lane writes as many of its code bytes as the FIFO has room for (R110). -/
def Works.writeLane (w : Works) (n : LaneId) : Works :=
  let k := w.lanes[n]
  match k.context with
  | none => w
  | some x =>
    let link := w.links[x.link]
    let room := fifoSize - link.fifo.length
    let left := k.unwritten.drop room
    let decided := ((w.lanes[w.holder n].frame).map (fun f => f.kinds.length)).getD 0
    (w.setLink x.link { link with fifo := link.fifo ++ k.unwritten.take room }).mapLane n (fun k =>
      { k with
        unwritten := left
        nextStrip := if left.isEmpty then nextStripAfter decided x.strips k.nextStrip else k.nextStrip })

/-- The lanes of a panel write in order, the odd lane of a pair once the even lane has written (R111). -/
def writeInOrder : List LaneId → Works → Works
  | [], w => w
  | n :: ns, w => if ((w.writeLane n).lanes[n]).unwritten.isEmpty then writeInOrder ns (w.writeLane n) else w.writeLane n

/-- A lane of the panel waits for room in the FIFO (R110). -/
def Works.waitsForRoom (w : Works) (p : PanelId) : Bool :=
  (w.lanesServing p).any (fun n => !w.lanes[n].unwritten.isEmpty)

/-- A frame under construction committed because no room is left: its would-keep mark is cleared (R153). -/
def FrameBuild.commitFull (f : FrameBuild) : FrameBuild :=
  if f.stagedCandidate && !f.committed then { f with committed := true, wouldKeep := false } else f

/-- The lane's frame is committed: the link's frame record is marked so (R153, R157). -/
def Works.markCommitted (l : LinkId) (committed : Bool) (w : Works) : Works :=
  w.setLink l { w.links[l] with frame := (w.links[l].frame).map (fun f => { f with committed := committed }) }

/-- The frame of a panel committed when its lane waits for room (R153). -/
def Works.commitWaiting (p : PanelId) (w : Works) : Works :=
  match w.lanesServing p with
  | [] => w
  | n :: _ =>
    match w.lanes[n].frame, w.lanes[n].context with
    | some f, some x =>
      let g := if w.waitsForRoom p then f.commitFull else f
      (w.mapLane n (fun k => { k with frame := some g })).markCommitted x.link g.committed
    | _, _ => w

/-- The lanes of a panel go on writing (R110). -/
def Works.resume (p : PanelId) (w : Works) : Works := (writeInOrder (w.lanesServing p) w).commitWaiting p

/-- A STREAMING link sends `n` further bytes of its FIFO on LTX, and lanes that wait for room resume (R110, R163). -/
def Works.sendBytes (l : LinkId) (n : Nat) (w : Works) : Works :=
  let k := w.links[l]
  if k.state = .streaming ∧ k.line = .frame then
    let w' := w.setLink l { k with fifo := k.fifo.drop n, sent := k.sent ++ k.fifo.take n }
    match k.frame with
    | none => w'
    | some f => w'.resume f.panel
  else w

/-- FIFO_ROOM (R110): the link of the lane's panel has sent bytes, and the lane resumes. -/
def execFifoRoom (n : LaneId) (sent : Nat) (s : State) : Answer :=
  event (fun _ d =>
    match d.works.lanes[n].context with
    | none => d
    | some x => d.mapWorks (Works.sendBytes x.link sent)) s

/-! ## Strips (R110, R111, R125, R150) -/

/-- The columns of the strip, or of the lane's half of it, composed from the content as it stands (R110, R111, R125). -/
def composeFor (c : Content) (q : Panel) (x : Context) (odd : Bool) (strip : Nat) : List (List Nat) :=
  match x.cls with
  | .line | .rows => composeColumns c q strip 0 x.width
  | .wide => composeColumns c q strip (if odd then x.width / 2 else 0) (x.width / 2)

/-- The lane's strip buffer holds a strip, or half of one, not yet decided (R111, R125). -/
def Lane.fill (columns : List (List Nat)) (k : Lane) : Lane := { k with buffer := columns, composed := true }

/-- A strip decided from the buffers of the lanes that serve it, and its code handed to them: `first` writes the header and
its segments, `second` the rest of a WIDE strip (R110, R111, R150, R151). -/
def Works.decideStrip (first : LaneId) (second : Option LaneId) (x : Context) (f : FrameBuild) (work : CauseSet)
    (strip : Nat) (w : Works) : Works :=
  let left := stripBytes x.cls w.lanes[first].buffer
  let right := match second with
    | none => []
    | some o => stripBytes x.cls w.lanes[o].buffer
  let d := digest (left ++ right)
  let kind := stripKind x work f.stagedCandidate strip d
  let w1 := w.mapLane first (fun k =>
    { k with
      frame := some (f.decideStrip x work strip d)
      composed := false
      unwritten := openingCode x.cls strip kind left })
  let w2 := match second with
    | none => w1
    | some o => w1.mapLane o (fun k => { k with composed := false, unwritten := closingCode x.cls kind right })
  w2.resume x.panel

/-- The lane is ready for its next strip: WORKING, nothing composed and undecided, no lane of the panel with code still to
write, and the strip its next strip field names not yet decided (R110). A lane of a pair thus waits for the other to finish
its half (R111). -/
def Works.readyFor (w : Works) (f : FrameBuild) (x : Context) (k : Lane) : Bool :=
  decide (k.state = .working ∧ k.composed = false ∧ k.nextStrip = f.kinds.length ∧ k.nextStrip < x.strips) &&
    !w.waitsForRoom x.panel

/-- One lane composes its next strip; a single lane decides it at once, a pair when both halves are composed (R111). -/
def stripStep (n : LaneId) (c : Content) (w : Works) : Works :=
  let k := w.lanes[n]
  let first := w.holder n
  let h := w.lanes[first]
  match k.context, h.frame, h.context with
  | some x, some f, some hx =>
    match w.panels[x.panel] with
    | none => w
    | some q =>
      if w.readyFor f x k then
        let w' := w.mapLane n (Lane.fill (composeFor c q x (decide (first ≠ n)) k.nextStrip))
        match k.partner with
        | none => w'.decideStrip n none hx f h.work k.nextStrip
        | some m =>
          if w.lanes[m].composed then
            w'.decideStrip first (some (if first = n then m else n)) hx f h.work k.nextStrip
          else w'
      else w
  | _, _, _ => w

/-- STRIP (R110). -/
def execStrip (n : LaneId) (s : State) : Answer := event (fun c d => d.mapWorks (stripStep n c)) s

/-! ## The end of coding (R112, R154, R155) -/

/-- The code of the last strip has been written by every lane of the panel (R110, R111). -/
def Works.codingDone (w : Works) (p : PanelId) (f : FrameBuild) (x : Context) : Bool :=
  decide (f.kinds.length = x.strips) && !w.waitsForRoom p

/-- What the link stores when the lane reports CODED (R148, R163). -/
def FrameRecord.finish (f : FrameBuild) (r : FrameRecord) : FrameRecord :=
  { r with
    strips := f.digests
    expected := frameDigest f.digests
    generation := f.generation
    full := f.full
    staged := f.staged
    committed := true
    complete := true
    swapEnded := f.swapEnded }

/-- The lanes of a panel hold its context alone (R112 step 4). -/
def Works.restLanes (p : PanelId) (w : Works) : Works := (w.lanesServing p).foldl Works.residentLane w

/-- CODED: the link holds a complete frame, and the panel is SENDING with the work causes in flight (R87, R112). -/
def Works.reportCoded (p : PanelId) (q : Panel) (f : FrameBuild) (work : CauseSet) (w : Works) : Works :=
  let link := w.links[q.link]
  ((w.setLink q.link { link with frame := link.frame.map (FrameRecord.finish f) }).setPanel p
    { q with state := .sending, inFlight := some work }).restLanes p

/-- NULL_FRAME at the panel table: the acknowledged generation becomes the compose generation (R87). -/
def Panel.takeNull (generation : Nat) (q : Panel) : Panel :=
  ({ q with ack := q.ack.map (fun r => { r with generation := generation }) } : Panel).rest

/-- A null staged candidate handed to the swap group unit after the panel table has applied it (R155, R175); `candidate` is
false of one whose swap has ended, which no group takes (R178). -/
def arriveNull (b : Board) (p : PanelId) (candidate : Bool) (d : Delivery) : Delivery :=
  if candidate then
    match awaitingGroup d.groups p, (d.works.panels[p]).bind (fun q => q.ack) with
    | some g, some r => d.arrive b g ⟨p, r.strips, r.frame, r.generation, false, false⟩
    | _, _ => d
  else d

/-- NULL_FRAME: the link discards the FIFO and returns to IDLE, the panel table takes the generation, and confirmations
are checked (R87, R112, R155). -/
def reportNull (b : Board) (p : PanelId) (q : Panel) (f : FrameBuild) (d : Delivery) : Delivery :=
  let d1 := d.mapWorks (fun w => (w.restLanes p).toIdle q.link)
  arriveNull b p (f.stagedCandidate && !f.swapEnded)
    ((d1.mapWorks (Works.putPanel p (q.takeNull f.generation))).checkConfirmations b)

/-- The end of coding of a lane, or of the pair it belongs to (R112). -/
def endCoding (n : LaneId) (c : Content) (d : Delivery) : Delivery :=
  let w := d.works
  let h := w.lanes[w.holder n]
  match h.frame, h.context with
  | some f, some x =>
    match w.panels[x.panel] with
    | none => d
    | some q =>
      if w.lanes[n].state = .working ∧ w.codingDone x.panel f x ∧ q.state = .loaded then
        if f.committed then d.mapWorks (Works.reportCoded x.panel q f h.work)
        else reportNull c.board x.panel q f d
      else d
  | _, _ => d

/-- CODING_END (R112). -/
def execCodingEnd (n : LaneId) (s : State) : Answer := event (endCoding n) s

end Sys2Proof.Machine
end

