-- ==== Sys2Proof/Machine/Links.lean ====
section
/-! DEFINITION. Display links and delivery (chapter 10, section 13.2): set-up, enabling, disabling, the course of a frame,
the reply, probing, SHOW, and what the panel table does with each report (R89 to R95). -/

namespace Sys2Proof.Machine

/-! ## LINK_SETUP, LINK_ENABLE, LINK_READ (R159, R160, R170) -/

/-- The stored divider: its low bit forced to 0 (R159). -/
def storedDivider (v : Nat) : Nat := 2 * (v / 2)

/-- The stored start level: clamped, then rounded down to a multiple of 64 (R159). -/
def storedStart (v : Nat) : Nat := clampTo 64 1024 v / 64 * 64

/-- What a LINK_SETUP does (R159). -/
def setupLink (link divider timeout startLevel : Nat) (c : Content) (d : Delivery) : Content × Delivery × Reply :=
  match index? 8 link with
  | none => (c, d, refuse .badValue)
  | some l =>
    if d.works.links[l].state ≠ .disabled then (c, d, refuse .state)
    else
      let k := { d.works.links[l] with
        divider := storedDivider divider, timeout := clampTo 1 255 timeout, startLevel := storedStart startLevel }
      (c, d.mapWorks (Works.setLink l k), okWith (b2 k.divider ++ b1 k.timeout ++ b2 k.startLevel))

/-- LINK_SETUP (R159). -/
def execLinkSetup (p : PortId) (link divider timeout startLevel : Nat) (s : State) : Answer :=
  request p (.linkSetup p link divider timeout startLevel) (supervised p (setupLink link divider timeout startLevel)) s

/-- Every defined panel of a link changed. -/
def Works.mapPanelsOn (l : LinkId) (f : Panel → Panel) (w : Works) : Works :=
  { w with panels := mapTable (Option.map (fun q => if q.link = l then f q else q)) w.panels }

/-- The link record as it comes into service (R160 steps 1 and 2). -/
def Link.enable (k : Link) : Link :=
  { k with state := .idle, fifo := [], pendingShow := [], probePointer := 7, line := .released, rx := [] }

/-- What a LINK_ENABLE does (R95, R160). -/
def enableLink (link : Nat) (c : Content) (d : Delivery) : Content × Delivery × Reply :=
  match index? 8 link with
  | none => (c, d, refuse .badValue)
  | some l =>
    let k := d.works.links[l]
    if k.state ≠ .disabled ∨ k.divider = 0 then (c, d, refuse .state)
    else
      (c, d.mapWorks (fun w => (w.setLink l k.enable).mapPanelsOn l (fun q => { q with probeDue := some w.now })),
        okWith [])

/-- LINK_ENABLE (R160). -/
def execLinkEnable (p : PortId) (link : Nat) (s : State) : Answer :=
  request p (.linkEnable p link) (supervised p (enableLink link)) s

/-- The bit rate of a divider: 50,000,000 / divider in whole bits per second (R158). Which way it is rounded where it is no
whole number, and what it is for divider 0, are free values (log 14). -/
def bitRate (divider : Nat) : Nat :=
  if divider = 0 then Config.rateOfStoppedLink
  else 50000000 / divider + cond (decide (50000000 % divider ≠ 0) && Config.rateRoundedUp divider) 1 0

/-- The last outcome with its panel (R170, chapter 13). MODEL'S CHOICE (log 33): the outcome code tells whether the panel
follows, and no presence byte does. -/
def outcomeBytes : Option (LinkOutcome × PanelId) → List Byte
  | none => [0]
  | some (o, p) => o.code :: b1 p.val

/-- A link as LINK_READ returns it (R170, log 9). MODEL'S CHOICE (log 41): the frame number of a frame record follows a
presence byte of its own, 00h until FRAME_START gives the frame its number (R163). -/
def Link.bytes (now : Nat) (k : Link) : List Byte :=
  [k.state.code] ++ b2 k.divider ++ b4 (bitRate k.divider) ++ b1 k.timeout ++ b2 k.startLevel ++ b2 k.fifo.length ++
    (match k.frame with
      | none => [0]
      | some f => [1] ++ b1 f.panel.val ++ b1 f.drop.val ++ bOpt b1 (f.number.map BitVec.toNat) ++ bFlag f.committed ++
          bFlag f.complete) ++
    (match k.probe with
      | none => [0]
      | some f => [1] ++ b1 f.panel.val ++ b1 f.drop.val) ++
    bOpt b4 (k.wait.map (timeLeft now)) ++ bList b1 (k.pendingShow.map Fin.val) ++ b1 k.probePointer.val ++
    b2 k.abandons ++ outcomeBytes k.lastOutcome

/-- What a LINK_READ answers (R170). -/
def readLink (link : Nat) (w : Works) : Reply :=
  match index? 8 link with
  | none => refuse .badValue
  | some l => okWith (w.links[l].bytes w.now)

/-- LINK_READ (R170). -/
def execLinkRead (p : PortId) (link : Nat) (s : State) : Answer :=
  query p (.linkRead p link) (fun _ d => readLink link d.works) s

/-! ## LINK_DISABLE (R95, R117, R161) -/

/-- The numbers of the defined panels on a link, ascending. -/
def Works.panelsOn (w : Works) (l : LinkId) : List PanelId :=
  (w.panelList.filter (fun x => decide (x.2.link = l))).map (fun x => x.1)

/-- The lanes of a panel stopped, their work causes merged back into its wake set (R86, R117). -/
def Works.stopLanes (p : PanelId) (w : Works) : Works :=
  match w.panels[p] with
  | none => w
  | some q =>
    let lanes := w.lanesServing p
    let work := (lanes.map (fun n => w.lanes[n].work)).foldl CauseSet.union CauseSet.none
    lanes.foldl Works.freeLane (w.setPanel p { q with wake := q.wake.union work })

/-- What LINK_DISABLE does to the lanes of a panel of the link: stopped, its resident contexts dropped, a claim of it
ended (R117). -/
def Works.disableLanes (w : Works) (p : PanelId) : Works := ((w.stopLanes p).dropResident p).endClaimOf p

/-- The link record at LINK_DISABLE: a sending is cut short with a break, an abandoned frame is counted once, and
otherwise the link is DISABLED at once with nothing pending (R158, R161). -/
def Link.disable (k : Link) : Link :=
  match k.line with
  | .released => { k.clear .disabled with pendingShow := [] }
  | .frame => { k with line := .brk true, abandons := min 65535 (k.abandons + 1), busy := 0 }
  | .probe => { k with line := .brk true }
  | .show => { k with line := .brk true }
  | .brk _ => { k with line := .brk true }

/-- The panel record at LINK_DISABLE (R95 steps 1 to 4). -/
def Panel.disable (q : Panel) : Panel :=
  { q.distrust with
    wake := q.wake.union (q.inFlight.getD CauseSet.none)
    inFlight := none
    holdoff := none
    failures := 0
    probeDue := none
    state := .offline }

/-- LINK_DISABLE reaches the panel table for one panel (R95). MODEL'S CHOICE (log 38): the confirmations are checked after
each panel, so that the order of acceptance (R63) holds within one check, not over all panels of the link. -/
def disablePanel (b : Board) (d : Delivery) (p : PanelId) : Delivery :=
  match d.works.panels[p] with
  | none => d
  | some q => (d.mapWorks (Works.putPanel p q.disable)).checkConfirmations b

/-- What a LINK_DISABLE does (R161). -/
def disableLink (link : Nat) (c : Content) (d : Delivery) : Content × Delivery × Reply :=
  match index? 8 link with
  | none => (c, d, refuse .badValue)
  | some l =>
    if d.works.links[l].state = .disabled then (c, d, okWith [])
    else
      let panels := d.works.panelsOn l
      let d1 := d.mapWorks (fun w => (panels.foldl Works.disableLanes w).setLink l w.links[l].disable)
      (c, (panels.foldl (disablePanel c.board) d1).dropOutAll c.board panels, okWith [])

/-- LINK_DISABLE (R161). -/
def execLinkDisable (p : PortId) (link : Nat) (s : State) : Answer :=
  request p (.linkDisable p link) (supervised p (disableLink link)) s

/-! ## The course of a frame (R163 to R165) -/

/-- The start condition of a committed frame (R163). -/
def Works.mayStart (w : Works) (l : LinkId) : Bool :=
  let k := w.links[l]
  match k.frame with
  | none => false
  | some f =>
    decide (k.state = .reserved ∧ k.line = .released) && f.committed &&
      (decide (k.startLevel ≤ k.fifo.length) || f.complete || w.waitsForRoom f.panel)

/-- The staged mark of a frame: stored when coding has ended, else taken from the lane (R163 step 1). -/
def Works.stagedMark (w : Works) (f : FrameRecord) : Bool :=
  if f.complete then f.staged
  else (w.lanesServing f.panel).any (fun n => (w.lanes[n].frame).any FrameBuild.staged)

/-- The link begins transmitting its frame (R163); the header occupies the line for seven bytes. -/
def Works.startFrame (l : LinkId) (w : Works) : Works :=
  let k := w.links[l]
  match k.frame with
  | none => w
  | some f =>
    match w.panels[f.panel] with
    | none => w
    | some q =>
      let number := q.lastFrame + 1
      let staged := w.stagedMark f
      (w.setPanel f.panel { q with lastFrame := number }).setLink l
        { k with
          state := .streaming
          line := .frame
          frame := some { f with number := some number, staged := staged }
          sent := frameHeader f.drop number staged q.stripCount
          busy := 7 * k.divider
          rx := [] }

/-- FRAME_START (R163). -/
def execFrameStart (l : LinkId) (s : State) : Answer :=
  event (fun _ d => if d.works.mayStart l then d.mapWorks (Works.startFrame l) else d) s

/-- ABANDONED at the panel table: a LOADED panel is READY with the work causes merged back, and its lanes keep its context
(R93, R117). -/
def Works.reportAbandoned (p : PanelId) (w : Works) : Works :=
  match w.panels[p] with
  | none => w
  | some q =>
    if q.state = .loaded then
      let lanes := w.lanesServing p
      let work := (lanes.map (fun n => w.lanes[n].work)).foldl CauseSet.union CauseSet.none
      (w.setPanel p { q with state := .ready, wake := q.wake.union work }).restLanes p
    else w

/-- The link needs a next byte of its frame (R164). A byte that a lane's write has put into the FIFO first is sent and the
frame goes on; with the FIFO empty before the frame is complete the link sends a break, counts, and reports ABANDONED; with
the frame complete it has been sent whole. -/
def Works.underflow (l : LinkId) (w : Works) : Works :=
  let k := w.links[l]
  match k.frame with
  | none => w
  | some f =>
    if k.state = .streaming ∧ k.line = .frame then
      if k.fifo ≠ [] then w.sendBytes l 1
      else if f.complete then w
      else (w.setLink l { k.abandon with lastOutcome := some (.abandoned, f.panel) }).reportAbandoned f.panel
    else w

/-- UNDERFLOW (R164). -/
def execUnderflow (l : LinkId) (s : State) : Answer := event (fun _ d => d.mapWorks (Works.underflow l)) s

/-- A break ends: the link returns to IDLE, or to DISABLED when a LINK_DISABLE was taken (R158, R161, R164). -/
def Works.breakEnd (l : LinkId) (w : Works) : Works :=
  let k := w.links[l]
  match k.line with
  | .brk false => w.toIdle l
  | .brk true => w.setLink l { k.clear .disabled with pendingShow := [] }
  | .released => w
  | .frame => w
  | .probe => w
  | .show => w

/-- BREAK_END (R158). -/
def execBreakEnd (l : LinkId) (s : State) : Answer := event (fun _ d => d.mapWorks (Works.breakEnd l)) s

/-- The stop bit of the frame's last byte ends, the bytes left in the FIFO sent before it (R165, log 13). -/
def Works.lastByteSent (l : LinkId) (w : Works) : Works :=
  let k := w.links[l]
  match k.frame with
  | none => w
  | some f =>
    if k.state = .streaming ∧ k.line = .frame ∧ f.complete then
      w.setLink l { k with
        state := .awaitingReply
        line := .released
        fifo := []
        sent := k.sent ++ k.fifo
        busy := 0
        wait := some (w.now + k.timeout)
        rx := [] }
    else w

/-- LAST_BYTE_SENT (R165). -/
def execLastByteSent (l : LinkId) (s : State) : Answer := event (fun _ d => d.mapWorks (Works.lastByteSent l)) s

/-! ## Outcomes at the panel table (R89 to R94) -/

/-- The record a frame's outcome carries. -/
def FrameRecord.record (f : FrameRecord) : AckRecord := ⟨f.strips, f.expected, f.generation⟩

/-- The panel record after a delivery: no failures, nothing in flight, PARKED or READY (R89, R90). -/
def Panel.delivered (q : Panel) : Panel := ({ q with failures := 0, inFlight := none } : Panel).rest

/-- DELIVERED of a frame that is not staged, or that its group does not take (R89, R90). -/
def deliverPlain (b : Board) (p : PanelId) (q : Panel) (f : FrameRecord) (d : Delivery) : Delivery :=
  (d.mapWorks (Works.putPanel p ((q.acknowledge d.works.now f.record f.full).delivered))).checkConfirmations b

/-- DELIVERED of a staged frame that its group takes as an arrival (R90, R175). -/
def deliverStaged (b : Board) (g : GroupId) (p : PanelId) (f : FrameRecord) (d : Delivery) : Delivery :=
  let d1 := d.arrive b g ⟨p, f.strips, f.expected, f.generation, true, true⟩
  match d1.works.panels[p] with
  | none => d1
  | some q => d1.mapWorks (Works.setPanel p q.delivered)

/-- A DELIVERED report reaches the panel table (R89, R90). A staged frame whose swap ended while it was in a lane is applied
as for an IDLE group (R178). MODEL'S CHOICE (log 36): one that had left its lane by then is an arrival (R175) of the swap that
awaits its panel now. -/
def reportDelivered (b : Board) (f : FrameRecord) (d : Delivery) : Delivery :=
  match d.works.panels[f.panel] with
  | none => d
  | some q =>
    if q.state ≠ .sending then d
    else
      match f.staged && !f.swapEnded, awaitingGroup d.groups f.panel with
      | true, some g => deliverStaged b g f.panel f d
      | _, _ => deliverPlain b f.panel q f d

/-- Steps 1 to 3 of a FAILED report on the record (R91). -/
def Panel.fail (q : Panel) : Panel :=
  { q.distrust with
    failures := q.failures + 1
    wake := q.wake.union (q.inFlight.getD CauseSet.none).withoutStage
    inFlight := none }

/-- Steps 4 and 5 of a FAILED report on the record (R91). -/
def Panel.afterFailure (now : Nat) (q : Panel) : Panel :=
  if 8 ≤ q.failures then { q with state := .isolated } else { q.rest with holdoff := some (now + 100 * q.failures) }

/-- A FAILED report reaches the panel table (R91, R176). -/
def reportFailed (b : Board) (p : PanelId) (d : Delivery) : Delivery :=
  match d.works.panels[p] with
  | none => d
  | some q =>
    if q.state ≠ .sending then d
    else
      let d1 := (d.mapWorks (Works.putPanel p q.fail)).dropOut b p
      let d2 := d1.mapWorks (Works.putPanel p (q.fail.afterFailure d.works.now))
      (if 8 ≤ q.fail.failures then d2.notifyAll (.panelIsolated p) else d2).checkConfirmations b

/-- The panel record after a RESTARTED report (R93). -/
def Panel.restart (q : Panel) : Panel :=
  { q.distrust with
    wake := (q.wake.union (q.inFlight.getD CauseSet.none)).insert .content
    inFlight := none
    state := .ready }

/-- A RESTARTED report reaches the panel table (R93). -/
def reportRestarted (b : Board) (p : PanelId) (d : Delivery) : Delivery :=
  match d.works.panels[p] with
  | none => d
  | some q =>
    if q.state ≠ .sending then d else (d.mapWorks (Works.putPanel p q.restart)).checkConfirmations b

/-- The outcome of a probe on a link is one of the panel's present definition (R89, R94): the panel is OFFLINE on that link
with its probe mark set. PANEL_DEFINE clears the mark, and under the present definition only the panel's own link sets it;
so a probe begun before a redefinition or a removal, on this link or on another, is told from the one that set the mark. -/
def Panel.takesProbe (l : LinkId) (q : Panel) : Bool := decide (q.state = .offline ∧ q.link = l) && q.probeMark

/-- An ONLINE report of a link reaches the panel table (R94). -/
def reportOnline (b : Board) (l : LinkId) (p : PanelId) (d : Delivery) : Delivery :=
  match d.works.panels[p] with
  | none => d
  | some q =>
    if q.takesProbe l then
      let known : Panel := { q.distrust with probeDue := none, probeMark := false, state := .parked }
      ((d.mapWorks (Works.putPanel p (known.gain .content))).notifyAll (.panelOnline p)).checkConfirmations b
    else d

/-- A MISMATCH report of a link reaches the panel table (R94). -/
def reportMismatch (l : LinkId) (p : PanelId) (d : Delivery) : Delivery :=
  match d.works.panels[p] with
  | none => d
  | some q =>
    if q.takesProbe l then
      (d.mapWorks (Works.setPanel p { q with probeMark := false })).notifyAll (.panelMismatch p)
    else d

/-! ## The reply (R165, R166, R168, R193) -/

/-- The outcome of a frame stored as the last outcome of the link. -/
def Works.setOutcome (l : LinkId) (o : LinkOutcome) (p : PanelId) (w : Works) : Works :=
  w.setLink l { w.links[l] with lastOutcome := some (o, p) }

/-- The outcome reported, then the link returned to IDLE (R165). -/
def concludeFrame (l : LinkId) (o : LinkOutcome) (p : PanelId) (report : Delivery → Delivery) (d : Delivery) : Delivery :=
  ((report d).mapWorks (Works.setOutcome l o p)).mapWorks (Works.toIdle l)

/-- The frame whose reply the link awaits, when the drop and the frame number are those of the frame record (R165). -/
def Link.awaits (k : Link) (drop number : Byte) : Option FrameRecord :=
  match k.state with
  | .awaitingReply =>
    k.frame.filter (fun f => decide (BitVec.ofNat 8 f.drop.val = drop ∧ f.number = some number))
  | .disabled => none
  | .idle => none
  | .reserved => none
  | .streaming => none
  | .probing => none

/-- A well-formed ACK (R165). -/
def judgeAck (b : Board) (l : LinkId) (drop number : Byte) (returned : Digest) (d : Delivery) : Delivery :=
  match d.works.links[l].awaits drop number with
  | none => d
  | some f =>
    if returned = f.expected then concludeFrame l .delivered f.panel (reportDelivered b f) d
    else concludeFrame l .digestMismatch f.panel (reportFailed b f.panel) d

/-- A well-formed NAK: reason 01h FORMAT, 02h DIGEST, 03h RESTARTED (R165). -/
def judgeNak (b : Board) (l : LinkId) (drop number reason : Byte) (d : Delivery) : Delivery :=
  match d.works.links[l].awaits drop number with
  | none => d
  | some f =>
    if reason = 1 then concludeFrame l .nakFormat f.panel (reportFailed b f.panel) d
    else if reason = 2 then concludeFrame l .nakDigest f.panel (reportFailed b f.panel) d
    else concludeFrame l .restarted f.panel (reportRestarted b f.panel) d

/-- The probe record whose answer the link awaits, when the drop is the probed one (R168). -/
def Link.probed (k : Link) (drop : Byte) : Option ProbeRecord :=
  if k.state = .probing ∧ k.wait.isSome then
    k.probe.filter (fun x => decide (BitVec.ofNat 8 x.drop.val = drop))
  else none

/-- A well-formed IDENT: class, width and height compared with the probe record (R168). -/
def judgeIdent (b : Board) (l : LinkId) (drop cls : Byte) (width height : Nat) (d : Delivery) : Delivery :=
  match d.works.links[l].probed drop with
  | none => d
  | some x =>
    let same := decide (cls = x.cls.code ∧ width = x.width ∧ height = x.height)
    (if same then reportOnline b l x.panel d else reportMismatch l x.panel d).mapWorks (Works.toIdle l)

/-- The length of a reply by its type byte; none for a byte that begins no reply (section 13.2). -/
def replyLength (kind : Byte) : Option Nat :=
  if kind = 0xC0 then some 7 else if kind = 0xC1 then some 6 else if kind = 0xC2 then some 8 else none

/-- A byte of a reply lies outside its range: a drop above 7, a NAK reason outside 01h–03h, an IDENT class outside
00h–02h (R193). `reply` are the bytes up to and with the one judged. -/
def replyBad (reply : List Byte) : Bool :=
  match reply with
  | [_, drop] => decide (7 < drop.toNat)
  | [kind, _, cls] => decide (kind = 0xC2 ∧ 2 < cls.toNat)
  | [kind, _, _, reason] => decide (kind = 0xC1 ∧ (reason = 0 ∨ 3 < reason.toNat))
  | _ => false

/-- The check of a reply is the digest of the bytes before it (section 13.2). -/
def replyChecked (reply : List Byte) : Bool :=
  decide (reply = withCheck (reply.take (reply.length - 2)))

/-- A complete reply judged (R165, R168). -/
def judgeReply (b : Board) (l : LinkId) (reply : List Byte) (d : Delivery) : Delivery :=
  if !replyChecked reply then d
  else
    match reply with
    | [_, drop, number, lo, hi, _, _] => judgeAck b l drop number (BitVec.ofNat 16 (leValue [lo, hi])) d
    | [_, drop, number, reason, _, _] => judgeNak b l drop number reason d
    | [_, drop, cls, w0, w1, height, _, _] => judgeIdent b l drop cls (leValue [w0, w1]) height.toNat d
    | _ => d

/-- The bytes of the reply in assembly after one character (R193): a gap or a low stop bit discards what was received,
outside a reply only a type byte begins one, and a byte out of range discards the reply. -/
def assemble (partialReply : List Byte) (x : RxChar) : List Byte :=
  if !x.stopHigh then []
  else
    let reply := (if x.gapBefore then [] else partialReply) ++ [x.byte]
    match reply with
    | [] => []
    | kind :: _ => if (replyLength kind).isNone || replyBad reply then [] else reply

/-- The reply in assembly written. -/
def Works.setRx (l : LinkId) (rx : List Byte) (w : Works) : Works := w.setLink l { w.links[l] with rx := rx }

/-- A character received on LRX: taken while LDE is low and the link is not DISABLED (R158, R193). A reply whose last byte
arrives is judged. -/
def receiveChar (b : Board) (l : LinkId) (d : Delivery) (x : RxChar) : Delivery :=
  let k := d.works.links[l]
  if k.line ≠ .released ∨ k.state = .disabled then d
  else
    let reply := assemble k.rx x
    if (reply.head?.bind replyLength) = some reply.length then
      judgeReply b l reply (d.mapWorks (Works.setRx l []))
    else d.mapWorks (Works.setRx l reply)

/-- The characters received on LRX, in order. -/
def receive (l : LinkId) (rx : List RxChar) (c : Content) (d : Delivery) : Delivery :=
  rx.foldl (receiveChar c.board l) d

/-- ACK (R165): the characters that complete it arrive. -/
def execAck (l : LinkId) (rx : List RxChar) (s : State) : Answer := event (receive l rx) s

/-- NAK (R165): the characters that complete it arrive. -/
def execNak (l : LinkId) (rx : List RxChar) (s : State) : Answer := event (receive l rx) s

/-- IDENT (R168): the characters that complete it arrive. -/
def execIdent (l : LinkId) (rx : List RxChar) (s : State) : Answer := event (receive l rx) s

/-- The reply wait deadline is taken (R166). -/
def replyTimeout (l : LinkId) (c : Content) (d : Delivery) : Delivery :=
  let k := d.works.links[l]
  match k.wait, k.frame with
  | some t, some f =>
    if k.state = .awaitingReply then concludeFrame l .timeout f.panel (reportFailed c.board f.panel) (d.reach t) else d
  | _, _ => d

/-- REPLY_TIMEOUT (R166). -/
def execReplyTimeout (l : LinkId) (s : State) : Answer := event (replyTimeout l) s

/-! ## Probing and SHOW (R167 to R169) -/

/-- The probe of a panel falls due: an IDLE link whose line is free begins a probe (R167). -/
def probeFallsDue (p : PanelId) (d : Delivery) : Delivery :=
  match d.works.panels[p] with
  | none => d
  | some q =>
    match q.probeDue with
    | none => d
    | some t =>
      if q.state = .offline then
        (d.reach t).mapWorks (fun w =>
          if w.links[q.link].state = .idle ∧ w.links[q.link].line = .released then w.beginDueProbe q.link else w)
      else d

/-- PROBE_DUE (R167). -/
def execProbeDue (p : PanelId) (s : State) : Answer := event (fun _ d => probeFallsDue p d) s

/-- The PROBE's last stop bit ends (R167 step 5). -/
def Works.probeSent (l : LinkId) (w : Works) : Works :=
  let k := w.links[l]
  if k.state = .probing ∧ k.line = .probe then
    w.setLink l { k with line := .released, wait := some (w.now + k.timeout), rx := [] }
  else w

/-- PROBE_SENT (R167). -/
def execProbeSent (l : LinkId) (s : State) : Answer := event (fun _ d => d.mapWorks (Works.probeSent l)) s

/-- The probe wait deadline is taken: no report (R168). -/
def probeTimeout (l : LinkId) (d : Delivery) : Delivery :=
  let k := d.works.links[l]
  match k.wait with
  | none => d
  | some t => if k.state = .probing ∧ k.line = .released then (d.reach t).mapWorks (Works.toIdle l) else d

/-- PROBE_TIMEOUT (R168). -/
def execProbeTimeout (l : LinkId) (s : State) : Answer := event (fun _ d => probeTimeout l d) s

/-- A SHOW's last stop bit ends: a further pending SHOW goes first, then a due probe (R167, R169). -/
def Works.showEnd (l : LinkId) (w : Works) : Works :=
  let k := w.links[l]
  if k.line = .show then (w.setLink l { k with line := .released, rx := [] }).lineFree l else w

/-- SHOW_END (R169). -/
def execShowEnd (l : LinkId) (s : State) : Answer := event (fun _ d => d.mapWorks (Works.showEnd l)) s

/-! ## The levels on LTX (R158) -/

/-- The ten bit times of a byte on the line: a start bit at low, the data bits with bit 0 first, a stop bit at high. -/
def charLevels (b : Byte) : List Bool := false :: ((List.range 8).map b.getLsbD ++ [true])

/-- The levels that LTX has carried since LDE rose, bit time by bit time: the bytes sent, and in a break the twenty bit
times at low that cut them short; none while LDE is low. MODEL'S CHOICE (log 34): the low of a break follows a whole byte,
and all bytes of a header, a PROBE or a SHOW. -/
def Link.ltxLevels (k : Link) : List Bool :=
  match k.line with
  | .released => []
  | .frame => k.sent.flatMap charLevels
  | .probe => k.sent.flatMap charLevels
  | .show => k.sent.flatMap charLevels
  | .brk _ => k.sent.flatMap charLevels ++ List.replicate 20 false

/-- The level of LTX in a bit time counted from the rise of LDE: the line rests high where nothing is sent, and a break
returns it high before LDE falls. -/
def Link.ltxAt (k : Link) (bitTime : Nat) : Bool := (k.ltxLevels[bitTime]?).getD true

/-! ## Time on the line (R158, log 3) -/

/-- One ms in units of 200 ns: a byte of divider n takes n units (R158). -/
def unitsPerMs : Nat := 5000

/-- The bytes a link takes from its FIFO in one ms, and the line time then left to the next one. -/
def Link.bytesInMs (k : Link) : Nat × Nat :=
  if k.divider = 0 then (0, 0)
  else if unitsPerMs ≤ k.busy then (0, k.busy - unitsPerMs)
  else
    let n := (unitsPerMs - k.busy + k.divider - 1) / k.divider
    (n, k.busy + n * k.divider - unitsPerMs)

/-- One ms on one link: a STREAMING link sends FIFO bytes. -/
def Works.linkMs (w : Works) (l : LinkId) : Works :=
  let k := w.links[l]
  if k.state = .streaming ∧ k.line = .frame then
    (w.setLink l { k with busy := k.bytesInMs.2 }).sendBytes l k.bytesInMs.1
  else w

/-- One ms passes (log 3): the time base counts, and each STREAMING link sends. -/
def Works.passMs (w : Works) : Works :=
  (List.finRange 8).foldl Works.linkMs { w with now := w.now + 1 }

/-- What step does on an empty queue (log 3). -/
def tick (s : State) : Answer := event (fun _ d => d.mapWorks Works.passMs) s

end Sys2Proof.Machine
end

