-- ==== Sys2Proof/Machine/Panels.lean ====
section
/-! DEFINITION. The panel table's requests and deadlines (chapter 5): PANEL_DEFINE, PANEL_REMOVE, PANEL_RESTORE, PANEL_READ,
the holdoff end and the refresh deadline. -/

namespace Sys2Proof.Machine

/-! ## PANEL_DEFINE (R80, R81) -/

/-- A geometry within the limits of its class (R80). -/
def geometryAccepted (cls : PanelClass) (width height : Nat) : Bool :=
  match cls with
  | .line => decide (64 ≤ width ∧ width ≤ 256 ∧ width % 8 = 0 ∧ 8 ≤ height ∧ height ≤ 32 ∧ height % 8 = 0)
  | .rows => decide (64 ≤ width ∧ width ≤ 256 ∧ width % 8 = 0 ∧ 16 ≤ height ∧ height ≤ 96 ∧ height % 8 = 0)
  | .wide => decide (264 ≤ width ∧ width ≤ 512 ∧ width % 16 = 0 ∧ 8 ≤ height ∧ height ≤ 32 ∧ height % 8 = 0)

/-- The record that a definition sets (R81), its interest still to be computed. -/
def definedPanel (address : Byte) (link : LinkId) (drop : Drop) (cls : PanelClass)
    (width height level refresh : Nat) (probeDue : Option Nat) : Panel :=
  { address := address, link := link, drop := drop, cls := cls, width := width, height := height, level := level,
    refresh := min 60 refresh, state := .offline, wake := CauseSet.none, interest := CauseSet.none, inFlight := none,
    ack := none, fullDemand := true, failures := 0, holdoff := none, refreshDeadline := none, probeDue := probeDue,
    probeMark := false, lastFrame := 0 }

/-- The stored definition (R81, log 9). -/
def Panel.definitionBytes (q : Panel) : List Byte :=
  [q.address] ++ b1 q.link.val ++ b1 q.drop.val ++ [q.cls.code] ++ b2 q.width ++ b1 q.height ++ b1 q.level ++ b1 q.refresh

/-- The record is UNDEFINED or OFFLINE (R81 check 3). -/
def mayDefine : Option Panel → Bool
  | none => true
  | some q => decide (q.state = .offline)

/-- A location held by another defined panel record (R81 check 4). -/
def Works.locationUsed (w : Works) (p : PanelId) (l : LinkId) (drop : Drop) : Bool :=
  w.panelList.any (fun x => decide (x.1 ≠ p ∧ x.2.link = l ∧ x.2.drop = drop))

/-- The moment a probe is due at once: now if the link is enabled, else absent (R81, R83). -/
def Works.probeAtOnce (w : Works) (l : LinkId) : Option Nat := if w.links[l].enabled then some w.now else none

/-- What a PANEL_DEFINE that passes its value checks does (R81, R116). -/
def definePanel (p : PanelId) (address : Byte) (link : LinkId) (drop : Drop) (cls : PanelClass)
    (width height level refresh : Nat) (c : Content) (d : Delivery) : Content × Delivery × Reply :=
  if !mayDefine d.works.panels[p] then (c, d, refuse .state)
  else if d.works.locationUsed p link drop then (c, d, refuse .inUse)
  else
    let q := definedPanel address link drop cls width height level refresh (d.works.probeAtOnce link)
    (c, d.mapWorks (fun w => ((w.dropResident p).setPasses p 0).setPanel p (q.refreshInterest c.board)),
      okWith q.definitionBytes)

/-- The value checks of a PANEL_DEFINE (R81 check 2). -/
def defineRequest (panel : Nat) (address : Byte) (link drop cls width height level refresh : Nat) (c : Content)
    (d : Delivery) : Content × Delivery × Reply :=
  match index? 64 panel, index? 8 link, index? 8 drop, panelClassOf cls with
  | some p, some l, some x, some k =>
    if (level = 1 ∨ level = 2) ∧ geometryAccepted k width height then
      definePanel p address l x k width height level refresh c d
    else (c, d, refuse .badValue)
  | _, _, _, _ => (c, d, refuse .badValue)

/-- PANEL_DEFINE (R81). -/
def execPanelDefine (p : PortId) (panel : Nat) (address : Byte) (link drop cls width height level refresh : Nat)
    (s : State) : Answer :=
  request p (.panelDefine p panel address link drop cls width height level refresh)
    (supervised p (defineRequest panel address link drop cls width height level refresh)) s

/-! ## PANEL_REMOVE (R82, R116) -/

/-- Steps 1 and 2 of R82: the work on the panel's frame abandoned without a report, and the lanes freed (R116). -/
def Works.abandonWork (p : PanelId) (q : Panel) (w : Works) : Works :=
  match q.state with
  | .loaded => (w.lanesServing p).foldl Works.freeLane (w.dropFrame q.link)
  | .sending => w.dropFrame q.link
  | .offline => w
  | .parked => w
  | .ready => w
  | .isolated => w

/-- The rest of what PANEL_REMOVE does to the lanes and their scheduling (R116). -/
def Works.forgetPanel (p : PanelId) (w : Works) : Works := ((w.dropResident p).endClaimOf p).setPasses p 0

/-- The panel leaves its swap group: a drop-out of a swap in progress, and no longer a member (R82, R176). -/
def Delivery.leaveGroup (b : Board) (p : PanelId) (d : Delivery) : Delivery :=
  let d1 := d.dropOut b p
  { d1 with groups := mapTable (fun g => { g with members := g.members.filter (fun x => decide (x ≠ p)) }) d1.groups }

/-- The record UNDEFINED (R82 step 6). -/
def Works.clearPanel (p : PanelId) (w : Works) : Works := { w with panels := w.panels.set p none }

/-- The removal of a defined panel (R82). -/
def removePanel (b : Board) (p : PanelId) (q : Panel) (d : Delivery) : Delivery :=
  let d1 := d.mapWorks (fun w => (w.abandonWork p q).forgetPanel p)
  ((d1.leaveGroup b p).mapWorks (Works.clearPanel p)).checkConfirmations b

/-- What a PANEL_REMOVE does (R82). -/
def removeRequest (panel : Nat) (c : Content) (d : Delivery) : Content × Delivery × Reply :=
  match index? 64 panel with
  | none => (c, d, refuse .badValue)
  | some p =>
    match d.works.panels[p] with
    | none => (c, d, okWith [])
    | some q => (c, removePanel c.board p q d, okWith [])

/-- PANEL_REMOVE (R82). -/
def execPanelRemove (p : PortId) (panel : Nat) (s : State) : Answer :=
  request p (.panelRemove p panel) (supervised p (removeRequest panel)) s

/-! ## PANEL_RESTORE and PANEL_READ (R83, R84) -/

/-- What a PANEL_RESTORE does (R83). -/
def restoreRequest (panel : Nat) (c : Content) (d : Delivery) : Content × Delivery × Reply :=
  match index? 64 panel with
  | none => (c, d, refuse .badValue)
  | some p =>
    match d.works.panels[p] with
    | none => (c, d, refuse .state)
    | some q =>
      if q.state ≠ .isolated then (c, d, refuse .state)
      else
        (c, d.mapWorks (Works.setPanel p
          { q with failures := 0, state := .offline, probeDue := d.works.probeAtOnce q.link }), okWith [])

/-- PANEL_RESTORE (R83). -/
def execPanelRestore (p : PortId) (panel : Nat) (s : State) : Answer :=
  request p (.panelRestore p panel) (supervised p (restoreRequest panel)) s

/-- An acknowledged record: 00h UNKNOWN, or 01h KNOWN with generation, frame digest and strip digests (R84). -/
def ackBytes : Option AckRecord → List Byte
  | none => [0]
  | some r => [1] ++ b4 r.generation ++ digestBytes r.frame ++ b1 r.strips.length ++ r.strips.flatMap digestBytes

/-- A panel record as PANEL_READ returns it (R84, log 9): in-flight causes in SENDING, serving lanes in LOADED. -/
def Panel.bytes (now : Nat) (lanes : List LaneId) (q : Panel) : List Byte :=
  [q.state.code] ++ q.definitionBytes ++ b2 q.wake.bits ++ b2 q.interest.bits ++
    bOpt b2 (q.inFlight.map CauseSet.bits) ++ ackBytes q.ack ++ bFlag q.fullDemand ++ b1 q.failures ++
    bOpt b4 (q.holdoff.map (timeLeft now)) ++ bOpt b4 (q.refreshDeadline.map (timeLeft now)) ++
    bOpt b4 (q.probeDue.map (timeLeft now)) ++ [q.lastFrame] ++ bList b1 (lanes.map Fin.val)

/-- What a PANEL_READ answers (R84). -/
def readPanel (panel : Nat) (w : Works) : Reply :=
  match index? 64 panel with
  | none => refuse .badValue
  | some p =>
    match w.panels[p] with
    | none => okWith [0]
    | some q => okWith (q.bytes w.now (if q.state = .loaded then w.lanesServing p else []))

/-- PANEL_READ (R84). -/
def execPanelRead (p : PortId) (panel : Nat) (s : State) : Answer :=
  query p (.panelRead p panel) (fun _ d => readPanel panel d.works) s

/-! ## Holdoff end and refresh deadline (R88, R92) -/

/-- The holdoff deadline of a panel is reached (R92). -/
def endHoldoff (p : PanelId) (c : Content) (d : Delivery) : Delivery :=
  match d.works.panels[p] with
  | none => d
  | some q =>
    match q.holdoff with
    | none => d
    | some t => ((d.reach t).mapWorks (Works.setPanel p { q with holdoff := none })).raise c.board .retry p

/-- HOLDOFF_END (R92). -/
def execHoldoffEnd (p : PanelId) (s : State) : Answer := event (endHoldoff p) s

/-- The refresh deadline of a panel is reached (R88). -/
def reachRefresh (p : PanelId) (c : Content) (d : Delivery) : Delivery :=
  match d.works.panels[p] with
  | none => d
  | some q =>
    match q.refreshDeadline with
    | none => d
    | some t =>
      ((d.reach t).mapWorks (Works.putPanel p { q with refreshDeadline := none, fullDemand := true })).raise c.board
        .refresh p

/-- REFRESH_DEADLINE (R88). -/
def execRefreshDeadline (p : PanelId) (s : State) : Answer := event (reachRefresh p) s

end Sys2Proof.Machine
end

