-- ==== Sys2Proof/Machine/Lists.lean ====
section
/-! DEFINITION. Departure lists and figures (chapters 1 and 2): order keys, figures, the list requests, the destination
table, and the per-second pass. -/

namespace Sys2Proof.Machine

/-! ## Entries and their order (R2 to R5) -/

/-- The prediction an entry carries (R3). -/
def EntryState.prediction : EntryState → Option Prediction
  | .planned => none
  | .tracked p => some p
  | .arrived p _ => p
  | .cancelled _ => none

/-- The effective time: predicted if present, otherwise scheduled (R2). -/
def Entry.effective (e : Entry) : Nat :=
  match e.state.prediction with
  | some p => p.time
  | none => e.scheduled

/-- The rank: 0 for ARRIVED, 1 otherwise (R4). -/
def Entry.rank (e : Entry) : Nat :=
  match e.state with
  | .arrived _ _ => 0
  | .planned => 1
  | .tracked _ => 1
  | .cancelled _ => 1

/-- One order key sorts before another (R4). -/
def Entry.before (a b : Entry) : Bool :=
  decide (a.rank < b.rank ∨ (a.rank = b.rank ∧
    (a.effective < b.effective ∨ (a.effective = b.effective ∧ a.trip < b.trip))))

/-- An entry placed at the position its key requires (R5, R6). -/
def placeEntry (e : Entry) : List Entry → List Entry
  | [] => [e]
  | x :: xs => if e.before x then e :: x :: xs else x :: placeEntry e xs

/-- A list without the entry of a trip (R12). -/
def removeTrip (trip : Nat) (es : List Entry) : List Entry := es.filter (fun e => decide (e.trip ≠ trip))

/-- The entry of a trip. -/
def findTrip (trip : Nat) (es : List Entry) : Option Entry := es.find? (fun e => decide (e.trip = trip))

/-- The trips of a list in list order. -/
def tripsOf (es : List Entry) : List Nat := es.map (fun e => e.trip)

/-- One list written. -/
def Content.setList (l : ListId) (es : List Entry) (c : Content) : Content := { c with lists := c.lists.set l es }

/-! ## Figures (R38 to R40) -/

/-- The minutes of a figure for hysteresis: DUE counts as 0; other kinds hold nothing back (R39). -/
def Figure.minutes? : Figure → Option Nat
  | .minutes m => some m
  | .due => some 0
  | .clock _ _ => none
  | .atPlatform => none
  | .cancelled => none

/-- The raw minutes of a remaining time, halves upward (R38 stages 3 and 4). -/
def rawMinutes (effective now : Nat) : Nat := (effective - now + 30) / 60

/-- A one-minute rise is held back (R39). `hysteresis` says that the recomputation applies it; `delta` is the revision
delta of a DEP_PREDICT. -/
def holdsRise (set : Settings) (hysteresis : Bool) (delta : Option Int) (previous : Option Figure) (m : Nat) : Bool :=
  hysteresis &&
    decide ((previous.bind Figure.minutes?).map (· + 1) = some m) &&
    (match delta with
      | none => true
      | some v => decide (v < set.threshold))

/-- The figure of a clock form (R40). -/
def clockFigure (second : Nat) : Figure := .clock (clockForm second).1 (clockForm second).2

/-- The computation of an entry's figure, stage by stage (R38, R39). -/
def computeFigure (k : Clock) (set : Settings) (hysteresis : Bool) (delta : Option Int) (previous : Option Figure)
    (e : Entry) : Figure :=
  match e.state with
  | .cancelled _ => .cancelled
  | .arrived _ _ => .atPlatform
  | .planned | .tracked _ =>
    if k.state = .unset then clockFigure e.effective
    else
      let m := rawMinutes e.effective k.second
      if set.horizon < m then clockFigure e.effective
      else if holdsRise set hysteresis delta previous m then previous.getD .due
      else if m = 0 then .due
      else .minutes m

/-- An entry with its figure recomputed. -/
def Content.refigure (c : Content) (hysteresis : Bool) (delta : Option Int) (e : Entry) : Entry :=
  { e with figure := computeFigure c.clock c.settings hysteresis delta (some e.figure) e }

/-! ## Wake causes of the lists (R21, R22) -/

/-- The placard is of kind DEPARTURES and its list is `l`. -/
def Placard.namesList (l : ListId) (pl : Placard) : Bool :=
  match pl.content with
  | .departures list _ _ _ _ => decide (list = l)
  | .text _ _ _ => false
  | .ticker _ => false
  | .clock _ => false
  | .glyph _ _ => false

/-- A cause raised on every panel that draws a DEPARTURES placard naming a list (R21). -/
def raiseList (b : Board) (cause : Cause) (l : ListId) (d : Delivery) : Delivery :=
  d.raiseWhere b cause (b.draws (Placard.namesList l))

/-- CONTENT and FIGURE as a list change requires them (R21, R22). -/
def raiseListChange (b : Board) (l : ListId) (content figure : Bool) (d : Delivery) : Delivery :=
  let d := if content then raiseList b .content l d else d
  if figure then raiseList b .figure l d else d

/-! ## Requests that name an entry (R7) -/

/-- The value checks of a list request: list, trip, and what else the request names (R7). -/
def listRequest (list trip : Nat) (valid : Bool)
    (f : ListId → Content → Delivery → Content × Delivery × Reply) (c : Content) (d : Delivery) :
    Content × Delivery × Reply :=
  match index? 16 list with
  | none => (c, d, refuse .badValue)
  | some l => if 1 ≤ trip ∧ trip ≤ 16777215 ∧ valid then f l c d else (c, d, refuse .badValue)

/-- A list request whose trip must be present: NOT_FOUND otherwise (R7). -/
def entryRequest (list trip : Nat) (f : ListId → Entry → Content → Delivery → Content × Delivery × Reply) :
    Content → Delivery → Content × Delivery × Reply :=
  listRequest list trip true (fun l c d =>
    match findTrip trip c.lists[l] with
    | none => (c, d, refuse .notFound)
    | some e => f l e c d)

/-- The list with the entry `old` placed again, as `new`, at the position its key requires, and whether it now stands at
another position, a reorder (R5). -/
def moveEntry (old new : Entry) (es : List Entry) : List Entry × Bool :=
  let es' := placeEntry new (removeTrip old.trip es)
  (es', decide (tripsOf es' ≠ tripsOf es))

/-- A changed entry placed again at the position its key requires, its figure recomputed, and the causes raised for what
changed (R5, R21, R22, R37). -/
def changeEntry (l : ListId) (old new : Entry) (delta : Option Int) (c : Content) (d : Delivery) : Content × Delivery :=
  let new := c.refigure true delta new
  let r := moveEntry old new c.lists[l]
  (c.setList l r.1,
    raiseListChange c.board l (r.2 || decide (old.line ≠ new.line ∨ old.destination ≠ new.destination))
      (decide (old.figure ≠ new.figure)) d)

/-- A new PLANNED entry (R8); its first figure is taken without hysteresis. -/
def newEntry (c : Content) (p : PortId) (trip line destination scheduled : Nat) : Entry :=
  let e : Entry := ⟨trip, line, destination, scheduled, .planned, .due, p⟩
  { e with figure := computeFigure c.clock c.settings false none none e }

/-- The insertion of a new entry (R6): into a full list by eviction of the last entry, or LIST_FULL. -/
def insertEntry (l : ListId) (e : Entry) (c : Content) (d : Delivery) : Content × Delivery × Reply :=
  let es := c.lists[l]
  if es.length < 12 then
    (c.setList l (placeEntry e es), raiseList c.board .content l d, okWith [Outcome.inserted.code])
  else
    match es.getLast? with
    | none => (c, d, refuse .listFull)
    | some last =>
      if e.before last then
        (c.setList l (placeEntry e es.dropLast),
          raiseList c.board .content l (d.notify (.listEvict l last.trip) last.source), okWith [Outcome.inserted.code])
      else (c, d, refuse .listFull)

/-- The state after a DEP_PUT: a CANCELLED entry is reinstated, any other state is kept (R8). -/
def EntryState.reinstate : EntryState → EntryState
  | .cancelled _ => .planned
  | .planned => .planned
  | .tracked p => .tracked p
  | .arrived p stamp => .arrived p stamp

/-- The outcome of a DEP_PUT on a present trip (R8). -/
def EntryState.putOutcome : EntryState → Outcome
  | .cancelled _ => .reinstated
  | .planned => .updated
  | .tracked _ => .updated
  | .arrived _ _ => .updated

/-- What a DEP_PUT does (R8). -/
def putTrip (p : PortId) (trip line destination scheduled : Nat) (l : ListId) (c : Content) (d : Delivery) :
    Content × Delivery × Reply :=
  match findTrip trip c.lists[l] with
  | none => insertEntry l (newEntry c p trip line destination scheduled) c d
  | some e =>
    let new := { e with
      line := line, destination := destination, scheduled := scheduled, state := e.state.reinstate, source := p }
    let r := changeEntry l e new none c d
    (r.1, r.2, okWith [e.state.putOutcome.code])

/-- DEP_PUT (R8). -/
def execDepPut (p : PortId) (list trip line destination scheduled : Nat) (s : State) : Answer :=
  request p (.depPut p list trip line destination scheduled)
    (listRequest list trip (decide (line ≤ 63 ∧ destination ≤ 127 ∧ scheduled ≤ 107999))
      (putTrip p trip line destination scheduled)) s

/-- The state of an entry that takes a prediction; none for CANCELLED, which refuses it (R9). -/
def EntryState.predict (q : Prediction) : EntryState → Option EntryState
  | .planned => some (.tracked q)
  | .tracked _ => some (.tracked q)
  | .arrived _ stamp => some (.arrived (some q) stamp)
  | .cancelled _ => none

/-- What a DEP_PREDICT does to a present trip (R9). -/
def predictTrip (p : PortId) (predicted : Nat) (l : ListId) (e : Entry) (c : Content) (d : Delivery) :
    Content × Delivery × Reply :=
  match e.state.predict ⟨min predicted 107999, c.clock.second⟩ with
  | none => (c, d, refuse .state)
  | some state =>
    let new := { e with state := state, source := p }
    let r := changeEntry l e new (some ((new.effective : Int) - e.effective)) c d
    (r.1, r.2, okWith [])

/-- DEP_PREDICT (R9). -/
def execDepPredict (p : PortId) (list trip predicted : Nat) (s : State) : Answer :=
  request p (.depPredict p list trip predicted) (entryRequest list trip (predictTrip p predicted)) s

/-- The state of an entry whose train is at the platform; an ARRIVED entry keeps its stamp (R10). -/
def EntryState.arrive (now : Nat) : EntryState → EntryState
  | .planned => .arrived none now
  | .tracked q => .arrived (some q) now
  | .arrived q stamp => .arrived q stamp
  | .cancelled _ => .arrived none now

/-- What a DEP_ARRIVE does to a present trip (R10). -/
def arriveTrip (p : PortId) (l : ListId) (e : Entry) (c : Content) (d : Delivery) : Content × Delivery × Reply :=
  let r := changeEntry l e { e with state := e.state.arrive c.clock.second, source := p } none c d
  (r.1, r.2, okWith [])

/-- DEP_ARRIVE (R10). -/
def execDepArrive (p : PortId) (list trip : Nat) (s : State) : Answer :=
  request p (.depArrive p list trip) (entryRequest list trip (arriveTrip p)) s

/-- What a DEP_DEPART does to a present trip (R12). -/
def departTrip (l : ListId) (e : Entry) (c : Content) (d : Delivery) : Content × Delivery × Reply :=
  (c.setList l (removeTrip e.trip c.lists[l]), raiseList c.board .content l d, okWith [])

/-- DEP_DEPART (R12). -/
def execDepDepart (p : PortId) (list trip : Nat) (s : State) : Answer :=
  request p (.depDepart p list trip) (entryRequest list trip departTrip) s

/-- The state of a cancelled entry; a CANCELLED one keeps its linger deadline (R11). -/
def Entry.cancelState (e : Entry) (now linger : Nat) : EntryState :=
  match e.state with
  | .cancelled t => .cancelled t
  | .planned => .cancelled (max e.scheduled now + linger)
  | .tracked _ => .cancelled (max e.scheduled now + linger)
  | .arrived _ _ => .cancelled (max e.scheduled now + linger)

/-- What a DEP_CANCEL does to a present trip (R11). -/
def cancelTrip (p : PortId) (l : ListId) (e : Entry) (c : Content) (d : Delivery) : Content × Delivery × Reply :=
  let new := { e with state := e.cancelState c.clock.second c.settings.cancelLinger, source := p }
  let r := changeEntry l e new none c d
  (r.1, r.2, okWith [])

/-- DEP_CANCEL (R11). -/
def execDepCancel (p : PortId) (list trip : Nat) (s : State) : Answer :=
  request p (.depCancel p list trip) (entryRequest list trip (cancelTrip p)) s

/-- The fields of an entry in the order of R2 (R13, log 9). -/
def Entry.bytes (e : Entry) : List Byte :=
  let arrival := match e.state with
    | .arrived _ stamp => some stamp
    | .planned => none
    | .tracked _ => none
    | .cancelled _ => none
  let linger := match e.state with
    | .cancelled t => some t
    | .planned => none
    | .tracked _ => none
    | .arrived _ _ => none
  b3 e.trip ++ b1 e.line ++ b1 e.destination ++ b3 e.scheduled ++
    bOpt b3 (e.state.prediction.map (fun q => q.time)) ++ bOpt b3 (e.state.prediction.map (fun q => q.stamp)) ++
    [e.state.code] ++ bOpt b3 arrival ++ bOpt b3 linger ++ e.figure.bytes ++ b1 e.source.val

/-- What a DEP_READ answers (R13). -/
def readList (list : Nat) (c : Content) : Reply :=
  match index? 16 list with
  | none => refuse .badValue
  | some l => okWith (b1 c.lists[l].length ++ c.lists[l].flatMap Entry.bytes)

/-- DEP_READ (R13). -/
def execDepRead (p : PortId) (list : Nat) (s : State) : Answer :=
  query p (.depRead p list) (fun c _ => readList list c) s

/-! ## Destination table (R14, R15) -/

/-- The list holds an entry with the destination. -/
def goesTo (destination : Nat) (es : List Entry) : Bool := es.any (fun e => decide (e.destination = destination))

/-- The placard is of kind DEPARTURES and its list holds an entry with the destination (R15). -/
def Content.listsDestination (c : Content) (destination : Nat) (pl : Placard) : Bool :=
  match pl.content with
  | .departures list _ _ _ _ => goesTo destination c.lists[list]
  | .text _ _ _ => false
  | .ticker _ => false
  | .clock _ => false
  | .glyph _ _ => false

/-- What a DEST_SET does (R15). -/
def setDestination (index : Nat) (text : List Nat) (c : Content) (d : Delivery) : Content × Delivery × Reply :=
  match index? 128 index with
  | none => (c, d, refuse .badValue)
  | some i =>
    if !textValid 24 text then (c, d, refuse .badValue)
    else if c.destinations[i] = text then (c, d, okWith [])
    else ({ c with destinations := c.destinations.set i text },
      d.raiseWhere c.board .content (c.board.draws (c.listsDestination index)), okWith [])

/-- DEST_SET (R15). -/
def execDestSet (p : PortId) (index : Nat) (text : List Nat) (s : State) : Answer :=
  request p (.destSet p index text) (setDestination index text) s

/-! ## The per-second pass (R16 to R20) -/

/-- The staleness check (R17): the entry after it, and whether it lost its prediction. -/
def Entry.stale (set : Settings) (now : Nat) (e : Entry) : Entry × Bool :=
  match e.state with
  | .tracked q => if q.stamp + set.staleness < now then ({ e with state := .planned }, true) else (e, false)
  | .planned => (e, false)
  | .arrived _ _ => (e, false)
  | .cancelled _ => (e, false)

/-- The overdue and arrival checks remove the entry (R18). -/
def Entry.expires (set : Settings) (now : Nat) (e : Entry) : Bool :=
  match e.state with
  | .planned => decide (e.effective + set.overdue < now)
  | .tracked _ => decide (e.effective + set.overdue < now)
  | .arrived _ stamp => decide (stamp + set.arrivalLinger < now)
  | .cancelled _ => false

/-- The cancel linger check removes the entry (R19). -/
def Entry.lingersOut (now : Nat) (e : Entry) : Bool :=
  match e.state with
  | .cancelled t => decide (t < now)
  | .planned => false
  | .tracked _ => false
  | .arrived _ _ => false

/-- The pass over one entry: what remains of it, and the notices to its source port in order (R17 to R19). -/
def Entry.pass (set : Settings) (l : ListId) (now : Nat) (e : Entry) : Option Entry × List Notice :=
  let r := e.stale set now
  let early := if r.2 then [Notice.predictionStale l e.trip] else []
  if r.1.expires set now then (none, early ++ [Notice.entryExpired l e.trip])
  else if r.1.lingersOut now then (none, early)
  else (some r.1, early)

/-- The checks of one entry in the list as the checks of the entries before it left it: the entry is removed, or placed
again by its key. The flag says whether an entry was removed or reordered so far (R5, R16 to R19, R21). -/
def passEntry (set : Settings) (l : ListId) (now : Nat) (r : List Entry × Bool) (e : Entry) : List Entry × Bool :=
  match (e.pass set l now).1 with
  | none => (removeTrip e.trip r.1, true)
  | some new =>
    let m := moveEntry e new r.1
    (m.1, r.2 || m.2)

/-- The checks of the pass over a list, each entry once (R16), and whether an entry was removed or reordered. Every move is
judged as it is made (R5), so moves that cancel out are reorders. MODEL'S READING (log 29): from the top of the list as it
stood before the pass. -/
def passChecks (set : Settings) (l : ListId) (now : Nat) (es : List Entry) : List Entry × Bool :=
  es.foldl (passEntry set l now) (es, false)

/-- A list after the pass: what remains in the order of the keys, figures recomputed after the checks (R16). -/
def passList (c : Content) (hysteresis : Bool) (l : ListId) (now : Nat) (es : List Entry) : List Entry :=
  (passChecks c.settings l now es).1.map (c.refigure hysteresis none)

/-- Some entry that remains has a figure other than before. -/
def figuresChanged (before after : List Entry) : Bool :=
  after.any (fun e => decide ((findTrip e.trip before).map (fun o => o.figure) ≠ some e.figure))

/-- The notices of the pass over a list, in list order. -/
def passNotices (c : Content) (l : ListId) (now : Nat) (es : List Entry) (d : Delivery) : Delivery :=
  es.foldl (fun d e => ((e.pass c.settings l now).2).foldl (fun d n => d.notify n e.source) d) d

/-- The pass over one list with its notices and causes (R16, R21, R22). -/
def passOne (hysteresis : Bool) (now : Nat) (cd : Content × Delivery) (l : ListId) : Content × Delivery :=
  let c := cd.1
  let es := c.lists[l]
  let es' := passList c hysteresis l now es
  (c.setList l es', raiseListChange c.board l (passChecks c.settings l now es).2 (figuresChanged es es')
    (passNotices c l now es cd.2))

/-- The per-second pass over all lists (R16). -/
def listPass (hysteresis : Bool) (now : Nat) (c : Content) (d : Delivery) : Content × Delivery :=
  (List.finRange 16).foldl (passOne hysteresis now) (c, d)

/-- The stamps of an entry set to the second at which the clock leaves UNSET (R20). -/
def Entry.restamp (now : Nat) (e : Entry) : Entry :=
  { e with state := match e.state with
      | .planned => .planned
      | .tracked q => .tracked { q with stamp := now }
      | .arrived q _ => .arrived (q.map (fun q => { q with stamp := now })) now
      | .cancelled t => .cancelled t }

/-- Every list restamped (R20). -/
def Content.restamp (now : Nat) (c : Content) : Content :=
  { c with lists := mapTable (List.map (Entry.restamp now)) c.lists }

/-- The figures of one list recomputed without hysteresis, and FIGURE raised where one changed (R41). -/
def refigureList (cd : Content × Delivery) (l : ListId) : Content × Delivery :=
  let es := cd.1.lists[l]
  let es' := es.map (cd.1.refigure false none)
  (cd.1.setList l es', raiseListChange cd.1.board l false (decide (es' ≠ es)) cd.2)

/-- Every figure recomputed without hysteresis (R41). -/
def refigureAll (c : Content) (d : Delivery) : Content × Delivery := (List.finRange 16).foldl refigureList (c, d)

/-- The lists emptied without notices (R24, R25). -/
def Content.emptyLists (c : Content) : Content := { c with lists := Vector.replicate 16 [] }

/-- CONTENT on every panel that draws a list that held an entry (R24). -/
def raiseEmptied (c : Content) (d : Delivery) : Delivery :=
  d.raiseWhere c.board .content (c.board.draws (fun pl =>
    (List.finRange 16).any (fun l => pl.namesList l && !c.lists[l].isEmpty)))

end Sys2Proof.Machine
end

