-- ==== Sys2Proof/Machine/Clock.lean ====
section
/-! DEFINITION. The station clock (sections 2.1 and 2.2): its settings, its count interval, the second, minute and blink
events it hands out, NEW_DAY, and SETTINGS (R190). The evaluation of validity windows (R48, R49) is here, since a second
event carries it. -/

namespace Sys2Proof.Machine

/-- The last value of the service day. -/
def clockLimit : Nat := 10799999

/-! ## Validity windows (R48, R49) -/

/-- A placard with a window (R48). -/
def Placard.hasWindow (pl : Placard) : Bool := pl.windowStart.isSome || pl.windowEnd.isSome

/-- The state of a placard: LIVE, or DORMANT for false (R48). -/
def Placard.liveAt (k : ClockState) (now : Nat) (pl : Placard) : Bool :=
  if pl.hasWindow then
    decide (k ≠ .unset) && optOk (fun t => decide (t ≤ now)) pl.windowStart && optOk (fun t => decide (now < t)) pl.windowEnd
  else true

/-- The cause of a change of a placard of a layer (R59). -/
def layerCause (layer : Nat) : Cause := if layer = 3 then .urgent else .content

/-- A placard of the board written. -/
def Content.setPlacard (n : PlacardId) (pl : Option Placard) (c : Content) : Content :=
  { c with board := { c.board with placards := c.board.placards.set n pl } }

/-- The window of one placard evaluated: a window transition recomputes interest and raises the cause of the layer, in
this order (R49). -/
def evaluateWindow (now : Nat) (cd : Content × Delivery) (n : PlacardId) : Content × Delivery :=
  match cd.1.board.placards[n] with
  | none => cd
  | some pl =>
    let live := pl.liveAt cd.1.clock.state now
    if pl.hasWindow && decide (live ≠ pl.live) then
      let c := cd.1.setPlacard n (some { pl with live := live })
      let d := cd.2.mapWorks (Works.recomputeInterest c.board pl.matchesPanel)
      (c, d.raiseWhere c.board (layerCause pl.layer) pl.matchesPanel)
    else cd

/-- The placards that have a window, by rising number. -/
def Board.windowed (b : Board) : List PlacardId :=
  (((List.finRange 192).zip b.placards.toList).filter (fun x => x.2.any Placard.hasWindow)).map (fun x => x.1)

/-- The windows of all placards evaluated (R49). -/
def evaluateWindows (now : Nat) (c : Content) (d : Delivery) : Content × Delivery :=
  c.board.windowed.foldl (evaluateWindow now) (c, d)

/-! ## The events the clock raises (R34 to R36) -/

/-- A second event: the per-second pass, then the windows (R34). -/
def secondEvent (hysteresis : Bool) (c : Content) (d : Delivery) : Content × Delivery :=
  let r := listPass hysteresis c.clock.second c d
  evaluateWindows c.clock.second r.1 r.2

/-- CLOCK on every panel that draws a CLOCK placard (R35). -/
def raiseMinute (b : Board) (d : Delivery) : Delivery :=
  d.raiseWhere b .clock (b.draws (fun pl => pl.content.isClock))

/-- BLINK on every panel that draws a blinking placard (R36). -/
def raiseBlink (b : Board) (d : Delivery) : Delivery := d.raiseWhere b .blink (b.draws (fun pl => pl.blink))

/-- The events of one change of the clock's value, in the order of R28: the second event, CLOCK, BLINK. -/
def clockEvents (second minute blink hysteresis : Bool) (c : Content) (d : Delivery) : Content × Delivery :=
  let r := if second then secondEvent hysteresis c d else (c, d)
  let d1 := if minute then raiseMinute r.1.board r.2 else r.2
  (r.1, if blink then raiseBlink r.1.board d1 else d1)

/-- The notice of entering LIMIT, in every port (R27). -/
def limitNotice (entered : Bool) (d : Delivery) : Delivery := if entered then d.notifyAll (.clockLimit 107999) else d

/-! ## CLOCK_SET (R28, R29, R31) -/

/-- The clock set to a value: RUNNING, or LIMIT at the last value (R28, R29, R32). -/
def Clock.at (t : Nat) : Clock := ⟨t, if t = clockLimit then .limit else .running, 0⟩

/-- The data of a CLOCK_SET response: outcome, value, state. -/
def clockReply (o : Outcome) (k : Clock) : Reply := okWith (o.code :: (b4 k.value ++ [k.state.code]))

/-- CLOCK_SET in UNSET (R28): BLINK if the blink phase differs from that of value 0, which is on. -/
def startClock (t : Nat) (c : Content) (d : Delivery) : Content × Delivery × Reply :=
  let k := Clock.at t
  let c' := { c.restamp k.second with clock := k }
  let r := clockEvents true true (!k.phaseOn) false c' d
  (r.1, limitNotice (decide (k.state = .limit)) r.2, clockReply .started k)

/-- A CLOCK_SET that steps (R29, R31). -/
def stepClock (t : Nat) (c : Content) (d : Delivery) : Content × Delivery × Reply :=
  let k := Clock.at t
  let r := clockEvents true (decide (k.second / 60 ≠ c.clock.second / 60)) (decide (k.phaseOn ≠ c.clock.phaseOn)) false
    { c with clock := k } d
  (r.1, limitNotice (decide (k.state = .limit)) r.2, clockReply .stepped k)

/-- A CLOCK_SET that slews (R29, R31). A difference of 0 leaves the clock RUNNING, and RUNNING at the last value enters
LIMIT (R27, log 18). -/
def slewClock (v : Int) (c : Content) (d : Delivery) : Content × Delivery × Reply :=
  let k : Clock :=
    if v = 0 then Clock.at c.clock.value else { c.clock with state := .slewing, slew := v }
  ({ c with clock := k }, limitNotice (decide (k.state = .limit)) d, clockReply .slewed k)

/-- What a CLOCK_SET does. -/
def setClock (t : Nat) (c : Content) (d : Delivery) : Content × Delivery × Reply :=
  let v : Int := (t : Int) - c.clock.value
  if clockLimit < t then (c, d, refuse .badValue)
  else
    match c.clock.state with
    | .unset => startClock t c d
    | .limit => if v = 0 then (c, d, clockReply .held c.clock) else if -200 ≤ v then slewClock v c d else stepClock t c d
    | .running | .slewing => if -200 ≤ v ∧ v ≤ 200 then slewClock v c d else stepClock t c d

/-- CLOCK_SET (R28, R29, R31). -/
def execClockSet (p : PortId) (t : Nat) (s : State) : Answer := request p (.clockSet p t) (setClock t) s

/-! ## NEW_DAY and CLOCK_READ (R32, R33) -/

/-- What a NEW_DAY does (R32). -/
def newDay (t : Nat) (c : Content) (d : Delivery) : Content × Delivery × Reply :=
  if clockLimit < t then (c, d, refuse .badValue)
  else
    let d1 := raiseEmptied c d
    let k := Clock.at t
    let r := evaluateWindows k.second { c.emptyLists with clock := k } d1
    let e := clockEvents true true (decide (k.phaseOn ≠ c.clock.phaseOn)) false r.1 r.2
    (e.1, limitNotice (decide (k.state = .limit)) e.2, okWith (b4 k.value ++ [k.state.code]))

/-- NEW_DAY (R32). -/
def execNewDay (p : PortId) (t : Nat) (s : State) : Answer := request p (.newDay p t) (supervised p (newDay t)) s

/-- What a CLOCK_READ answers (R33). -/
def readClock (k : Clock) : Reply := okWith (b4 k.value ++ b3 k.second ++ [k.state.code] ++ bSigned k.slew)

/-- CLOCK_READ (R33). -/
def execClockRead (p : PortId) (s : State) : Answer := query p (.clockRead p) (fun c _ => readClock c.clock) s

/-! ## The count interval (R27, R30) -/

/-- The value and slew after one count interval, before LIMIT is judged (R27, R30). -/
def Clock.advance (k : Clock) : Clock :=
  match k.state with
  | .unset => k
  | .limit => k
  | .running => { k with value := min clockLimit (k.value + 1) }
  | .slewing =>
    if 0 < k.slew then
      { value := min clockLimit (k.value + 2), slew := k.slew - 1, state := if k.slew - 1 = 0 then .running else .slewing }
    else { k with slew := k.slew + 1, state := if k.slew + 1 = 0 then .running else .slewing }

/-- The clock enters LIMIT: its value becomes the last value, or it is RUNNING at the last value (R27). -/
def Clock.entersLimit (before after : Clock) : Bool :=
  decide (after.value = clockLimit) &&
    (decide (after.state = .running) || (decide (after.state = .slewing) && decide (before.value ≠ after.value)))

/-- The clock after one count interval (R27, R30). -/
def Clock.count (k : Clock) : Clock :=
  if k.entersLimit k.advance then ⟨clockLimit, .limit, 0⟩ else k.advance

/-- What a count interval does: the clock counts, and the events of its change of value follow (R27, R30, R34 to R36). -/
def countClock (c : Content) (d : Delivery) : Content × Delivery :=
  let k := c.clock.count
  let r := clockEvents (decide (k.second ≠ c.clock.second)) (decide (k.second / 60 ≠ c.clock.second / 60))
    (decide (k.phaseOn ≠ c.clock.phaseOn)) true { c with clock := k } d
  (r.1, limitNotice (c.clock.entersLimit c.clock.advance) r.2)

/-- COUNT_INTERVAL (R27): the next interval is due 10 ms later. -/
def execCountInterval (s : State) : Answer :=
  contentEvent (fun c d => countClock c (d.reach s.nextCount)) { s with nextCount := s.nextCount + 10 }

/-! ## SETTINGS (R190) -/

/-- A pair stored with its value clamped; none for a code that names no parameter (R23, R41, R190). -/
def Settings.store (code v : Nat) (x : Settings) : Option (Settings × Nat) :=
  match code with
  | 0 => some ({ x with horizon := clampTo 10 99 v }, clampTo 10 99 v)
  | 1 => some ({ x with threshold := clampTo 15 120 v }, clampTo 15 120 v)
  | 2 => some ({ x with staleness := clampTo 60 900 v }, clampTo 60 900 v)
  | 3 => some ({ x with overdue := clampTo 60 3600 v }, clampTo 60 3600 v)
  | 4 => some ({ x with cancelLinger := clampTo 0 600 v }, clampTo 0 600 v)
  | 5 => some ({ x with arrivalLinger := clampTo 30 900 v }, clampTo 30 900 v)
  | _ => none

/-- The pairs stored in the order given, with what each stored; none if a code names no parameter (R190). -/
def Settings.storeAll : List (Nat × Nat) → Settings → Option (Settings × List (Nat × Nat))
  | [], x => some (x, [])
  | (code, v) :: rest, x =>
    match x.store code v with
    | none => none
    | some (y, stored) =>
      match Settings.storeAll rest y with
      | none => none
      | some (z, done) => some (z, (code, stored) :: done)

/-- The six values in force, in the order of the table (R190). -/
def Settings.bytes (x : Settings) : List Byte :=
  b2 x.horizon ++ b2 x.threshold ++ b2 x.staleness ++ b2 x.overdue ++ b2 x.cancelLinger ++ b2 x.arrivalLinger

/-- What a SETTINGS does (R41, R190). MODEL'S CHOICE (log 42): whether the stored horizon or revision threshold changed is
judged by their values before and after the whole request, so pairs that change one and set it back recompute nothing. -/
def changeSettings (pairs : List (Nat × Nat)) (c : Content) (d : Delivery) : Content × Delivery × Reply :=
  if 16 < pairs.length then (c, d, refuse .badValue)
  else
    match c.settings.storeAll pairs with
    | none => (c, d, refuse .badValue)
    | some (x, stored) =>
      let reply :=
        if pairs.isEmpty then okWith x.bytes
        else okWith (b1 stored.length ++ stored.flatMap (fun q => b1 q.1 ++ b2 q.2))
      if x.horizon = c.settings.horizon ∧ x.threshold = c.settings.threshold then ({ c with settings := x }, d, reply)
      else
        let r := refigureAll { c with settings := x } d
        (r.1, r.2, reply)

/-- SETTINGS (R190). -/
def execSettings (p : PortId) (pairs : List (Nat × Nat)) (s : State) : Answer :=
  request p (.settings p pairs) (supervised p (changeSettings pairs)) s

end Sys2Proof.Machine
end

