-- ==== Sys2Proof/Machine/Placards.lean ====
section
/-! DEFINITION. The board (chapter 3): its checks, POST, AMEND, TEXT_SET, WITHDRAW, BOARD_READ, and confirmations. -/

namespace Sys2Proof.Machine

/-! ## The text pool, the draw order, the generation -/

/-- The cells of a text of length `n`: n / 16 rounded up (R50). -/
def cellsFor (n : Nat) : Nat := (n + 15) / 16

/-- The cells a placard's content occupies (R44, R50). -/
def PlacardContent.cells : PlacardContent → Nat
  | .text chars _ _ => cellsFor chars.length
  | .departures _ _ _ _ _ => 0
  | .ticker _ => 0
  | .clock _ => 0
  | .glyph _ _ => 0

/-- The board generation advanced by 1, stopping at 4,294,967,295 (R58). -/
def nextGeneration (g : Nat) : Nat := min 4294967295 (g + 1)

/-- The layer of a placard number; 0 for a FREE one. -/
def Board.layerOf (b : Board) (n : PlacardId) : Nat :=
  match b.placards[n] with
  | some pl => pl.layer
  | none => 0

/-- A number appended at the end of a layer: before every placard of a higher layer (R47). -/
def Board.joinLayer (b : Board) (n : PlacardId) (layer : Nat) : List PlacardId → List PlacardId
  | [] => [n]
  | x :: xs => if layer < b.layerOf x then n :: x :: xs else x :: b.joinLayer n layer xs

/-- A draw order without a number. -/
def leaveOrder (n : PlacardId) (order : List PlacardId) : List PlacardId := order.filter (fun x => decide (x ≠ n))

/-- The lowest-numbered FREE placard (R53). -/
def Board.freeNumber (b : Board) : Option PlacardId := (List.finRange 192).find? (fun n => (b.placards[n]).isNone)

/-! ## Checks (R43, R44, R51) -/

/-- The window, taken as a whole: start before end when both are present (R43 note 2). -/
def windowOrdered (start stop : Option Nat) : Bool :=
  match start, stop with
  | some a, some b => decide (a < b)
  | none, _ => true
  | _, none => true

/-- A background code: a level, or 4 for CLEAR (chapter 13). -/
def backgroundOf (code : Nat) : Option (Option Nat) :=
  if code < 4 then some (some code) else if code = 4 then some none else none

/-- The kind fields of a POST within the ranges of R44. -/
def contentOf : ContentReq → Option PlacardContent
  | .text chars font align =>
    match index? 4 font, alignOf align with
    | some f, some a => if textValid 160 chars then some (.text chars f a) else none
    | _, _ => none
  | .departures list firstRow rowCount rowFont badgeFont =>
    match index? 16 list, index? 4 rowFont, index? 4 badgeFont with
    | some l, some r, some g =>
      if firstRow ≤ 11 ∧ 1 ≤ rowCount ∧ rowCount ≤ 12 then some (.departures l firstRow rowCount r g) else none
    | _, _, _ => none
  | .ticker t => (index? 8 t).map .ticker
  | .clock font => (index? 4 font).map .clock
  | .glyph font g =>
    match index? 4 font with
    | some f => if g < 512 then some (.glyph f g) else none
    | none => none
  | .unknown _ _ => none

/-- The hold a request names: none named, or one of 0–31 (R43 note 2). -/
def holdOf : Option Nat → Option (Option HoldId)
  | none => some none
  | some h => (index? 32 h).map some

/-- The placard a POST describes, its rectangle clamped (R43 note 1); none when a value is out of range (R51 check 1). -/
def postedPlacard (p : PortId) (f : PostReq) : Option Placard :=
  match contentOf f.content, backgroundOf f.background, holdOf f.hold with
  | some content, some background, some hold =>
    if f.layer ≤ 3 ∧ 1 ≤ f.foreground ∧ f.foreground ≤ 3 ∧ f.flags ≤ 3 ∧
        optOk (fun t => decide (t ≤ 107999)) f.windowStart ∧ optOk (fun t => decide (t ≤ 107999)) f.windowEnd ∧
        windowOrdered f.windowStart f.windowEnd then
      some { owner := p, base := f.base, mask := f.mask, x := min f.x 511, w := min f.w 512, y := min f.y 95,
             h := min f.h 96, layer := f.layer, content := content, foreground := f.foreground,
             background := background, blink := f.flags.testBit 0, invert := f.flags.testBit 1,
             windowStart := f.windowStart, windowEnd := f.windowEnd, hold := hold, generation := 0, live := false }
    else none
  | _, _, _ => none

/-- The port owns the hold, with it TAKEN (R51 check 6). -/
def Hold.takenBy (p : PortId) (h : Hold) : Bool :=
  match h.state with
  | .taken owner _ => decide (owner = p)
  | .empty => false
  | .handed _ _ _ => false

/-- The hold condition for an optional hold (R51). -/
def Content.holdMet (c : Content) (p : PortId) (h : Option HoldId) : Bool :=
  match h with
  | none => true
  | some h => c.holds[h].takenBy p

/-! ## Changes (R52, R58 to R60) -/

/-- A change of placard `n` from `old` to `new`, with the draw order and the cells in use after it: the placard stamped
and its state decided, interest recomputed, causes raised, confirmations of the placard checked (R52 steps 2 to 7). -/
def changePlacard (n : PlacardId) (old : Option Placard) (new : Placard) (order : List PlacardId) (cells : Nat)
    (c : Content) (d : Delivery) : Content × Delivery :=
  let g := nextGeneration c.board.generation
  let placed := { new with generation := g, live := new.liveAt c.clock.state c.clock.second }
  let b : Board := ⟨c.board.placards.set n (some placed), order, cells, g⟩
  let touched (q : Panel) : Bool := new.matchesPanel q || old.any (fun pl => pl.matchesPanel q)
  let cause := if new.layer = 3 ∨ old.any (fun pl => decide (pl.layer = 3)) then Cause.urgent else Cause.content
  ({ c with board := b },
    ((d.mapWorks (Works.recomputeInterest b touched)).raiseWhere b cause touched).checkPlacard b n)

/-- What BOARD_READ and the edit responses call the state of a placard (chapter 13). -/
def Placard.stateCode (pl : Placard) : Byte := if pl.live then 1 else 2

/-- The response to a change: its data from the placard as it was stored. -/
def placardReply (n : PlacardId) (data : Placard → List Byte) (c : Content) : Reply :=
  match c.board.placards[n] with
  | some pl => okWith (data pl)
  | none => okWith []

/-! ## POST (R53) -/

/-- What a POST does (R51, R53). -/
def postPlacard (p : PortId) (f : PostReq) (c : Content) (d : Delivery) : Content × Delivery × Reply :=
  match postedPlacard p f with
  | none => (c, d, refuse .badValue)
  | some pl =>
    if pl.layer = 3 ∧ d.ports[p].rank = .feed then (c, d, refuse .denied)
    else if !c.holdMet p pl.hold then (c, d, refuse .notOwner)
    else
      match c.board.freeNumber with
      | none => (c, d, refuse .noRoom)
      | some n =>
        if 1024 < c.board.cellsUsed + pl.content.cells then (c, d, refuse .noRoom)
        else
          let r := changePlacard n none pl (c.board.joinLayer n pl.layer c.board.drawOrder)
            (c.board.cellsUsed + pl.content.cells) c d
          (r.1, r.2, placardReply n (fun pl => b1 n.val ++ [pl.stateCode] ++ b4 pl.generation) r.1)

/-- POST (R53). -/
def execPost (p : PortId) (f : PostReq) (s : State) : Answer := request p (.post p f) (postPlacard p f) s

/-! ## AMEND, TEXT_SET and WITHDRAW (R54 to R56) -/

/-- The values of an AMEND that can be judged without the stored placard (R51 check 1). -/
def amendValid (f : AmendReq) : Bool :=
  optOk (fun v => decide (v ≤ 3)) f.layer &&
  (match f.text with
    | none => true
    | some t => textValid 160 t) &&
  optOk (fun v => decide (v < 4)) f.font && optOk (fun v => decide (v < 3)) f.align &&
  optOk (fun v => decide (v < 16)) f.list && optOk (fun v => decide (v ≤ 11)) f.firstRow &&
  optOk (fun v => decide (1 ≤ v ∧ v ≤ 12)) f.rowCount && optOk (fun v => decide (v < 4)) f.rowFont &&
  optOk (fun v => decide (v < 4)) f.badgeFont && optOk (fun v => decide (v < 8)) f.ticker &&
  optOk (fun v => decide (v < 512)) f.glyph && optOk (fun v => decide (1 ≤ v ∧ v ≤ 3)) f.foreground &&
  optOk (fun v => decide (v ≤ 4)) f.background && optOk (fun v => decide (v ≤ 3)) f.flags &&
  optOk (fun v => decide (v ≤ 107999)) (changeValue? f.windowStart) && optOk (fun v => decide (v ≤ 107999)) (changeValue? f.windowEnd) &&
  optOk (fun v => decide (v < 32)) (changeValue? f.hold)

/-- An optional number in the range of a table's numbers, or the stored one. -/
def pick {n : Nat} (v : Option Nat) (old : Fin n) : Fin n := ((v.bind (index? n))).getD old

/-- The content after an AMEND; none when the request carries a field of another kind (R44, log 10). -/
def amendedContent (f : AmendReq) : PlacardContent → Option PlacardContent
  | .text chars font align =>
    if f.list.isSome || f.firstRow.isSome || f.rowCount.isSome || f.rowFont.isSome || f.badgeFont.isSome ||
        f.ticker.isSome || f.glyph.isSome then none
    else some (.text (f.text.getD chars) (pick f.font font) ((f.align.bind alignOf).getD align))
  | .departures list firstRow rowCount rowFont badgeFont =>
    if f.text.isSome || f.font.isSome || f.align.isSome || f.ticker.isSome || f.glyph.isSome then none
    else some (.departures (pick f.list list) (f.firstRow.getD firstRow) (f.rowCount.getD rowCount)
      (pick f.rowFont rowFont) (pick f.badgeFont badgeFont))
  | .ticker t =>
    if f.text.isSome || f.font.isSome || f.align.isSome || f.list.isSome || f.firstRow.isSome || f.rowCount.isSome ||
        f.rowFont.isSome || f.badgeFont.isSome || f.glyph.isSome then none
    else some (.ticker (pick f.ticker t))
  | .clock font =>
    if f.text.isSome || f.align.isSome || f.list.isSome || f.firstRow.isSome || f.rowCount.isSome ||
        f.rowFont.isSome || f.badgeFont.isSome || f.ticker.isSome || f.glyph.isSome then none
    else some (.clock (pick f.font font))
  | .glyph font g =>
    if f.text.isSome || f.align.isSome || f.list.isSome || f.firstRow.isSome || f.rowCount.isSome ||
        f.rowFont.isSome || f.badgeFont.isSome || f.ticker.isSome then none
    else some (.glyph (pick f.font font) (f.glyph.getD g))

/-- The placard after an AMEND, its rectangle clamped (R54); none when a kind field is of another kind, or the window
taken as a whole is not ordered. -/
def amendedPlacard (f : AmendReq) (pl : Placard) : Option Placard :=
  match amendedContent f pl.content with
  | none => none
  | some content =>
    let start := changedField f.windowStart pl.windowStart
    let stop := changedField f.windowEnd pl.windowEnd
    if windowOrdered start stop then
      some { pl with
        base := f.base.getD pl.base
        mask := f.mask.getD pl.mask
        x := (f.x.map (min 511)).getD pl.x
        w := (f.w.map (min 512)).getD pl.w
        y := (f.y.map (min 95)).getD pl.y
        h := (f.h.map (min 96)).getD pl.h
        layer := f.layer.getD pl.layer
        content := content
        foreground := f.foreground.getD pl.foreground
        background := (f.background.bind backgroundOf).getD pl.background
        blink := (f.flags.map (fun v => v.testBit 0)).getD pl.blink
        invert := (f.flags.map (fun v => v.testBit 1)).getD pl.invert
        windowStart := start
        windowEnd := stop
        hold := match f.hold with
          | .keep => pl.hold
          | .set v => index? 32 v
          | .remove => none }
    else none

/-- The placard that a request names: BAD_VALUE above 191, NOT_FOUND when FREE (R51 checks 1 and 2). -/
def placardRequest (number : Nat) (valid : Bool)
    (f : PlacardId → Placard → Content → Delivery → Content × Delivery × Reply) (c : Content) (d : Delivery) :
    Content × Delivery × Reply :=
  match index? 192 number with
  | none => (c, d, refuse .badValue)
  | some n =>
    if !valid then (c, d, refuse .badValue)
    else
      match c.board.placards[n] with
      | none => (c, d, refuse .notFound)
      | some pl => f n pl c d

/-- The cells in use when the text of `old` is replaced by that of `new` (R50). -/
def Board.cellsAfter (b : Board) (old new : Placard) : Nat := b.cellsUsed - old.content.cells + new.content.cells

/-- What an AMEND does to the placard it names (R51, R54). -/
def amendPlacard (p : PortId) (f : AmendReq) (n : PlacardId) (old : Placard) (c : Content) (d : Delivery) :
    Content × Delivery × Reply :=
  match amendedPlacard f old with
  | none => (c, d, refuse .badValue)
  | some new =>
    if new.layer = 3 ∧ old.layer ≠ 3 ∧ d.ports[p].rank = .feed then (c, d, refuse .denied)
    else if old.owner ≠ p then (c, d, refuse .notOwner)
    else if !(c.holdMet p old.hold && c.holdMet p new.hold) then (c, d, refuse .notOwner)
    else if 1024 < c.board.cellsAfter old new then (c, d, refuse .noRoom)
    else
      let order :=
        if new.layer = old.layer then c.board.drawOrder
        else c.board.joinLayer n new.layer (leaveOrder n c.board.drawOrder)
      let r := changePlacard n (some old) new order (c.board.cellsAfter old new) c d
      (r.1, r.2, placardReply n (fun pl => b4 pl.generation ++ [pl.stateCode]) r.1)

/-- AMEND (R54). -/
def execAmend (p : PortId) (number : Nat) (f : AmendReq) (s : State) : Answer :=
  request p (.amend p number f) (placardRequest number (amendValid f) (amendPlacard p f)) s

/-- The content with its text replaced; none for a kind other than TEXT (R55). -/
def PlacardContent.withText (text : List Nat) : PlacardContent → Option PlacardContent
  | .text _ font align => some (.text text font align)
  | .departures _ _ _ _ _ => none
  | .ticker _ => none
  | .clock _ => none
  | .glyph _ _ => none

/-- What a TEXT_SET does to the placard it names (R51, R55). -/
def setText (p : PortId) (text : List Nat) (n : PlacardId) (old : Placard) (c : Content) (d : Delivery) :
    Content × Delivery × Reply :=
  match old.content.withText text with
  | none => (c, d, refuse .state)
  | some content =>
    let new := { old with content := content }
    if old.owner ≠ p then (c, d, refuse .notOwner)
    else if !c.holdMet p old.hold then (c, d, refuse .notOwner)
    else if 1024 < c.board.cellsAfter old new then (c, d, refuse .noRoom)
    else
      let r := changePlacard n (some old) new c.board.drawOrder (c.board.cellsAfter old new) c d
      (r.1, r.2, placardReply n (fun pl => b4 pl.generation) r.1)

/-- TEXT_SET (R55). -/
def execTextSet (p : PortId) (number : Nat) (text : List Nat) (s : State) : Answer :=
  request p (.textSet p number text) (placardRequest number (textValid 160 text) (setText p text)) s

/-- The WITHDRAW of a placard that passes its checks (R56). MODEL'S CHOICE (log 30): the placard is FREE before the cause of
step 5 is raised, so a swap that URGENT completes confirms none of its confirmations, which step 6 then ends CANCELLED. -/
def removePlacard (n : PlacardId) (old : Placard) (c : Content) (d : Delivery) : Content × Delivery :=
  let b : Board :=
    ⟨c.board.placards.set n none, leaveOrder n c.board.drawOrder, c.board.cellsUsed - old.content.cells,
      nextGeneration c.board.generation⟩
  let d1 := (d.mapWorks (Works.recomputeInterest b old.matchesPanel)).raiseWhere b (layerCause old.layer) old.matchesPanel
  ({ c with board := b },
    (d1.confirmations.filter (fun k => decide (k.placard = n))).foldl Delivery.cancelConfirmation d1)

/-- What a WITHDRAW does to the placard it names (R51, R56). -/
def withdrawPlacard (p : PortId) (n : PlacardId) (old : Placard) (c : Content) (d : Delivery) :
    Content × Delivery × Reply :=
  let supervisor := decide (d.ports[p].rank = .supervisor)
  if old.owner ≠ p ∧ !supervisor then (c, d, refuse .notOwner)
  else if !supervisor && !c.holdMet p old.hold then (c, d, refuse .notOwner)
  else
    let r := removePlacard n old c d
    (r.1, r.2, okWith [])

/-- WITHDRAW (R56). -/
def execWithdraw (p : PortId) (number : Nat) (s : State) : Answer :=
  request p (.withdraw p number) (placardRequest number true (withdrawPlacard p)) s

/-! ## BOARD_READ (R57) -/

/-- The kind code and the kind fields (R44, chapter 13). -/
def PlacardContent.bytes : PlacardContent → List Byte
  | .text chars font align => [0] ++ bText chars ++ b1 font.val ++ [align.code]
  | .departures list firstRow rowCount rowFont badgeFont =>
    [1] ++ b1 list.val ++ b1 firstRow ++ b1 rowCount ++ b1 rowFont.val ++ b1 badgeFont.val
  | .ticker t => [2] ++ b1 t.val
  | .clock font => [3] ++ b1 font.val
  | .glyph font g => [4] ++ b1 font.val ++ b2 g

/-- The fields of a placard in the order of R43 (log 9). -/
def Placard.bytes (n : PlacardId) (pl : Placard) : List Byte :=
  b1 n.val ++ b1 pl.owner.val ++ [pl.base, pl.mask] ++ b2 pl.x ++ b2 pl.w ++ b1 pl.y ++ b1 pl.h ++ b1 pl.layer ++
    pl.content.bytes ++ b1 pl.foreground ++ b1 (pl.background.getD 4) ++
    b1 (cond pl.blink 1 0 + cond pl.invert 2 0) ++ bOpt b3 pl.windowStart ++ bOpt b3 pl.windowEnd ++
    bOpt b1 (pl.hold.map Fin.val) ++ b4 pl.generation ++ [pl.stateCode]

/-- What a BOARD_READ answers (R57). -/
def readPlacard (number : Nat) (b : Board) : Reply :=
  match index? 192 number with
  | none => refuse .badValue
  | some n =>
    match b.placards[n] with
    | none => okWith ([0] ++ b4 b.generation)
    | some pl => okWith (b4 b.generation ++ pl.bytes n)

/-- BOARD_READ (R57). -/
def execBoardRead (p : PortId) (number : Nat) (s : State) : Answer :=
  query p (.boardRead p number) (fun c _ => readPlacard number c.board) s

/-! ## Confirmations (R61 to R63) -/

/-- What a CONFIRM_SHOWN does to the placard it names: the confirmation opened, ACCEPTED, then checked (R61, R62). -/
def openConfirmation (p : PortId) (timeout : Nat) (t : Tag) (n : PlacardId) (_old : Placard) (c : Content)
    (d : Delivery) : Content × Delivery × Reply :=
  let seconds := clampTo 1 60 timeout
  let k : Confirmation := ⟨p, t, n, d.works.now + 1000 * seconds⟩
  let d1 := { d.mapPort p (fun pt => { pt with tags := pt.tags.set t .confirm }) with
    confirmations := d.confirmations ++ [k] }
  (c, d1.checkConfirmation c.board k, ⟨.accepted, b1 seconds⟩)

/-- CONFIRM_SHOWN (R61). -/
def execConfirmShown (p : PortId) (tag number timeout : Nat) (s : State) : Answer :=
  request p (.confirmShown p tag number timeout)
    (taggedRequest p tag (fun t => placardRequest number true (openConfirmation p timeout t))) s

/-- The confirmation of a port's tag. -/
def Delivery.confirmationOf (d : Delivery) (p : PortId) (t : Tag) : Option Confirmation :=
  d.confirmations.find? (fun k => decide (k.port = p ∧ k.tag = t))

/-- CONFIRM_DEADLINE (R62): the confirmation in progress of a port's tag reaches its deadline. -/
def execConfirmDeadline (p : PortId) (t : Tag) (s : State) : Answer :=
  event (fun c d =>
    match d.confirmationOf p t with
    | none => d
    | some k => (d.reach k.deadline).endConfirmation k (k.lapse c.board d.works)) s

end Sys2Proof.Machine
end

