-- ==== Sys2Proof/Machine/Tickers.lean ====
section
/-! DEFINITION. Tickers (chapter 8): setting up, feeding, flushing, the scroll step, reading. -/

namespace Sys2Proof.Machine

/-- One ticker written. -/
def Content.setTicker (t : TickerId) (k : Ticker) (c : Content) : Content := { c with tickers := c.tickers.set t k }

/-- The placard names a ticker. -/
def Placard.namesTicker (t : TickerId) (pl : Placard) : Bool :=
  match pl.content with
  | .ticker x => decide (x = t)
  | .text _ _ _ => false
  | .departures _ _ _ _ _ => false
  | .clock _ => false
  | .glyph _ _ => false

/-- A cause raised on every panel that draws a ticker (R143). -/
def raiseTicker (b : Board) (cause : Cause) (t : TickerId) (d : Delivery) : Delivery :=
  d.raiseWhere b cause (b.draws (Placard.namesTicker t))

/-- The ring emptied, the step deadline removed, and the ticker IDLE (R139 steps 1 and 2). -/
def Ticker.emptied (k : Ticker) : Ticker := { k with state := .idle, chars := [], head := 0, offset := 0, deadline := none }

/-! ## TICKER_SETUP (R137) -/

/-- The stored parameters: clamped, and a low-water of 256 or more ignored (R137). -/
def Ticker.configure (font : FontId) (window period columns lowWater : Nat) (k : Ticker) : Ticker :=
  { k with
    font := font
    window := clampTo 8 512 window
    period := clampTo 20 200 period
    columns := clampTo 1 4 columns
    lowWater := if lowWater < 256 then lowWater else k.lowWater }

/-- The parameters of a ticker in a response. -/
def Ticker.parameterBytes (k : Ticker) : List Byte :=
  b1 k.font.val ++ b2 k.window ++ b1 k.period ++ b1 k.columns

/-- What a TICKER_SETUP does (R137). -/
def setupTicker (ticker font window period columns lowWater : Nat) (c : Content) (d : Delivery) :
    Content × Delivery × Reply :=
  match index? 8 ticker, index? 4 font with
  | some t, some f =>
    let k := (c.tickers[t].configure f window period columns lowWater).emptied
    (c.setTicker t k, raiseTicker c.board .content t d, okWith (k.parameterBytes ++ b2 k.lowWater))
  | _, _ => (c, d, refuse .badValue)

/-- TICKER_SETUP (R137). -/
def execTickerSetup (p : PortId) (ticker font window period columns lowWater : Nat) (s : State) : Answer :=
  request p (.tickerSetup p ticker font window period columns lowWater)
    (supervised p (setupTicker ticker font window period columns lowWater)) s

/-! ## TICKER_FEED (R138) -/

/-- The ticker after characters are accepted from a port (R138). -/
def Ticker.feed (p : PortId) (now : Nat) (chars : List Nat) (k : Ticker) : Ticker :=
  let fed := { k with chars := k.chars ++ chars, lastFeeder := some p }
  match k.state with
  | .running => fed
  | .undefined => fed
  | .idle | .dry => { fed with state := .running, offset := -(k.window : Int), deadline := some (now + k.period) }

/-- What a TICKER_FEED does (R138). -/
def feedTicker (p : PortId) (ticker : Nat) (chars : List Nat) (c : Content) (d : Delivery) :
    Content × Delivery × Reply :=
  match index? 8 ticker with
  | none => (c, d, refuse .badValue)
  | some t =>
    let k := c.tickers[t]
    if chars.isEmpty || !textValid 64 chars then (c, d, refuse .badValue)
    else if k.state = .undefined then (c, d, refuse .state)
    else
      let accepted := chars.take (256 - k.chars.length)
      let reply := okWith (b1 accepted.length ++ b2 (k.chars.length + accepted.length))
      if accepted.isEmpty then (c, d, reply)
      else (c.setTicker t (k.feed p d.works.now accepted), raiseTicker c.board .scroll t d, reply)

/-- TICKER_FEED (R138). -/
def execTickerFeed (p : PortId) (ticker : Nat) (chars : List Nat) (s : State) : Answer :=
  request p (.tickerFeed p ticker chars) (feedTicker p ticker chars) s

/-! ## TICKER_FLUSH (R139) -/

/-- What a TICKER_FLUSH does (R139). -/
def flushTicker (ticker : Nat) (c : Content) (d : Delivery) : Content × Delivery × Reply :=
  match index? 8 ticker with
  | none => (c, d, refuse .badValue)
  | some t =>
    let k := c.tickers[t]
    if k.state = .undefined then (c, d, refuse .state)
    else
      (c.setTicker t k.emptied, if k.state = .running then raiseTicker c.board .scroll t d else d,
        okWith (b2 k.chars.length))

/-- TICKER_FLUSH (R139). -/
def execTickerFlush (p : PortId) (ticker : Nat) (s : State) : Answer :=
  request p (.tickerFlush p ticker) (flushTicker ticker) s

/-! ## The scroll step (R140 to R142) -/

/-- Head characters whose advance fits the offset removed (R140 step 3): the characters left, the offset, and the counts
that removals left behind, newest last. The characters held bound the removals. -/
def removeHeads (f : Font) : List Nat → Int → List Nat × Int × List Nat
  | [], offset => ([], offset, [])
  | g :: gs, offset =>
    if (f.advance g : Int) ≤ offset then
      let r := removeHeads f gs (offset - f.advance g)
      (r.1, r.2.1, gs.length :: r.2.2)
    else (g :: gs, offset, [])

/-- The ticker after a scroll step taken at its deadline `t` (R140). -/
def Ticker.step (f : Font) (t : Nat) (k : Ticker) : Ticker :=
  let r := removeHeads f k.chars (k.offset + k.columns)
  let head := (k.head + (k.chars.length - r.1.length)) % 256
  if r.1.isEmpty then { k with state := .dry, chars := [], head := head, offset := 0, deadline := none }
  else { k with chars := r.1, head := head, offset := r.2.1, deadline := some (t + k.period) }

/-- A removal of the step brings the count from the low-water value plus 1 to the low-water value (R142). -/
def Ticker.crossesLow (f : Font) (k : Ticker) : Bool :=
  decide (k.lowWater ∈ (removeHeads f k.chars (k.offset + k.columns)).2.2)

/-- TICKER_LOW to the last feeder when a removal crosses the low-water value (R142). -/
def noticeLow (t : TickerId) (crosses : Bool) (feeder : Option PortId) (d : Delivery) : Delivery :=
  match feeder with
  | none => d
  | some p => if crosses then d.notify (.tickerLow t) p else d

/-- What a scroll step does (R140): only a RUNNING ticker has a step deadline. -/
def scrollTicker (t : TickerId) (c : Content) (d : Delivery) : Content × Delivery :=
  let k := c.tickers[t]
  match k.deadline with
  | none => (c, d)
  | some at_ =>
    let f := c.typeStore.fonts[k.font]
    (c.setTicker t (k.step f at_),
      raiseTicker c.board .scroll t (noticeLow t (k.crossesLow f) k.lastFeeder (d.reach at_)))

/-- SCROLL_STEP (R140). -/
def execScrollStep (t : TickerId) (s : State) : Answer := contentEvent (scrollTicker t) s

/-! ## TICKER_READ and board clear (R144, R145) -/

/-- A ticker as TICKER_READ returns it (R144, log 9). -/
def Ticker.bytes (now : Nat) (k : Ticker) : List Byte :=
  [k.state.code] ++ k.parameterBytes ++ b1 k.lowWater ++
    if k.state = .undefined then []
    else b2 k.chars.length ++ b1 k.head ++ bSigned k.offset ++ bPort k.lastFeeder ++
      bOpt b4 (k.deadline.map (timeLeft now))

/-- What a TICKER_READ answers (R144). -/
def readTicker (ticker : Nat) (c : Content) (now : Nat) : Reply :=
  match index? 8 ticker with
  | none => refuse .badValue
  | some t => okWith (c.tickers[t].bytes now)

/-- TICKER_READ (R144). -/
def execTickerRead (p : PortId) (ticker : Nat) (s : State) : Answer :=
  query p (.tickerRead p ticker) (fun c d => readTicker ticker c d.works.now) s

/-- The ticker unit at a board clear: every ticker that is not UNDEFINED flushed, without causes or notices (R145). -/
def clearTickers (c : Content) : Content :=
  { c with tickers := mapTable (fun k => if k.state = .undefined then k else k.emptied) c.tickers }

end Sys2Proof.Machine
end

