-- ==== Sys2Proof/Machine/Type.lean ====
section
/-! DEFINITION. The type store's requests (section 7.1): FONT_SETUP, GLYPH_LOAD, TOKEN_SET. -/

namespace Sys2Proof.Machine

/-- One font written. -/
def Content.setFont (f : FontId) (x : Font) (c : Content) : Content :=
  { c with typeStore := { c.typeStore with fonts := c.typeStore.fonts.set f x } }

/-- A placard uses a font (R124). -/
def Content.usesFont (c : Content) (f : FontId) (pl : Placard) : Bool :=
  match pl.content with
  | .text _ font _ => decide (font = f)
  | .departures _ _ _ rowFont badgeFont => decide (rowFont = f ∨ badgeFont = f)
  | .ticker t => decide (c.tickers[t].font = f)
  | .clock font => decide (font = f)
  | .glyph font _ => decide (font = f)

/-- CONTENT on every panel that draws a placard using a font (R124). -/
def raiseFont (c : Content) (f : FontId) (d : Delivery) : Delivery :=
  d.raiseWhere c.board .content (c.board.draws (c.usesFont f))

/-- What a FONT_SETUP does (R120). -/
def setupFont (font height : Nat) (c : Content) (d : Delivery) : Content × Delivery × Reply :=
  match index? 4 font with
  | none => (c, d, refuse .badValue)
  | some f =>
    if height = 8 ∨ height = 16 then (c.setFont f ⟨height, [], []⟩, raiseFont c f d, okWith (b1 height))
    else (c, d, refuse .badValue)

/-- FONT_SETUP (R120). -/
def execFontSetup (p : PortId) (font height : Nat) (s : State) : Answer :=
  request p (.fontSetup p font height) (supervised p (setupFont font height)) s

/-- An entry within the ranges of R121 for a font height. -/
def glyphValid (height : Nat) (e : GlyphEntry) : Bool :=
  decide (e.glyph < 512 ∧ e.width ≤ 16 ∧ e.bitmap.length = e.width * height / 8)

/-- The space remaining in a region (R121). -/
def Font.remaining (f : Font) : Nat := 16384 - f.region.length

/-- A directory entry written; the directory lists present glyphs by rising index. -/
def putSlot (g : Nat) (s : GlyphSlot) : List (Nat × GlyphSlot) → List (Nat × GlyphSlot)
  | [] => [(g, s)]
  | x :: xs => if g < x.1 then (g, s) :: x :: xs else if g = x.1 then (g, s) :: xs else x :: putSlot g s xs

/-- One entry loaded (R121): its bitmap stored at the place given by the space used; a width of 0 marks it absent. -/
def Font.load (f : Font) (e : GlyphEntry) : Font :=
  { f with
    region := f.region ++ e.bitmap
    directory := if e.width = 0 then f.directory.filter (fun x => decide (x.1 ≠ e.glyph))
      else putSlot e.glyph ⟨e.width, f.region.length⟩ f.directory }

/-- The entries loaded in order until one does not fit, and how many were (R121). -/
def Font.loadAll : List GlyphEntry → Font → Font × Nat
  | [], f => (f, 0)
  | e :: es, f =>
    if e.bitmap.length ≤ f.remaining then ((Font.loadAll es (f.load e)).1, (Font.loadAll es (f.load e)).2 + 1)
    else (f, 0)

/-- What a GLYPH_LOAD does (R121). -/
def loadGlyphs (font : Nat) (entries : List GlyphEntry) (c : Content) (d : Delivery) : Content × Delivery × Reply :=
  match index? 4 font with
  | none => (c, d, refuse .badValue)
  | some f =>
    if !entries.all (glyphValid c.typeStore.fonts[f].height) then (c, d, refuse .badValue)
    else
      let r := Font.loadAll entries c.typeStore.fonts[f]
      (c.setFont f r.1, if r.2 = 0 then d else raiseFont c f d, okWith (b1 r.2 ++ b2 r.1.remaining))

/-- GLYPH_LOAD (R121). -/
def execGlyphLoad (p : PortId) (font : Nat) (entries : List GlyphEntry) (s : State) : Answer :=
  request p (.glyphLoad p font entries) (supervised p (loadGlyphs font entries)) s

/-- What a TOKEN_SET does (R123). -/
def setToken (token : Nat) (text : List Nat) (c : Content) (d : Delivery) : Content × Delivery × Reply :=
  match index? 4 token with
  | none => (c, d, refuse .badValue)
  | some t =>
    if !textValid 12 text then (c, d, refuse .badValue)
    else if c.typeStore.tokens[t] = text then (c, d, okWith (bText text))
    else
      ({ c with typeStore := { c.typeStore with tokens := c.typeStore.tokens.set t text } },
        d.raiseWhere c.board .content (c.board.draws (fun pl => pl.content.isDepartures)), okWith (bText text))

/-- TOKEN_SET (R123). -/
def execTokenSet (p : PortId) (token : Nat) (text : List Nat) (s : State) : Answer :=
  request p (.tokenSet p token text) (supervised p (setToken token text)) s

end Sys2Proof.Machine
end

