-- ==== Sys2Proof/Machine/Ports.lean ====
section
/-! DEFINITION. The feed ports (chapter 12): reset, transfers, CANCEL_SPLIT, notices, PART_STATUS, BOARD_CLEAR. -/

namespace Sys2Proof.Machine

/-! ## RESETn (R181) -/

/-- RESETN (R181): every block takes its initial state, the ranks those of the pins. The queue of commands is the model's
and is kept. -/
def execResetn (rk0 rk1 rk2 rk3 : Bool) (s : State) : Answer :=
  .next { State.resetWith rk0 rk1 rk2 rk3 with pending := s.pending }

/-- RESETN_LOW (R181): FDO of every port stops being driven; FNTC follows from the pin. -/
def execResetnLow (s : State) : Answer :=
  .next { s with
    resetIsLow := true
    delivery := { s.delivery with ports := mapTable (fun pt => { pt with fdo := [] }) s.delivery.ports } }

/-! ## Transfers (R182, R183) -/

/-- The bytes of a response frame: form, kind, status, tag, body length, body (section 13.1). -/
def Frame.bytes (f : Frame) : List Byte := [f.form, f.kind, f.code, f.tag] ++ leBytes 2 f.body.length ++ f.body

/-- The bytes of the head response; none when the queue is empty. -/
def Port.headBytes (pt : Port) : List Byte :=
  match pt.responses with
  | [] => []
  | f :: _ => f.bytes

/-- The bits shifted out while `clocks` bits are clocked: the head response, then the fill byte FFh (R182). -/
def Port.shiftOut (clocks : Nat) (pt : Port) : List Bool :=
  (pt.headBytes.flatMap bitsOfByte ++ List.replicate clocks true).take clocks

/-- The head response leaves when every one of its bytes has been clocked out; the slot it frees goes to the oldest
waiting completion (R182, R185). -/
def Port.headLeaves (clocks : Nat) (pt : Port) : Port :=
  match pt.responses with
  | [] => pt
  | f :: rest => if 8 * f.bytes.length ≤ clocks then Port.drain { pt with responses := rest } else pt

/-- A BAD_FRAME or BUSY response takes a free slot, or is dropped (R183). -/
def Port.refuseFrame (st : Status) (kind tag : Byte) (pt : Port) : Port :=
  if pt.slotFree then { pt with responses := pt.responses ++ [⟨0x01, kind, st.code, tag, []⟩] } else pt

/-- What the port does with what it received when FSEL rises (R183). -/
def Port.judged (pt : Port) : Judgement → Port
  | .emptyPoll => pt
  | .badFrame kind tag => pt.refuseFrame .badFrame kind tag
  | .request i =>
    if pt.requests.length < 8 then { pt with requests := pt.requests ++ [i] }
    else pt.refuseFrame .busy (BitVec.ofNat 8 i.kindCode) i.tagByte

/-- The heights of the fonts, by which bitmap lengths are judged (log 11). -/
def Content.fontHeights (c : Content) : List Nat := c.typeStore.fonts.toList.map (fun f => f.height)

/-- One select period on a port (R182, R183). One in which no whole byte is clocked is no transfer. -/
def Port.transfer (p : PortId) (heights : List Nat) (fdi : List Bool) (pt : Port) : Port :=
  if (wholeBytes fdi).isEmpty then pt
  else
    let out := { pt.headLeaves fdi.length with fdo := pt.shiftOut fdi.length }
    out.judged (judgeFrame p heights (wholeBytes fdi))

/-- TRANSFER (R182): select periods are ignored while RESETn is low (R181). -/
def execTransfer (p : PortId) (fdi : List Bool) (s : State) : Answer :=
  if s.resetIsLow then .next s
  else .next { s with delivery := s.delivery.mapPort p (Port.transfer p s.content.fontHeights fdi) }

/-! ## CANCEL_SPLIT (R186) -/

/-- A waiting TAKE of a port cancelled (R70, R186). -/
def cancelWait (p : PortId) (h : HoldId) (c : Content) (d : Delivery) : Content × Delivery :=
  match c.holds[h].waiterOf p with
  | none => (c, d)
  | some x => endWait h x .cancelled [] c d

/-- A confirmation of a port's tag cancelled (R63, R186). -/
def cancelConfirm (p : PortId) (t : Tag) (d : Delivery) : Delivery :=
  match d.confirmationOf p t with
  | none => d
  | some k => d.cancelConfirmation k

/-- What a CANCEL_SPLIT does (R186). -/
def cancelSplit (p : PortId) (tag : Nat) (c : Content) (d : Delivery) : Content × Delivery × Reply :=
  match index? 16 tag with
  | none => (c, d, refuse .badValue)
  | some t =>
    match d.ports[p].tags[t] with
    | .free => (c, d, refuse .notFound)
    | .ended => (c, d, okWith [Outcome.alreadyEnded.code])
    | .take h => ((cancelWait p h c d).1, (cancelWait p h c d).2, okWith [Outcome.cancelled.code])
    | .confirm => (c, cancelConfirm p t d, okWith [Outcome.cancelled.code])

/-- CANCEL_SPLIT (R186). -/
def execCancelSplit (p : PortId) (tag : Nat) (s : State) : Answer :=
  request p (.cancelSplit p tag) (cancelSplit p tag) s

/-! ## Notices (R188) -/

/-- The pending unmasked kind of highest priority. -/
def Port.firstNotice (pt : Port) : Option (Fin 10) := (List.finRange 10).find? pt.unmasked

/-- A record taken out of the notice set. -/
def Port.removeNotice (k : Fin 10) (pt : Port) : Port := { pt with notices := pt.notices.set k none }

/-- What a NOTICE_TAKE does (R188): presence, kind, count, detail. -/
def takeNotice (p : PortId) (c : Content) (d : Delivery) : Content × Delivery × Reply :=
  match d.ports[p].firstNotice with
  | none => (c, d, okWith [0])
  | some k =>
    match d.ports[p].notices[k] with
    | none => (c, d, okWith [0])
    | some r =>
      (c, d.mapPort p (Port.removeNotice k), okWith ([1] ++ b1 (k.val + 1) ++ b1 r.count ++ r.notice.detail))

/-- NOTICE_TAKE (R188). -/
def execNoticeTake (p : PortId) (s : State) : Answer := request p (.noticeTake p) (takeNotice p) s

/-- What a NOTICE_MASK does (R188): a bit that stands for no kind refuses it. -/
def maskNotices (p : PortId) (kinds : BitVec 16) (c : Content) (d : Delivery) : Content × Delivery × Reply :=
  if 1024 ≤ kinds.toNat then (c, d, refuse .badValue)
  else (c, d.mapPort p (fun pt => { pt with mask := kinds.setWidth 10 }), okWith (b2 kinds.toNat))

/-- NOTICE_MASK (R188). -/
def execNoticeMask (p : PortId) (kinds : BitVec 16) (s : State) : Answer :=
  request p (.noticeMask p kinds) (maskNotices p kinds) s

/-! ## PART_STATUS (R189) -/

/-- The number of panel records in a state. -/
def Works.countPanels (w : Works) (st : Option PanelState) : Nat :=
  (w.panels.toList.filter (fun q => decide (q.map (fun q => q.state) = st))).length

/-- The number of lanes in a state. -/
def Works.countLanes (w : Works) (st : LaneState) : Nat :=
  (w.lanes.toList.filter (fun n => decide (n.state = st))).length

/-- The number of FREE placards. -/
def Board.countFree (b : Board) : Nat := (b.placards.toList.filter Option.isNone).length

/-- What a PART_STATUS answers (R189). -/
def partStatus (c : Content) (d : Delivery) : Reply :=
  okWith (
    ([none, some .offline, some .parked, some .ready, some .loaded, some .sending, some .isolated].flatMap
      (fun st => b1 (d.works.countPanels st))) ++
    ([LaneState.free, .resident, .loading, .working, .claimed].flatMap (fun st => b1 (d.works.countLanes st))) ++
    b1 c.board.countFree ++ b2 (1024 - c.board.cellsUsed))

/-- PART_STATUS (R189). -/
def execPartStatus (p : PortId) (s : State) : Answer := query p (.partStatus p) partStatus s

/-! ## BOARD_CLEAR (R191) -/

/-- The members that a swap in progress expects; none of an IDLE group (R171, R178). -/
def Group.swapping (g : Group) : List PanelId :=
  match g.swap with
  | none => []
  | some s => s.membersLeft g.members

/-- The swap group unit at a board clear: every group IDLE without SHOW (R180), its staged candidates outliving it (R178). -/
def clearGroups (d : Delivery) : Delivery :=
  ({ d with groups := mapTable (fun g => { g with swap := none }) d.groups } : Delivery).mapWorks
    (Works.outlive (d.groups.toList.flatMap Group.swapping))

/-- The board after a clear (R64 steps 2 to 5). -/
def Board.cleared (b : Board) : Board := ⟨Vector.replicate 192 none, [], 0, nextGeneration b.generation⟩

/-- The board at a board clear: confirmations, placards, generation, interest, CONTENT on every online panel (R64). -/
def clearBoard (c : Content) (d : Delivery) : Content × Delivery :=
  let d1 := d.confirmations.foldl Delivery.cancelConfirmation d
  let b := c.board.cleared
  let d2 := d1.mapWorks (fun w =>
    { w with panels := mapTable (Option.map (fun q => { q with interest := CauseSet.none })) w.panels })
  ({ c with board := b }, d2.raiseWhere b .content Panel.online)

/-- What a BOARD_CLEAR does: lists, holds, tickers, swap groups and board, in this order (R191). -/
def clearAll (c : Content) (d : Delivery) : Content × Delivery × Reply :=
  let r := clearHolds c.emptyLists d
  let s := clearBoard (clearTickers r.1) (clearGroups r.2)
  (s.1, s.2, okWith [])

/-- BOARD_CLEAR (R191). -/
def execBoardClear (p : PortId) (s : State) : Answer := request p (.boardClear p) (supervised p clearAll) s

end Sys2Proof.Machine
end

