-- ==== Sys2Proof/Machine/Dispatch.lean ====
section
/-! DEFINITION. One arm per command. -/

namespace Sys2Proof.Machine

def exec (i : Instr) (s : State) : Host.Outcome State Fault Refusal :=
  match i with
  | .resetn rk0 rk1 rk2 rk3 => Sys2Proof.Machine.execResetn rk0 rk1 rk2 rk3 s
  | .transfer port fdi => Sys2Proof.Machine.execTransfer port fdi s
  | .depPut port list trip line destination scheduled => Sys2Proof.Machine.execDepPut port list trip line destination scheduled s
  | .depPredict port list trip predicted => Sys2Proof.Machine.execDepPredict port list trip predicted s
  | .depArrive port list trip => Sys2Proof.Machine.execDepArrive port list trip s
  | .depDepart port list trip => Sys2Proof.Machine.execDepDepart port list trip s
  | .depCancel port list trip => Sys2Proof.Machine.execDepCancel port list trip s
  | .depRead port list => Sys2Proof.Machine.execDepRead port list s
  | .destSet port index text => Sys2Proof.Machine.execDestSet port index text s
  | .clockSet port t => Sys2Proof.Machine.execClockSet port t s
  | .newDay port t => Sys2Proof.Machine.execNewDay port t s
  | .clockRead port => Sys2Proof.Machine.execClockRead port s
  | .settings port pairs => Sys2Proof.Machine.execSettings port pairs s
  | .post port fields => Sys2Proof.Machine.execPost port fields s
  | .amend port number fields => Sys2Proof.Machine.execAmend port number fields s
  | .textSet port number text => Sys2Proof.Machine.execTextSet port number text s
  | .withdraw port number => Sys2Proof.Machine.execWithdraw port number s
  | .boardRead port number => Sys2Proof.Machine.execBoardRead port number s
  | .confirmShown port tag number timeout => Sys2Proof.Machine.execConfirmShown port tag number timeout s
  | .take port tag hold wait => Sys2Proof.Machine.execTake port tag hold wait s
  | .release port hold => Sys2Proof.Machine.execRelease port hold s
  | .handover port hold heir => Sys2Proof.Machine.execHandover port hold heir s
  | .holdSetup port hold limit group => Sys2Proof.Machine.execHoldSetup port hold limit group s
  | .holdRead port hold => Sys2Proof.Machine.execHoldRead port hold s
  | .holdExpiry hold => Sys2Proof.Machine.execHoldExpiry hold s
  | .waitTimeout hold port => Sys2Proof.Machine.execWaitTimeout hold port s
  | .panelDefine port panel address link drop cls width height level refresh => Sys2Proof.Machine.execPanelDefine port panel address link drop cls width height level refresh s
  | .panelRemove port panel => Sys2Proof.Machine.execPanelRemove port panel s
  | .panelRestore port panel => Sys2Proof.Machine.execPanelRestore port panel s
  | .panelRead port panel => Sys2Proof.Machine.execPanelRead port panel s
  | .fontSetup port font height => Sys2Proof.Machine.execFontSetup port font height s
  | .glyphLoad port font entries => Sys2Proof.Machine.execGlyphLoad port font entries s
  | .tokenSet port token text => Sys2Proof.Machine.execTokenSet port token text s
  | .tickerSetup port ticker font window period columns lowWater => Sys2Proof.Machine.execTickerSetup port ticker font window period columns lowWater s
  | .tickerFeed port ticker chars => Sys2Proof.Machine.execTickerFeed port ticker chars s
  | .tickerFlush port ticker => Sys2Proof.Machine.execTickerFlush port ticker s
  | .tickerRead port ticker => Sys2Proof.Machine.execTickerRead port ticker s
  | .scrollStep ticker => Sys2Proof.Machine.execScrollStep ticker s
  | .linkSetup port link divider timeout startLevel => Sys2Proof.Machine.execLinkSetup port link divider timeout startLevel s
  | .linkEnable port link => Sys2Proof.Machine.execLinkEnable port link s
  | .linkDisable port link => Sys2Proof.Machine.execLinkDisable port link s
  | .linkRead port link => Sys2Proof.Machine.execLinkRead port link s
  | .groupSetup port group members deadline => Sys2Proof.Machine.execGroupSetup port group members deadline s
  | .groupArm port group => Sys2Proof.Machine.execGroupArm port group s
  | .groupRead port group => Sys2Proof.Machine.execGroupRead port group s
  | .groupDeadline group => Sys2Proof.Machine.execGroupDeadline group s
  | .cancelSplit port tag => Sys2Proof.Machine.execCancelSplit port tag s
  | .noticeTake port => Sys2Proof.Machine.execNoticeTake port s
  | .noticeMask port kinds => Sys2Proof.Machine.execNoticeMask port kinds s
  | .partStatus port => Sys2Proof.Machine.execPartStatus port s
  | .boardClear port => Sys2Proof.Machine.execBoardClear port s
  | .countInterval => Sys2Proof.Machine.execCountInterval s
  | .confirmDeadline port tag => Sys2Proof.Machine.execConfirmDeadline port tag s
  | .holdoffEnd panel => Sys2Proof.Machine.execHoldoffEnd panel s
  | .refreshDeadline panel => Sys2Proof.Machine.execRefreshDeadline panel s
  | .contextCopyComplete lane => Sys2Proof.Machine.execContextCopyComplete lane s
  | .strip lane => Sys2Proof.Machine.execStrip lane s
  | .fifoRoom lane sent => Sys2Proof.Machine.execFifoRoom lane sent s
  | .codingEnd lane => Sys2Proof.Machine.execCodingEnd lane s
  | .frameStart link => Sys2Proof.Machine.execFrameStart link s
  | .underflow link => Sys2Proof.Machine.execUnderflow link s
  | .breakEnd link => Sys2Proof.Machine.execBreakEnd link s
  | .lastByteSent link => Sys2Proof.Machine.execLastByteSent link s
  | .ack link rx => Sys2Proof.Machine.execAck link rx s
  | .nak link rx => Sys2Proof.Machine.execNak link rx s
  | .replyTimeout link => Sys2Proof.Machine.execReplyTimeout link s
  | .probeDue panel => Sys2Proof.Machine.execProbeDue panel s
  | .probeSent link => Sys2Proof.Machine.execProbeSent link s
  | .ident link rx => Sys2Proof.Machine.execIdent link rx s
  | .probeTimeout link => Sys2Proof.Machine.execProbeTimeout link s
  | .showEnd link => Sys2Proof.Machine.execShowEnd link s
  | .resetnLow => Sys2Proof.Machine.execResetnLow s

end Sys2Proof.Machine
end

