-- ==== Sys2Proof/Safety.lean ====
section
/-! DEFINITION. The words of the statements: what the answer of a command is, what the invariants of the blocks are, and
which commands are requests. Nothing here is run by step. -/

namespace Sys2Proof.Machine

/-! ## Answers -/

/-- The command answers a next state with content `c` and, but for the selections that its changes trigger (R99), the
delivery side `d`; everything else of the state is unchanged. -/
def Leaves (a : Answer) (s : State) (c : Content) (d : Delivery) : Prop :=
  a = .next { s with content := c, delivery := settleDelivery s.content s.delivery c d }

/-- The delivery side as the block that owns a request finds it: the request is out of its port's queue and a response
slot is reserved (R184). -/
def State.taking (p : PortId) (s : State) : Delivery := s.delivery.mapPort p Port.startRequest

/-- The request `i` of port `p` answers reply `r` and leaves content `c` and, before its response is placed, the delivery
side `d` (R184). -/
def Replies (p : PortId) (i : Instr) (r : Reply) (s : State) (c : Content) (d : Delivery) : Prop :=
  Leaves (exec i s) s c (d.mapPort p (Port.finishRequest i r))

/-- The request `i` of port `p` is refused with a status alone, and changes nothing but the queues of its port (R7, R51). -/
def Refuses (p : PortId) (i : Instr) (st : Status) (s : State) : Prop := Replies p i (refuse st) s s.content (s.taking p)

/-- The port can take the request now (R184). -/
def State.canTake (p : PortId) (i : Instr) (s : State) : Prop := (s.delivery.ports[p]).takes i = true

/-- The port is of rank SUPERVISOR. -/
def State.isSupervisor (p : PortId) (s : State) : Prop := (s.delivery.ports[p]).rank = .supervisor

/-- The port that executes a request; none for the commands that are no request. -/
def requestPort : Instr → Option PortId
  | .depPut p _ _ _ _ _ => some p
  | .depPredict p _ _ _ => some p
  | .depArrive p _ _ => some p
  | .depDepart p _ _ => some p
  | .depCancel p _ _ => some p
  | .depRead p _ => some p
  | .destSet p _ _ => some p
  | .clockSet p _ => some p
  | .newDay p _ => some p
  | .clockRead p => some p
  | .settings p _ => some p
  | .post p _ => some p
  | .amend p _ _ => some p
  | .textSet p _ _ => some p
  | .withdraw p _ => some p
  | .boardRead p _ => some p
  | .confirmShown p _ _ _ => some p
  | .take p _ _ _ => some p
  | .release p _ => some p
  | .handover p _ _ => some p
  | .holdSetup p _ _ _ => some p
  | .holdRead p _ => some p
  | .panelDefine p _ _ _ _ _ _ _ _ _ => some p
  | .panelRemove p _ => some p
  | .panelRestore p _ => some p
  | .panelRead p _ => some p
  | .fontSetup p _ _ => some p
  | .glyphLoad p _ _ => some p
  | .tokenSet p _ _ => some p
  | .tickerSetup p _ _ _ _ _ _ => some p
  | .tickerFeed p _ _ => some p
  | .tickerFlush p _ => some p
  | .tickerRead p _ => some p
  | .linkSetup p _ _ _ _ => some p
  | .linkEnable p _ => some p
  | .linkDisable p _ => some p
  | .linkRead p _ => some p
  | .groupSetup p _ _ _ => some p
  | .groupArm p _ => some p
  | .groupRead p _ => some p
  | .cancelSplit p _ => some p
  | .noticeTake p => some p
  | .noticeMask p _ => some p
  | .partStatus p => some p
  | .boardClear p => some p
  | .resetn _ _ _ _ | .transfer _ _ | .holdExpiry _ | .waitTimeout _ _ | .scrollStep _ | .groupDeadline _
  | .countInterval | .confirmDeadline _ _ | .holdoffEnd _ | .refreshDeadline _ | .contextCopyComplete _ | .strip _
  | .fifoRoom _ _ | .codingEnd _ | .frameStart _ | .underflow _ | .breakEnd _ | .lastByteSent _ | .ack _ _ | .nak _ _
  | .replyTimeout _ | .probeDue _ | .probeSent _ | .ident _ _ | .probeTimeout _ | .showEnd _ | .resetnLow => none

/-- The requests that this manual marks supervisor (R181). -/
def supervisorOnly : Instr → Bool
  | .newDay _ _ => true
  | .settings _ _ => true
  | .holdSetup _ _ _ _ => true
  | .panelDefine _ _ _ _ _ _ _ _ _ _ => true
  | .panelRemove _ _ => true
  | .panelRestore _ _ => true
  | .fontSetup _ _ _ => true
  | .glyphLoad _ _ _ => true
  | .tokenSet _ _ _ => true
  | .tickerSetup _ _ _ _ _ _ _ => true
  | .linkSetup _ _ _ _ _ => true
  | .linkEnable _ _ => true
  | .linkDisable _ _ => true
  | .groupSetup _ _ _ _ => true
  | .boardClear _ => true
  | _ => false

/-! ## Changes of one record -/

/-- The request `i` of port `p` turns the entry `e` of list `l` into `new`, with its figure recomputed with hysteresis and
the revision delta given, at the position its key requires, and raises CONTENT and FIGURE for what changed (R5, R21, R22,
R37); the response is OK with `body`. -/
def EntryBecomes (p : PortId) (i : Instr) (body : List Byte) (l : ListId) (e new : Entry) (delta : Option Int)
    (s : State) : Prop :=
  let f := s.content.refigure true delta new
  let es := placeEntry f (removeTrip e.trip s.content.lists[l])
  Replies p i (okWith body) s (s.content.setList l es)
    (raiseListChange s.content.board l
      (decide (tripsOf es ≠ tripsOf s.content.lists[l]) ||
        decide (e.line ≠ new.line ∨ e.destination ≠ new.destination))
      (decide (e.figure ≠ f.figure)) (s.taking p))

/-- The command leaves the content, and of the delivery side changes nothing but the works, which become `w` before the
selections that follow (R99). -/
def LeavesWorks (i : Instr) (s : State) (w : Works) : Prop :=
  Leaves (exec i s) s s.content { s.delivery with works := w }

/-- The content but for departure lists, clock and the LIVE or DORMANT state of placards is as before. -/
def keepsRest (c c' : Content) : Prop :=
  c'.destinations = c.destinations ∧ c'.holds = c.holds ∧ c'.typeStore = c.typeStore ∧ c'.tickers = c.tickers ∧
    c'.board.drawOrder = c.board.drawOrder ∧ c'.board.cellsUsed = c.board.cellsUsed ∧
    c'.board.generation = c.board.generation ∧
    ∀ n : PlacardId, (c'.board.placards[n]).map (fun pl => { pl with live := true }) =
      (c.board.placards[n]).map (fun pl => { pl with live := true })

/-- One second event on lists and windows (R16, R34, R49): list by list the pass, its notices entry by entry and the
causes for what it changed, then the windows. -/
def afterSecond (hysteresis : Bool) (c : Content) (d : Delivery) : Content × Delivery :=
  let now := c.clock.value / 100
  let passed (l : ListId) : List Entry := passList c hysteresis l now c.lists[l]
  let pass (d : Delivery) (l : ListId) : Delivery :=
    raiseListChange c.board l (passChecks c.settings l now c.lists[l]).2 (figuresChanged c.lists[l] (passed l))
      ((c.lists[l]).foldl (fun d e => ((e.pass c.settings l now).2).foldl (fun d n => d.notify n e.source) d) d)
  evaluateWindows now { c with lists := Vector.ofFn passed } ((List.finRange 16).foldl pass d)

/-- What follows a change of the clock (R28, R32, R34 to R36, R27): the second event, CLOCK on the panels that draw a CLOCK
placard, BLINK on those that draw a blinking one, and on entering LIMIT the notice in every port, each where its flag says
so. `c` holds the clock as it has become. -/
def followClock (hysteresis second minute blink limit : Bool) (c : Content) (d : Delivery) : Content × Delivery :=
  let r := if second then afterSecond hysteresis c d else (c, d)
  let b := r.1.board
  let d1 := if minute then r.2.raiseWhere b .clock (b.draws (fun pl => pl.content.isClock)) else r.2
  let d2 := if blink then d1.raiseWhere b .blink (b.draws (fun pl => pl.blink)) else d1
  (r.1, if limit then d2.notifyAll (.clockLimit 107999) else d2)

/-! ## Placards as requests describe them (R43, R44, R54) -/

/-- The kind is one of the five, and its kind fields lie within their ranges (R44). -/
def kindInRange : ContentReq → Prop
  | .text chars font align => chars.length ≤ 160 ∧ (∀ x ∈ chars, x ≤ 511) ∧ font ≤ 3 ∧ align ≤ 2
  | .departures list firstRow rowCount rowFont badgeFont =>
    list ≤ 15 ∧ firstRow ≤ 11 ∧ 1 ≤ rowCount ∧ rowCount ≤ 12 ∧ rowFont ≤ 3 ∧ badgeFont ≤ 3
  | .ticker t => t ≤ 7
  | .clock font => font ≤ 3
  | .glyph font g => font ≤ 3 ∧ g ≤ 511
  | .unknown _ _ => False

/-- A start and an end, when both are present, stand in order (R43 note 2). -/
def inOrder (start stop : Option Nat) : Prop := ∀ a z, start = some a → stop = some z → a < z

/-- Every value of a POST lies within its range (R43, R44); flags within 0–3 (log 23). -/
def postInRange (f : PostReq) : Prop :=
  kindInRange f.content ∧ f.layer ≤ 3 ∧ 1 ≤ f.foreground ∧ f.foreground ≤ 3 ∧ f.background ≤ 4 ∧ f.flags ≤ 3 ∧
    (∀ t, f.windowStart = some t → t ≤ 107999) ∧ (∀ t, f.windowEnd = some t → t ≤ 107999) ∧
    inOrder f.windowStart f.windowEnd ∧ ∀ h, f.hold = some h → h ≤ 31

/-- The content has the kind and the kind fields that a POST gives (R44). -/
def kindGiven : ContentReq → PlacardContent → Prop
  | .text chars font align, .text chars' font' align' => chars' = chars ∧ font'.val = font ∧ align'.code.toNat = align
  | .departures list firstRow rowCount rowFont badgeFont, .departures list' firstRow' rowCount' rowFont' badgeFont' =>
    list'.val = list ∧ firstRow' = firstRow ∧ rowCount' = rowCount ∧ rowFont'.val = rowFont ∧ badgeFont'.val = badgeFont
  | .ticker t, .ticker t' => t'.val = t
  | .clock font, .clock font' => font'.val = font
  | .glyph font g, .glyph font' g' => font'.val = font ∧ g' = g
  | _, _ => False

/-- Every value that an AMEND carries lies within its range (R43, R44); flags within 0–3 (log 23). -/
def amendInRange (f : AmendReq) : Prop :=
  (∀ v, f.layer = some v → v ≤ 3) ∧ (∀ t, f.text = some t → t.length ≤ 160 ∧ ∀ x ∈ t, x ≤ 511) ∧
    (∀ v, f.font = some v → v ≤ 3) ∧ (∀ v, f.align = some v → v ≤ 2) ∧ (∀ v, f.list = some v → v ≤ 15) ∧
    (∀ v, f.firstRow = some v → v ≤ 11) ∧ (∀ v, f.rowCount = some v → 1 ≤ v ∧ v ≤ 12) ∧
    (∀ v, f.rowFont = some v → v ≤ 3) ∧ (∀ v, f.badgeFont = some v → v ≤ 3) ∧ (∀ v, f.ticker = some v → v ≤ 7) ∧
    (∀ v, f.glyph = some v → v ≤ 511) ∧ (∀ v, f.foreground = some v → 1 ≤ v ∧ v ≤ 3) ∧
    (∀ v, f.background = some v → v ≤ 4) ∧ (∀ v, f.flags = some v → v ≤ 3) ∧
    (∀ v, f.windowStart = .set v → v ≤ 107999) ∧ (∀ v, f.windowEnd = .set v → v ≤ 107999) ∧
    ∀ v, f.hold = .set v → v ≤ 31

/-- An AMEND carries no kind field of another kind than the placard's own (R44). -/
def amendFitsKind (f : AmendReq) : PlacardContent → Prop
  | .text _ _ _ => f.list = none ∧ f.firstRow = none ∧ f.rowCount = none ∧ f.rowFont = none ∧ f.badgeFont = none ∧
      f.ticker = none ∧ f.glyph = none
  | .departures _ _ _ _ _ => f.text = none ∧ f.font = none ∧ f.align = none ∧ f.ticker = none ∧ f.glyph = none
  | .ticker _ => f.text = none ∧ f.font = none ∧ f.align = none ∧ f.list = none ∧ f.firstRow = none ∧ f.rowCount = none ∧
      f.rowFont = none ∧ f.badgeFont = none ∧ f.glyph = none
  | .clock _ => f.text = none ∧ f.align = none ∧ f.list = none ∧ f.firstRow = none ∧ f.rowCount = none ∧
      f.rowFont = none ∧ f.badgeFont = none ∧ f.ticker = none ∧ f.glyph = none
  | .glyph _ _ => f.text = none ∧ f.align = none ∧ f.list = none ∧ f.firstRow = none ∧ f.rowCount = none ∧
      f.rowFont = none ∧ f.badgeFont = none ∧ f.ticker = none

/-- The kind is kept, each kind field that an AMEND carries has its value, and each that it does not carry is kept (R54). -/
def kindAmended (f : AmendReq) : PlacardContent → PlacardContent → Prop
  | .text chars font align, .text chars' font' align' => chars' = f.text.getD chars ∧
      font'.val = f.font.getD font.val ∧ align'.code.toNat = f.align.getD align.code.toNat
  | .departures list firstRow rowCount rowFont badgeFont, .departures list' firstRow' rowCount' rowFont' badgeFont' =>
    list'.val = f.list.getD list.val ∧ firstRow' = f.firstRow.getD firstRow ∧ rowCount' = f.rowCount.getD rowCount ∧
      rowFont'.val = f.rowFont.getD rowFont.val ∧ badgeFont'.val = f.badgeFont.getD badgeFont.val
  | .ticker t, .ticker t' => t'.val = f.ticker.getD t.val
  | .clock font, .clock font' => font'.val = f.font.getD font.val
  | .glyph font g, .glyph font' g' => font'.val = f.font.getD font.val ∧ g' = f.glyph.getD g
  | _, _ => False

/-- A removable field of an AMEND: kept, set, or removed (R54). -/
def amendedField (change : Change) (stored : Option Nat) : Option Nat :=
  match change with
  | .keep => stored
  | .set v => some v
  | .remove => none

/-- The port owns the hold, if one is named, with it TAKEN by that port (R51 check 6). -/
def holdTakenBy (p : PortId) (c : Content) (hold : Option Nat) : Prop :=
  ∀ h : HoldId, hold = some h.val → ∃ t, (c.holds[h]).state = .taken p t

/-- The number of cells of a text (R50). -/
def textCells (text : List Nat) : Nat := (text.length + 15) / 16

/-! ## What a placard draws (R122, R128 to R134) -/

/-- A run of characters has a glyph pixel at a column and a row (R119, R122, R128): in the drawn glyph of one of its
characters, which stands right of the start by the advances of those before it. -/
def inked (f : Font) (chars : List Nat) (start top column row : Int) : Prop :=
  ∃ before g after slot, chars = before ++ g :: after ∧ f.drawn g = some slot ∧
    let k : Int := column - start - ((before.map (fun x => f.drawnWidth x + 1)).sum : Nat)
    let r : Int := row - top
    0 ≤ k ∧ k < slot.width ∧ 0 ≤ r ∧ r < f.height ∧ f.bit slot k.toNat r.toNat = true

/-- The figure text of an entry (R131); the tokens are DUE, MIN, CANCELLED, AT_PLATFORM in this order. -/
def figureWords (tokens : Vector (List Nat) 4) : Figure → List Nat
  | .minutes m => (if m < 10 then [48 + m] else [48 + m / 10 % 10, 48 + m % 10]) ++
      (if tokens[1] = [] then [] else [32] ++ tokens[1])
  | .due => tokens[0]
  | .clock hh mm => [48 + hh / 10 % 10, 48 + hh % 10, 58, 48 + mm / 10 % 10, 48 + mm % 10]
  | .atPlatform => tokens[3]
  | .cancelled => tokens[2]

/-- The width of a run: the sum of its advances less 1, and 0 for no characters (R122). -/
def widthOf (f : Font) (chars : List Nat) : Nat := (chars.map (fun x => f.drawnWidth x + 1)).sum - 1

/-- A placard has a content pixel at a column and a row of the panel, but for the clipping of its rectangle (R129 to
R134). -/
def contentAt (c : Content) (pl : Placard) (column row : Int) : Prop :=
  let fonts := c.typeStore.fonts
  match pl.content with
  | .text chars font align =>
    let t := widthOf fonts[font] chars
    let start := if pl.w < t then pl.x else match align with
      | .left => pl.x
      | .centre => pl.x + (pl.w - t) / 2
      | .right => pl.x + pl.w - t
    inked fonts[font] chars start pl.y column row
  | .departures list firstRow rowCount rowFont badgeFont =>
    ∃ i e, i < rowCount ∧ firstRow + i < 12 ∧ c.lists[list][firstRow + i]? = some e ∧
      let top := pl.y + i * (fonts[rowFont]).height
      let figure := figureWords c.typeStore.tokens e.figure
      let width := widthOf fonts[rowFont] figure
      row < (top + (fonts[rowFont]).height : Nat) ∧
        (inked fonts[badgeFont] [e.line] pl.x top column row ∨
          (column < (pl.x + pl.w : Nat) - (width : Int) - 1 ∧ inked fonts[rowFont] ((c.destinations[e.destination]?).getD [])
            (pl.x + (fonts[badgeFont]).drawnWidth e.line + 2 : Nat) top column row) ∨
          inked fonts[rowFont] figure ((pl.x + pl.w : Nat) - (width : Int)) top column row)
  | .ticker t => let k := c.tickers[t]
    k.state = .running ∧ inked fonts[k.font] k.chars (pl.x - k.offset) pl.y column row
  | .clock font =>
    let hh := c.clock.value / 100 / 3600 % 24
    let mm := c.clock.value / 100 % 3600 / 60
    inked fonts[font] (if c.clock.state = .unset then [45, 45, 58, 45, 45]
      else [48 + hh / 10, 48 + hh % 10, 58, 48 + mm / 10, 48 + mm % 10]) pl.x pl.y column row
  | .glyph font g => inked fonts[font] [g] pl.x pl.y column row

/-- The level that a placard leaves at a pixel it covers (R127): the fill level, or the content level at a content pixel,
the two exchanged by invert; `none` for a pixel it leaves as it was. -/
def Placard.paintsLevel (pl : Placard) (isContent : Bool) : Option Nat :=
  match pl.invert, isContent with
  | false, true => some pl.foreground
  | false, false => pl.background
  | true, true => some (pl.background.getD 0)
  | true, false => some pl.foreground

/-- The placard is drawn for the panel now and covers the pixel (R46, R126). -/
def coversNow (c : Content) (q : Panel) (pl : Placard) (column row : Nat) : Bool :=
  pl.live && pl.matchesPanel q && (!pl.blink || decide (c.clock.value % 100 < 50)) &&
    decide (pl.x ≤ column ∧ column < pl.x + pl.w ∧ column < q.width ∧ pl.y ≤ row ∧ row < pl.y + pl.h ∧ row < q.height)

/-- The value of a parameter by its code (R190). -/
def settingOf (x : Settings) : Nat → Nat
  | 0 => x.horizon
  | 1 => x.threshold
  | 2 => x.staleness
  | 3 => x.overdue
  | 4 => x.cancelLinger
  | _ => x.arrivalLinger

/-- The range of a parameter by its code (R190). -/
def settingRange : Nat → Nat × Nat
  | 0 => (10, 99)
  | 1 => (15, 120)
  | 2 => (60, 900)
  | 3 => (60, 3600)
  | 4 => (0, 600)
  | _ => (30, 900)

/-- The characters that carry bytes without a fault on the line. -/
def cleanRx (bytes : List Byte) : List RxChar := bytes.map (fun b => ⟨b, true, false⟩)

/-! ## Response bodies of the reads (the layout: logs 9 and 33) -/

/-- A figure: its kind and, for MINUTES and CLOCK, its values (R13). -/
def figureBody : Figure → List Byte
  | .minutes m => [0] ++ b1 m
  | .due => [1]
  | .clock hh mm => [2] ++ b1 hh ++ b1 mm
  | .atPlatform => [3]
  | .cancelled => [4]

/-- An entry, the fields of R2 in order, each optional one after its presence byte (R13). -/
def entryBody (e : Entry) : List Byte :=
  let absent : List Byte := [0]
  let present (v : Nat) : List Byte := [1] ++ b3 v
  b3 e.trip ++ b1 e.line ++ b1 e.destination ++ b3 e.scheduled ++
    (match e.state with
      | .planned => absent ++ absent ++ [0] ++ absent ++ absent
      | .tracked q => present q.time ++ present q.stamp ++ [1] ++ absent ++ absent
      | .arrived none a => absent ++ absent ++ [2] ++ present a ++ absent
      | .arrived (some q) a => present q.time ++ present q.stamp ++ [2] ++ present a ++ absent
      | .cancelled t => absent ++ absent ++ [3] ++ absent ++ present t) ++
    figureBody e.figure ++ b1 e.source.val

/-- A placard, the fields of R43 in order (R57). -/
def placardBody (n : PlacardId) (pl : Placard) : List Byte :=
  b1 n.val ++ b1 pl.owner.val ++ [pl.base] ++ [pl.mask] ++ b2 pl.x ++ b2 pl.w ++ b1 pl.y ++ b1 pl.h ++ b1 pl.layer ++
    (match pl.content with
      | .text chars font align => [0] ++ b1 chars.length ++ chars.flatMap b2 ++ b1 font.val ++ [align.code]
      | .departures list firstRow rowCount rowFont badgeFont =>
        [1] ++ b1 list.val ++ b1 firstRow ++ b1 rowCount ++ b1 rowFont.val ++ b1 badgeFont.val
      | .ticker t => [2] ++ b1 t.val
      | .clock font => [3] ++ b1 font.val
      | .glyph font g => [4] ++ b1 font.val ++ b2 g) ++
    b1 pl.foreground ++
    (match pl.background with
      | none => [4]
      | some v => b1 v) ++
    [if pl.blink then (if pl.invert then 3 else 1) else if pl.invert then 2 else 0] ++
    bOpt b3 pl.windowStart ++ bOpt b3 pl.windowEnd ++ bOpt b1 (pl.hold.map Fin.val) ++ b4 pl.generation ++
    [if pl.live then 1 else 2]

/-- A hold at a moment: state, owner, heir, limit, the time left, the group, and the waiters, oldest first (R76). -/
def holdBody (now : Nat) (k : Hold) : List Byte :=
  let absent : List Byte := [0]
  let port (p : PortId) : List Byte := [1] ++ b1 p.val
  let left (t : Nat) : List Byte := [1] ++ b4 (t - now)
  let rest : List Byte :=
    (match k.group with
      | none => [0xFF]
      | some g => b1 g.val) ++ b1 k.waiters.length ++ k.waiters.flatMap (fun x => b1 x.port.val ++ b4 (x.deadline - now))
  match k.state with
  | .empty => [0] ++ absent ++ absent ++ b1 k.limit ++ absent ++ rest
  | .taken owner t => [1] ++ port owner ++ absent ++ b1 k.limit ++ left t ++ rest
  | .handed owner heir t => [2] ++ port owner ++ port heir ++ b1 k.limit ++ left t ++ rest

/-- A set of wake causes in two bytes, the bit of its code for each cause. -/
def causeBody (x : CauseSet) : List Byte :=
  let bit (v : Nat) (b : Bool) : Nat := if b then v else 0
  b2 (bit 1 x.content + bit 2 x.urgent + bit 4 x.figure + bit 8 x.clock + bit 16 x.blink + bit 32 x.scroll +
    bit 64 x.refresh + bit 128 x.retry + bit 256 x.stage)

/-- A defined panel at a moment: its state and definition, the wake set, the interest, the in-flight causes if it has any,
the acknowledged record, full-frame demand and failures, the times left, the last frame number, and the lanes given (R84). -/
def panelBody (now : Nat) (lanes : List LaneId) (q : Panel) : List Byte :=
  [q.state.code] ++ ([q.address] ++ b1 q.link.val ++ b1 q.drop.val ++ [q.cls.code] ++ b2 q.width ++ b1 q.height ++
      b1 q.level ++ b1 q.refresh) ++
    causeBody q.wake ++ causeBody q.interest ++
    (match q.inFlight with
      | none => [0]
      | some x => [1] ++ causeBody x) ++
    (match q.ack with
      | none => [0]
      | some r => [1] ++ b4 r.generation ++ digestBytes r.frame ++ b1 r.strips.length ++ r.strips.flatMap digestBytes) ++
    [if q.fullDemand then 1 else 0] ++ b1 q.failures ++ bOpt b4 (q.holdoff.map (fun t => t - now)) ++
    bOpt b4 (q.refreshDeadline.map (fun t => t - now)) ++ bOpt b4 (q.probeDue.map (fun t => t - now)) ++ [q.lastFrame] ++
    b1 lanes.length ++ lanes.flatMap (fun n => b1 n.val)

/-- A ticker at a moment: state and parameters; of one that is not UNDEFINED also count, head and offset, the last feeder,
and the time left (R144). -/
def tickerBody (now : Nat) (k : Ticker) : List Byte :=
  [k.state.code] ++ b1 k.font.val ++ b2 k.window ++ b1 k.period ++ b1 k.columns ++ b1 k.lowWater ++
    if k.state = .undefined then [] else b2 k.chars.length ++ b1 k.head ++ bSigned k.offset ++
      (match k.lastFeeder with
        | none => [0xFF]
        | some p => b1 p.val) ++ bOpt b4 (k.deadline.map (fun t => t - now))

/-- A link at a moment, with the bit rate given: state, divider, rate, timeout, start level, bytes in the FIFO, the frame and
the probe record, the time left to the wait, the pending SHOW, the probe pointer, the abandon count, the last outcome
(R170). -/
def linkBody (now rate : Nat) (k : Link) : List Byte :=
  let flag (b : Bool) : List Byte := [if b then 1 else 0]
  [k.state.code] ++ b2 k.divider ++ b4 rate ++ b1 k.timeout ++ b2 k.startLevel ++ b2 k.fifo.length ++
    (match k.frame with
      | none => [0]
      | some f => [1] ++ b1 f.panel.val ++ b1 f.drop.val ++
        (match f.number with
          | none => [0]
          | some n => [1] ++ [n]) ++ flag f.committed ++ flag f.complete) ++
    (match k.probe with
      | none => [0]
      | some x => [1] ++ b1 x.panel.val ++ b1 x.drop.val) ++
    bOpt b4 (k.wait.map (fun t => t - now)) ++ b1 k.pendingShow.length ++ k.pendingShow.flatMap (fun x => b1 x.val) ++
    b1 k.probePointer.val ++ b2 k.abandons ++
    match k.lastOutcome with
    | none => [0]
    | some (o, p) => [o.code] ++ b1 p.val

/-- A swap group at a moment: state, members, deadline setting; of an ARMED one also source, the expected, the arrived and
the dropped set, and the time left (R179). -/
def groupBody (now : Nat) (g : Group) : List Byte :=
  let panels (ps : List PanelId) : List Byte := b1 ps.length ++ ps.flatMap (fun p => b1 p.val)
  match g.swap with
  | none => [0] ++ panels g.members ++ b1 g.setting
  | some k => [1] ++ panels g.members ++ b1 g.setting ++
      (match k.source with
        | .port p => b1 p.val
        | .hold => [4]) ++
      panels k.expected ++ panels (k.expected.filter (fun p => decide (p ∈ k.staged.map (fun r => r.panel)))) ++
      panels k.dropped ++ b4 (k.deadline - now)

/-! ## Bodies whose counts account for their bytes (R192) -/

/-- A field after its presence byte or its mark: 00h alone, or 01h and a value of so many bytes. -/
def markedField (width : Nat) (bs : List Byte) : Prop := bs = [0] ∨ ∃ v, bs = 1 :: v ∧ v.length = width

/-- A text: a count, then two bytes a character. -/
def countedText (bs : List Byte) : Prop := ∃ (n : Byte) (chars : List Byte), bs = n :: chars ∧ chars.length = 2 * n.toNat

/-- The kind fields of a POST after its kind code (R44); after a code that is no kind any bytes (log 11). -/
def kindFieldBytes (code : Byte) (bs : List Byte) : Prop :=
  match code.toNat with
  | 0 => ∃ text rest, bs = text ++ rest ∧ countedText text ∧ rest.length = 2
  | 1 => bs.length = 5
  | 2 => bs.length = 1
  | 3 => bs.length = 1
  | 4 => bs.length = 3
  | _ => True

/-- One entry of a GLYPH_LOAD: glyph, width, and a bitmap of width × height / 8 bytes (R119). -/
def glyphEntryBytes (height : Nat) (bs : List Byte) : Prop :=
  ∃ (g0 g1 width : Byte) (bitmap : List Byte), bs = g0 :: g1 :: width :: bitmap ∧
    bitmap.length = width.toNat * height / 8

/-- The fixed body lengths: the sums of the widths of the fields that each rule names (chapter 13). -/
def fixedBodyLength : Nat → Option Nat
  | 0x10 => some 9 | 0x11 => some 7 | 0x12 => some 4 | 0x13 => some 4 | 0x14 => some 4 | 0x15 => some 1
  | 0x20 => some 4 | 0x21 => some 4 | 0x22 => some 0
  | 0x33 => some 1 | 0x34 => some 1 | 0x35 => some 2
  | 0x40 => some 2 | 0x41 => some 1 | 0x42 => some 2 | 0x43 => some 3 | 0x44 => some 1
  | 0x50 => some 10 | 0x51 => some 1 | 0x52 => some 1 | 0x53 => some 1
  | 0x60 => some 2
  | 0x70 => some 8 | 0x72 => some 1 | 0x73 => some 1
  | 0x80 => some 6 | 0x81 => some 1 | 0x82 => some 1 | 0x83 => some 1
  | 0x91 => some 1 | 0x92 => some 1
  | 0xA0 => some 1 | 0xA1 => some 0 | 0xA2 => some 2 | 0xA3 => some 0 | 0xA4 => some 0
  | _ => none

/-- The body is one that R192 does not call malformed: of the fixed length of its kind, or one whose counts and marks
account exactly for the bytes that follow them. `heights` are the heights of the fonts. -/
def bodyAccounted (heights : List Nat) (kind : Byte) (body : List Byte) : Prop :=
  match kind.toNat with
  | 0x16 | 0x32 | 0x62 | 0x71 => ∃ (n : Byte) (text : List Byte), body = n :: text ∧ countedText text
  | 0x23 => ∃ (n : Byte) (pairs : List Byte), body = n :: pairs ∧ pairs.length = 3 * n.toNat
  | 0x30 => ∃ (front : List Byte) (code : Byte) (fields look start stop hold : List Byte), front.length = 9 ∧
      look.length = 3 ∧ body = front ++ code :: (fields ++ look ++ start ++ stop ++ hold) ∧ kindFieldBytes code fields ∧
      markedField 3 start ∧ markedField 3 stop ∧ markedField 1 hold
  | 0x31 => ∃ (n : Byte) (front : List (List Byte)) (text : List Byte) (back removable : List (List Byte)),
      body = n :: (front.flatten ++ text ++ back.flatten ++ removable.flatten) ∧
      List.Forall₂ markedField [1, 1, 2, 2, 1, 1, 1] front ∧
      (text = [0] ∨ ∃ t, text = 1 :: t ∧ countedText t) ∧
      List.Forall₂ markedField [1, 1, 1, 1, 1, 1, 1, 1, 2, 1, 1, 1] back ∧
      List.Forall₂ (fun width bs => bs = [2] ∨ markedField width bs) [3, 3, 1] removable
  | 0x61 => ∃ (font n : Byte) (entries : List (List Byte)), body = font :: n :: entries.flatten ∧
      entries.length = n.toNat ∧ ∃ height : Nat, (∀ bs ∈ entries, glyphEntryBytes height bs) ∧
        match heights[font.toNat]? with
        | some h => height = h
        | none => height = 8 ∨ height = 16
  | 0x90 => ∃ (group n : Byte) (rest : List Byte), body = group :: n :: rest ∧ rest.length = n.toNat + 1
  | k => fixedBodyLength k = some body.length

/-! ## Lanes and links -/

/-- The works `w'` follow from `w` as link `l` returns to IDLE (R165, R167, R169): the frame, the probe, the wait and the
FIFO go, then a pending SHOW is sent, else a due probe is begun. A SHOW on the line goes on. -/
def ReturnsToIdle (l : LinkId) (w w' : Works) : Prop :=
  let k := w.links[l]
  let idle : Link := { k with
    state := .idle, fifo := [], frame := none, probe := none, wait := none, line := .released, busy := 0, rx := [] }
  (k.line = .show → w' = { w with links := w.links.set l { idle with line := .show } }) ∧
  (k.line ≠ .show → k.pendingShow ≠ [] → w' = { w with links := w.links.set l { idle with
    line := .show, sent := showMessage k.pendingShow, pendingShow := [] } }) ∧
  (k.line ≠ .show → k.pendingShow = [] →
    (w.dueProbe l = none → w' = { w with links := w.links.set l idle }) ∧
    ∀ x, w.dueProbe l = some x → w' = { w with
      panels := w.panels.set x.1 (some { x.2 with probeDue := some (w.now + 5000), probeMark := true })
      links := w.links.set l { idle with
        state := .probing
        probePointer := x.2.drop
        probe := some ⟨x.1, x.2.drop, x.2.cls, x.2.width, x.2.height⟩
        line := .probe
        sent := withCheck [0x81, BitVec.ofNat 8 x.2.drop.val, BitVec.ofNat 8 k.timeout] } })

/-- The works `v` follow from `w` as link `l` lets its frame go without a report (R82, R115, R158, R162, R164, R166): a frame
in transmission cut short with one break and counted once, one that waits or whose reply is awaited discarded, the link then
IDLE; a link with no frame is left as it is. -/
def LetsFrameGo (l : LinkId) (w v : Works) : Prop :=
  let k := w.links[l]
  (k.state = .streaming → k.breaking = false → v = { w with
    links := w.links.set l { k with line := .brk false, abandons := min 65535 (k.abandons + 1), busy := 0 } }) ∧
  (k.state = .streaming → k.breaking = true → v = w) ∧
  (k.state = .reserved ∨ k.state = .awaitingReply → ReturnsToIdle l w v) ∧
  (k.state = .disabled ∨ k.state = .idle ∨ k.state = .probing → v = w)

/-- The link `k'` follows from `k` as SHOW is asked of it for some drops (R169): a DISABLED link drops the request; else the
drops join the pending SHOW, which is sent at once when the link is IDLE or RESERVED and its line free. -/
def ShowAsked (asked : Drop → Prop) (k k' : Link) : Prop :=
  (k.state = .disabled ∨ (∀ x, ¬ asked x) → k' = k) ∧
  ∀ drops : List Drop, drops.Pairwise (fun x y => x < y) → (∀ x, x ∈ drops ↔ x ∈ k.pendingShow ∨ asked x) →
    k.state ≠ .disabled → (∃ x, asked x) →
    (k.state = .idle ∨ k.state = .reserved → k.line = .released →
      k' = { k with line := .show, sent := showMessage drops, pendingShow := [], rx := [] }) ∧
    ((k.state ≠ .idle ∧ k.state ≠ .reserved) ∨ k.line ≠ .released → k' = { k with pendingShow := drops })

/-- The lanes as the swaps of some members end: a staged candidate of one of them is marked as of an ended swap, and keeps its
staged candidate mark (R178). -/
def outlived (swapping : PanelId → Bool) (lanes : Vector Lane 8) : Vector Lane 8 :=
  mapTable (fun n => if n.panel.any swapping then
      { n with frame := n.frame.map (fun f => { f with swapEnded := f.swapEnded || f.stagedCandidate }) }
    else n) lanes

/-! ## The rotation step, flat (R101, R102, R104) -/

/-- The positions of one rotation step with the panel at each: the first-level cycle from its pointer, the slot standing
for the level-2 panels from theirs (R101). -/
def walkOrder (w : Works) : List (FirstPointer × PanelId) :=
  w.firstCycle.flatMap (fun x => match x with
    | .panel p => [(x, p)]
    | .slot => w.secondCycle.map (fun p => (x, p)))

/-- The panel is one that the rotation step may serve or pass over: eligible without URGENT (R101). -/
def rotates (c : Content) (gs : Vector Group 8) (w : Works) (p : PanelId) : Bool := eligible c gs w p && !w.urgent p

/-- A lane for a LINE or ROWS panel, a pair for a WIDE one, is to be had (R103, R104). -/
def hasLanes (w : Works) (p : PanelId) : Bool :=
  match w.panels[p] with
  | none => false
  | some q => if q.cls = .wide then (w.choosePair p).isSome else (w.chooseLane p).isSome

/-- The panel keeps its place (R101, R102): the holder of the claim, or a WIDE panel that finds no pair. -/
def keepsPlace (c : Content) (gs : Vector Group 8) (w : Works) (p : PanelId) : Bool :=
  rotates c gs w p && (w.holdsClaim p || (w.panels[p].any (fun q => decide (q.cls = .wide)) && !hasLanes w p))

/-- The panel is served where the walk meets it. -/
def servedHere (c : Content) (gs : Vector Group 8) (w : Works) (p : PanelId) : Bool :=
  rotates c gs w p && !w.holdsClaim p && hasLanes w p

/-- The walk goes past a panel that it does not serve: one passed over, the holder of the claim apart, is counted (R104). -/
def goPast (c : Content) (gs : Vector Group 8) (w : Works) (x : FirstPointer × PanelId) : Works :=
  if keepsPlace c gs w x.2 && !w.holdsClaim x.2 then w.passOver x.2 else w

/-- The positions at which the walk past the positions given meets a panel that keeps its place. -/
def keptPlaces (c : Content) (gs : Vector Group 8) : List (FirstPointer × PanelId) → Works →
    List (FirstPointer × PanelId)
  | [], _ => []
  | x :: xs, w => (if keepsPlace c gs w x.2 then [x] else []) ++ keptPlaces c gs xs (goPast c gs w x)

/-- The wake set that a panel takes back from the lanes that serve it (R86). -/
def TakesBack (w : Works) (p : PanelId) (wake merged : CauseSet) : Prop :=
  ∀ c : Cause, merged.has c = true ↔ wake.has c = true ∨ ∃ n ∈ w.lanesServing p, (w.lanes[n]).work.has c = true

/-- A lane that goes on holding its panel's context alone: RESIDENT, or CLAIMED in a claimed pair (R106, R112, R117). -/
def keptLane (w : Works) (n : LaneId) : Lane :=
  if w.inClaimedPair n then Lane.claimed
  else { Lane.free with
    state := .resident
    panel := (w.lanes[n]).panel
    partner := (w.lanes[n]).partner
    context := (w.lanes[n]).context }

/-- The records of a panel agree but for what the adoption of a staged record changes (R90). -/
def sameButAck (a b : Option Panel) : Prop :=
  a.map (fun q => { q with ack := none, fullDemand := true, refreshDeadline := none }) =
    b.map (fun q => { q with ack := none, fullDemand := true, refreshDeadline := none })

/-! ## Invariants of the blocks -/

/-- A departure list: at most 12 entries, no trip twice, in ascending order of the order key (R1, R4, R5). -/
def listOk (es : List Entry) : Prop :=
  es.length ≤ 12 ∧ es.Pairwise (fun a b => a.before b = true ∧ a.trip ≠ b.trip)

/-- The station clock: value, state and remaining slew as R26, R27 and R29 to R31 let them stand together,
RUNNING at the last value being left at once (log 18). -/
def clockOk (k : Clock) : Prop :=
  match k.state with
  | .unset => k.value = 0 ∧ k.slew = 0
  | .running => k.value < clockLimit ∧ k.slew = 0
  | .slewing => k.value ≤ clockLimit ∧ k.slew ≠ 0 ∧ -200 ≤ k.slew ∧ k.slew ≤ 200 ∧ (k.value = clockLimit → k.slew < 0)
  | .limit => k.value = clockLimit ∧ k.slew = 0

/-- The parameters within their ranges (R23, R41). -/
def settingsOk (x : Settings) : Prop :=
  10 ≤ x.horizon ∧ x.horizon ≤ 99 ∧ 15 ≤ x.threshold ∧ x.threshold ≤ 120 ∧ 60 ≤ x.staleness ∧ x.staleness ≤ 900 ∧
    60 ≤ x.overdue ∧ x.overdue ≤ 3600 ∧ x.cancelLinger ≤ 600 ∧ 30 ≤ x.arrivalLinger ∧ x.arrivalLinger ≤ 900

/-- The draw order: every placard that is not FREE once, by layer (R47). -/
def orderOk (b : Board) : Prop :=
  b.drawOrder.Nodup ∧ (∀ n : PlacardId, n ∈ b.drawOrder ↔ (b.placards[n]).isSome) ∧
    b.drawOrder.Pairwise (fun m n => b.layerOf m ≤ b.layerOf n)

/-- The text pool: the cells in use are the sum over the placards, and never exceed 1,024 (R50). -/
def cellsOk (b : Board) : Prop :=
  b.cellsUsed = (b.present.map (fun pl => pl.content.cells)).sum ∧ b.cellsUsed ≤ 1024

/-- A hold record: no waiters while EMPTY, each waiting port once, and neither owner nor heir waits (R65, R69, R73). -/
def holdOk (k : Hold) : Prop :=
  (k.waiters.map (fun x => x.port)).Nodup ∧
    match k.state with
    | .empty => k.waiters = []
    | .taken owner _ => ∀ x ∈ k.waiters, x.port ≠ owner
    | .handed owner heir _ => owner ≠ heir ∧ ∀ x ∈ k.waiters, x.port ≠ owner ∧ x.port ≠ heir

/-- A font region: the space used within 16,384 bytes, glyphs present once each with a width 1–16 and a place within the
space used (R118, R119). -/
def fontOk (f : Font) : Prop :=
  (f.height = 8 ∨ f.height = 16) ∧ f.region.length ≤ 16384 ∧
    f.directory.Pairwise (fun a b => a.1 < b.1) ∧
    ∀ x ∈ f.directory, x.1 < 512 ∧ 1 ≤ x.2.width ∧ x.2.width ≤ 16 ∧
      x.2.place + x.2.width * f.height / 8 ≤ f.region.length

/-- A ticker record: its parameters in range, at most 256 characters, and RUNNING exactly when it holds characters, which
is exactly when it has a step deadline (R136 to R141). -/
def tickerOk (k : Ticker) : Prop :=
  8 ≤ k.window ∧ k.window ≤ 512 ∧ 20 ≤ k.period ∧ k.period ≤ 200 ∧ 1 ≤ k.columns ∧ k.columns ≤ 4 ∧ k.lowWater ≤ 255 ∧
    k.chars.length ≤ 256 ∧ k.head < 256 ∧ (k.state = .running ↔ k.chars ≠ []) ∧ (k.state = .running ↔ k.deadline.isSome)

/-- A port record between commands: the queues within 8 frames, no slot reserved, completions waiting only while the
response queue is full (R181, R184, R185), and each notice under its own kind with a count of 1 to 255 (R187). -/
def portOk (pt : Port) : Prop :=
  pt.requests.length ≤ 8 ∧ pt.responses.length ≤ 8 ∧ pt.reserved = false ∧
    (pt.waiting ≠ [] → pt.responses.length = 8) ∧
    ∀ k : Fin 10, ∀ r, pt.notices[k] = some r → r.notice.kind = k ∧ 1 ≤ r.count ∧ r.count ≤ 255

/-- The panel table: no location twice, each geometry within its class, levels 1 and 2, and an empty wake set in PARKED
(R79, R80, R81, R85). -/
def panelsOk (w : Works) : Prop :=
  (∀ p q : PanelId, ∀ a b, w.panels[p] = some a → w.panels[q] = some b → a.link = b.link → a.drop = b.drop → p = q) ∧
    ∀ p : PanelId, ∀ a, w.panels[p] = some a →
      geometryAccepted a.cls a.width a.height = true ∧ (a.level = 1 ∨ a.level = 2) ∧ a.refresh ≤ 60 ∧
        (a.state = .parked → a.wake = CauseSet.none)

/-- The swap groups: at most 16 members each, a panel in one group at most, and in a swap the arrived and the dropped
members apart and expected, an expected panel that has not dropped out being a member (R171, R172, R175, R176). -/
def groupsOk (gs : Vector Group 8) : Prop :=
  (∀ g h : GroupId, ∀ p, p ∈ (gs[g]).members → p ∈ (gs[h]).members → g = h) ∧
    ∀ g : GroupId, (gs[g]).members.length ≤ 16 ∧ (gs[g]).members.Pairwise (· < ·) ∧ 1 ≤ (gs[g]).setting ∧
      (gs[g]).setting ≤ 100 ∧
      ∀ x, (gs[g]).swap = some x →
        x.arrived.Nodup ∧ (∀ p ∈ x.arrived, p ∈ x.expected ∧ p ∉ x.dropped) ∧ (∀ p ∈ x.dropped, p ∈ x.expected) ∧
          ∀ p ∈ x.expected, p ∉ x.dropped → p ∈ (gs[g]).members

/-- The transmit FIFOs hold at most 1,024 bytes (R157). -/
def fifosOk (w : Works) : Prop := ∀ l : LinkId, (w.links[l]).fifo.length ≤ 1024

end Sys2Proof.Machine
end

