-- ==== Sys2Proof/WellFormed.lean ====
section
/-! DEFINITION. Which commands can reach the part: a request whose body a frame can spell (13_message_and_frame_layouts.md),
and received characters that make the reply their row names (R193). exec is total and asks none of it (log 24). -/

namespace Sys2Proof

/-- Every value fits the width its layout gives it, and the body the frame's limit of 596 bytes (chapter 13). -/
def bodyFits (fs : List Field) : Bool :=
  fs.all (fun f => decide (f.1 < 256 ^ f.2)) && decide ((fieldBytes fs).length ≤ 596)

/-- The tag operand fits the header's tag byte. -/
def tagFits : Instr → Bool
  | .confirmShown _ tag _ _ => decide (tag < 256)
  | .take _ tag _ _ => decide (tag < 256)
  | _ => true

/-- The reply that the characters open is of the type the row names. -/
def rxOpens (kind : Byte) (rx : List RxChar) : Bool := (rx.head?.map RxChar.byte) == some kind

/-- A POST's `unknown` content is of a code absent from the kind's row, and its bytes end as a POST ends (R192, log 11). -/
def contentCoded : Instr → Bool
  | .post _ fields => match fields.content with
    | .unknown code rest => decide (4 < code) && endsPost rest
    | _ => true
  | _ => true

/-- The well-formed commands. -/
def Instr.wellFormed (i : Instr) : Bool :=
  bodyFits i.bodyFields && tagFits i && contentCoded i &&
    match i with
    | .ack _ rx => rxOpens 0xC0 rx
    | .nak _ rx => rxOpens 0xC1 rx
    | .ident _ rx => rxOpens 0xC2 rx
    | _ => true

end Sys2Proof
end

