-- ==== Sys2Proof/Certificates/Slice0/Obligations.lean ====
section
/-! DEFINITION. The statements for the provers. `Replies`, `Leaves` and the invariants are in Sys2Proof/Safety.lean. A
statement's `Leaves` or `Replies` gives the command's own effect whole, the frame with it: the selections that follow it
(R99) are applied on top by settleDelivery, whose frame is SelectionsKeepAllButSchedulingState. Response bodies are in the
byte layout of log 9. -/

section

open Sys2Proof Sys2Proof.Machine

/-! ## The machine -/

/-- A step takes the command at the front of the queue and runs it on the state with the queue's rest. -/
def Obligations.StepRunsTheFrontCommand : Prop :=
  ∀ (i : Instr) (rest : List Instr) (s : State), s.pending = i :: rest → step s = exec i { s with pending := rest }

/-- MODEL'S CHOICE (logs 3, 13): on an empty queue one ms of the internal time base passes. Link by link, by rising number,
each that transmits a frame sends the FIFO bytes whose turn comes within the ms, counted from the line time left to the next
byte, a byte of divider n taking n units of 200 ns (R158, R163), and the lanes of its panel go on writing (R110). Panels and
rotation stay as they were, and no selection follows. -/
def Obligations.EmptyQueueLetsOneMillisecondPass : Prop :=
  let bytes (k : Link) : Nat := if k.divider = 0 then 0 else (5000 - k.busy + k.divider - 1) / k.divider
  let sends (w : Works) (l : LinkId) : Works :=
    let k := w.links[l]
    if k.state = .streaming ∧ k.line = .frame then
      let v : Works := { w with links := w.links.set l { k with
        fifo := k.fifo.drop (bytes k)
        sent := k.sent ++ k.fifo.take (bytes k)
        busy := if k.divider = 0 then 0 else k.busy + bytes k * k.divider - 5000 } }
      match k.frame with
      | none => v
      | some f => v.resume f.panel
    else w
  (∀ k : Link, k.divider ≠ 0 → 5000 ≤ k.busy + bytes k * k.divider ∧
    ∀ m < bytes k, k.busy + m * k.divider < 5000) ∧
  ∀ s : State, s.pending = [] →
    let w := (List.finRange 8).foldl sends { s.delivery.works with now := s.delivery.works.now + 1 }
    step s = .next { s with delivery := { s.delivery with works := w } } ∧
      w.now = s.delivery.works.now + 1 ∧ w.panels = s.delivery.works.panels ∧ w.rotation = s.delivery.works.rotation

/-- RESETN gives every block its initial state and each port the rank of its RK pin; RESETN_LOW stops FDO and FNTC and
makes select periods be ignored. The queue of commands is the model's own and is kept (log 17). -/
def Obligations.ResetPinAndInitialState : Prop :=
  (∀ (rk0 rk1 rk2 rk3 : Bool) (s : State), ∃ t, exec (.resetn rk0 rk1 rk2 rk3) s = .next t ∧
    t.pending = s.pending ∧ t.resetIsLow = false ∧
    (∀ p : PortId, (t.delivery.ports[p]).rank =
      (if [rk0, rk1, rk2, rk3][p]'p.isLt then Rank.supervisor else Rank.feed)) ∧
    (∀ p : PortId, (t.delivery.ports[p]).requests = [] ∧ (t.delivery.ports[p]).responses = [] ∧
      (t.delivery.ports[p]).reserved = false ∧ (∀ k : Tag, (t.delivery.ports[p]).tags[k] = .free) ∧
      (t.delivery.ports[p]).waiting = [] ∧ (∀ k : Fin 10, (t.delivery.ports[p]).notices[k] = none) ∧
      (t.delivery.ports[p]).mask = 0) ∧
    (∀ l : ListId, t.content.lists[l] = []) ∧ (∀ i : Fin 128, t.content.destinations[i] = []) ∧
    t.content.settings = ⟨30, 45, 300, 600, 120, 180⟩ ∧ t.content.clock = ⟨0, .unset, 0⟩ ∧
    (∀ n : PlacardId, t.content.board.placards[n] = none) ∧ t.content.board.drawOrder = [] ∧
    t.content.board.cellsUsed = 0 ∧ t.content.board.generation = 0 ∧ t.delivery.confirmations = [] ∧
    (∀ h : HoldId, t.content.holds[h] = ⟨.empty, [], 20, none⟩) ∧
    (∀ f : FontId, t.content.typeStore.fonts[f] = ⟨8, [], []⟩) ∧ (∀ k : FontId, t.content.typeStore.tokens[k] = []) ∧
    (∀ k : TickerId, t.content.tickers[k] = ⟨.undefined, 0, 128, 50, 1, 0, [], 0, 0, none, none⟩) ∧
    (∀ p : PanelId, t.delivery.works.panels[p] = none) ∧
    (∀ n : LaneId, t.delivery.works.lanes[n] = Lane.free) ∧
    t.delivery.works.rotation.urgent = 63 ∧ t.delivery.works.rotation.first = .panel 0 ∧
    t.delivery.works.rotation.second = 0 ∧ (∀ p : PanelId, t.delivery.works.rotation.passes[p] = 0) ∧
    t.delivery.works.rotation.claim = none ∧
    (∀ l : LinkId, let k := t.delivery.works.links[l]
      k.state = .disabled ∧ k.divider = 0 ∧ k.timeout = 20 ∧ k.startLevel = 256 ∧ k.fifo = [] ∧ k.frame = none ∧
        k.probe = none ∧ k.wait = none ∧ k.pendingShow = [] ∧ k.probePointer = 7 ∧ k.abandons = 0 ∧
        k.lastOutcome = none) ∧
    ∀ g : GroupId, t.delivery.groups[g] = ⟨[], 20, none⟩) ∧
  ∀ s : State, ∃ t, exec .resetnLow s = .next t ∧ t.resetIsLow = true ∧ t.content = s.content ∧
    t.pending = s.pending ∧ t.delivery.works = s.delivery.works ∧ t.delivery.groups = s.delivery.groups ∧
    t.delivery.confirmations = s.delivery.confirmations ∧
    ∀ p : PortId, t.delivery.ports[p] = { s.delivery.ports[p] with fdo := [] } ∧ t.fntc p = false ∧
      ∀ fdi, exec (.transfer p fdi) t = .next t

/-- The state after reset meets every invariant below: of the departure lists, clock and parameters, the board, holds, type
store, tickers, ports, panel table, swap groups and link FIFOs. -/
def Obligations.ResetStateIsSafe : Prop :=
  (∀ l : ListId, listOk State.reset.content.lists[l]) ∧ clockOk State.reset.content.clock ∧
    settingsOk State.reset.content.settings ∧ orderOk State.reset.content.board ∧ cellsOk State.reset.content.board ∧
    (∀ h : HoldId, holdOk State.reset.content.holds[h]) ∧ (∀ f : FontId, fontOk State.reset.content.typeStore.fonts[f]) ∧
    (∀ t : TickerId, tickerOk State.reset.content.tickers[t]) ∧ (∀ p : PortId, portOk State.reset.delivery.ports[p]) ∧
    panelsOk State.reset.delivery.works ∧ groupsOk State.reset.delivery.groups ∧ fifosOk State.reset.delivery.works

/-! ## Invariants that every step keeps -/

/-- Every list keeps at most 12 entries, in strictly ascending order of the key, no trip twice (R4). -/
def Obligations.StepsKeepDepartureListsInOrder : Prop :=
  ∀ s t : State, (∀ l : ListId, listOk s.content.lists[l]) → step s = .next t → ∀ l : ListId, listOk t.content.lists[l]

/-- Clock and parameters stay within what their rules allow: the parameters in their ranges (R23, R41), the clock's value and
remaining slew in theirs, both 0 in UNSET, the slew 0 but in SLEWING (R26), RUNNING below the last value 10,799,999 and LIMIT
at it (R27), SLEWING with a remaining slew other than 0 (R29, R30), and at the last value with a negative one (R31). MODEL'S
READING: a clock that is SLEWING at the last value and that a CLOCK_SET of difference 0 makes RUNNING (R29) enters LIMIT at
once (log 18). -/
def Obligations.StepsKeepClockAndParametersInRange : Prop :=
  ∀ s t : State, clockOk s.content.clock ∧ settingsOk s.content.settings → step s = .next t →
    clockOk t.content.clock ∧ settingsOk t.content.settings

/-- The draw order holds every placard that is not FREE once, sorted by layer (R47), and the cells in use are the sum over
the placards and at most 1,024 (R50). -/
def Obligations.StepsKeepDrawOrderAndTextPool : Prop :=
  ∀ s t : State, orderOk s.content.board ∧ cellsOk s.content.board → step s = .next t →
    orderOk t.content.board ∧ cellsOk t.content.board

/-- No hold that is EMPTY has waiters, no port waits twice, and neither owner nor heir waits (R65, R69, R71, R73). -/
def Obligations.StepsKeepHoldQueues : Prop :=
  ∀ s t : State, (∀ h : HoldId, holdOk s.content.holds[h]) → step s = .next t → ∀ h : HoldId, holdOk t.content.holds[h]

/-- Tickers: RUNNING exactly with characters, exactly with a step deadline, at most 256 of them (R136 to R141). -/
def Obligations.StepsKeepTickers : Prop :=
  ∀ s t : State, (∀ k : TickerId, tickerOk s.content.tickers[k]) → step s = .next t →
    ∀ k : TickerId, tickerOk t.content.tickers[k]

/-- Font regions: the space used stays within 16,384 bytes and every present glyph within it (R118, R119, R121). -/
def Obligations.StepsKeepFontRegions : Prop :=
  ∀ s t : State, (∀ f : FontId, fontOk s.content.typeStore.fonts[f]) → step s = .next t →
    ∀ f : FontId, fontOk t.content.typeStore.fonts[f]

/-- Ports: queues within 8 frames, completions waiting only behind a full response queue, one record a notice kind (R181,
R184, R185, R187). -/
def Obligations.StepsKeepPortQueues : Prop :=
  ∀ s t : State, (∀ p : PortId, portOk s.delivery.ports[p]) → step s = .next t → ∀ p : PortId, portOk t.delivery.ports[p]

/-- Panel table and FIFOs: no location twice, geometries within their class, PARKED with no cause, and no FIFO above 1,024
bytes (R79 to R81, R85, R157). -/
def Obligations.StepsKeepPanelTableAndFifos : Prop :=
  ∀ s t : State, panelsOk s.delivery.works ∧ fifosOk s.delivery.works → step s = .next t →
    panelsOk t.delivery.works ∧ fifosOk t.delivery.works

/-- Swap groups: members within 16 and in one group only, arrived and dropped members apart and expected (R171 to R176). -/
def Obligations.StepsKeepSwapGroups : Prop :=
  ∀ s t : State, groupsOk s.delivery.groups → step s = .next t → groupsOk t.delivery.groups

/-- Between resets the board generation never decreases (R58, R155) and no port changes its rank (R181). -/
def Obligations.GenerationAndRanksBetweenResets : Prop :=
  ∀ (i : Instr) (s t : State), (∀ rk0 rk1 rk2 rk3, i ≠ .resetn rk0 rk1 rk2 rk3) →
    s.content.board.generation ≤ 4294967295 → exec i s = .next t →
    s.content.board.generation ≤ t.content.board.generation ∧ t.content.board.generation ≤ 4294967295 ∧
      ∀ p : PortId, (t.delivery.ports[p]).rank = (s.delivery.ports[p]).rank

/-- When a panel is eligible (R98, R66, R174), and when selections run (R99): none after a command that made no lane FREE,
RESIDENT or CLAIMED, made no panel eligible and ended no claim; else one for each of these triggers, one more after each that
serves a panel, and one for each trigger that a selection itself brings, each finding the works as the one before left them,
so that the last serves nothing. What they leave alone (R86, R107, R115): ports, groups, confirmations, the time base, and of
each panel everything but its state, its wake set, and the probe that a link freed by a preemption may begin (R167). MODEL'S
CHOICES (log 5): a panel eligible before that gains URGENT is a trigger, the end of a claim is one where no lane became FREE,
RESIDENT or CLAIMED, and at most 1,000 selections follow a command. -/
def Obligations.SelectionsKeepAllButSchedulingState : Prop :=
  (∀ (c : Content) (gs : Vector Group 8) (w : Works) (p : PanelId), eligible c gs w p = true ↔
    ∃ q, w.panels[p] = some q ∧ q.state = .ready ∧ q.holdoff = none ∧ (w.links[q.link]).state = .idle ∧
      ((w.links[q.link]).line = .show → w.dueProbe q.link = none) ∧
      (q.wake.has .urgent = true ∨
        ((∀ (n : PlacardId) (pl : Placard) (h : HoldId), c.board.placards[n] = some pl → pl.hold = some h →
            (c.holds[h]).state ≠ .empty → q.address &&& pl.mask ≠ pl.base &&& pl.mask) ∧
          (q.wake.has .stage = true ∨ ∀ g : GroupId, (gs[g]).swap ≠ none → p ∉ (gs[g]).members)))) ∧
  ∀ (c c' : Content) (d d' : Delivery), let e := settleDelivery c d c' d'
    let gs := d'.groups
    let taken (n : LaneId) (v w : Works) : Prop := (w.lanes[n]).state ≠ (v.lanes[n]).state ∧
      ((w.lanes[n]).state = .free ∨ (w.lanes[n]).state = .resident ∨ (w.lanes[n]).state = .claimed)
    let urgent (w : Works) (p : PanelId) : Bool := (w.panels[p]).any (fun q => q.wake.has .urgent)
    let entered (before after : Bool) (p : PanelId) (v w : Works) : Prop :=
      after = true ∧ (before = false ∨ (urgent w p = true ∧ urgent v p = false))
    let lanes (v w : Works) : Nat := ((List.finRange 8).filter (fun n => decide (taken n v w))).length
    let panels (c : Content) (gs' : Vector Group 8) (v w : Works) : Nat := ((List.finRange 64).filter (fun p =>
      decide (entered (eligible c gs' v p) (eligible c' gs w p) p v w))).length
    let ended : Prop := d.works.rotation.claim ≠ none ∧ d'.works.rotation.claim = none
    let due := lanes d.works d'.works + panels c d.groups d.works d'.works +
      if ended ∧ lanes d.works d'.works = 0 then 1 else 0
    let after (k : Nat) : Works := (fun w => (w.selection c' gs).1)^[k] d'.works
    let brought (k : Nat) : Nat := (if ((after k).selection c' gs).2 = true then 1 else 0) +
      lanes (after k) (after (k + 1)) + panels c' gs (after k) (after (k + 1))
    let called (k : Nat) : Nat := due + ((List.range k).map brought).sum
    ((∀ n, ¬ taken n d.works d'.works) →
      (∀ p, ¬ entered (eligible c d.groups d.works p) (eligible c' gs d'.works p) p d.works d'.works) → ¬ ended → e = d') ∧
    (∃ n, n ≤ 1000 ∧ e = { d' with works := after n } ∧ (∀ k < n, k < called k) ∧ (n < 1000 → called n = n) ∧
      (0 < n → n < 1000 → ((after (n - 1)).selection c' gs).2 = false)) ∧
    e.ports = d'.ports ∧ e.groups = d'.groups ∧ e.confirmations = d'.confirmations ∧ e.works.now = d'.works.now ∧
      ∀ p : PanelId, (e.works.panels[p]).map (fun q =>
          { q with state := .ready, wake := CauseSet.none, probeDue := none, probeMark := false }) =
        (d'.works.panels[p]).map (fun q =>
          { q with state := .ready, wake := CauseSet.none, probeDue := none, probeMark := false })

/-! ## Feed ports -/

/-- When a port takes a request (R184), and that nothing happens when it does not. MODEL'S CHOICE (log 1): from an empty
request queue the request reaches the port with the command. -/
def Obligations.PortTakesItsOldestRequest : Prop :=
  ∀ (i : Instr) (p : PortId) (s : State), requestPort i = some p →
    (s.canTake p i ↔ (s.delivery.ports[p]).reserved = false ∧ (s.delivery.ports[p]).waiting = [] ∧
      (s.delivery.ports[p]).responses.length < 8 ∧
      ((s.delivery.ports[p]).requests = [] ∨ (s.delivery.ports[p]).requests.head? = some i)) ∧
    (¬ s.canTake p i → exec i s = .next s)

/-- Every request that is taken leaves the request queue and puts one response, naming it, at the tail of the response
queue, ahead of the completions fixed meanwhile (R184). MODEL'S CHOICE (log 39): the tag byte of the response, that of the
request for every TAKE and CONFIRM_SHOWN, else 0. -/
def Obligations.EveryRequestTakenIsAnsweredOnce : Prop :=
  ∀ (i : Instr) (p : PortId) (s : State), requestPort i = some p → s.canTake p i →
    ∃ t r later, exec i s = .next t ∧
      (t.delivery.ports[p]).requests = (s.delivery.ports[p]).requests.tail ∧ (t.delivery.ports[p]).reserved = false ∧
      (t.delivery.ports[p]).responses = (s.delivery.ports[p]).responses ++ responseFrame i r :: later ∧
      (∀ f ∈ later, f.form = 0x02) ∧ t.pending = s.pending

/-- A supervisor request from a port of rank FEED is refused with DENIED, before any other check, and changes nothing
(R181). -/
def Obligations.SupervisorRequestFromFeedPortIsDenied : Prop :=
  ∀ (i : Instr) (p : PortId) (s : State), requestPort i = some p → supervisorOnly i = true →
    (s.delivery.ports[p]).rank = .feed → s.canTake p i → Replies p i (refuse .denied) s s.content (s.taking p)

/-- Which bytes are an empty poll, an incomplete frame, a malformed one, or a request, whose values are then those of the
body, byte by byte (R192). TRANSFER: what leaves on FDO, when the head response leaves its queue, and what becomes of the
bytes received (R182, R183). MODEL'S CHOICES: the order of the fields of an AMEND and its one font field (log 10); two
bytes for the value of every SETTINGS pair (log 37); any bytes as the kind fields of a POST whose kind code is no kind,
and the bitmaps of a GLYPH_LOAD cut at the height of the font, at 8 or 16 for a number that names none (log 11); the tag
byte of a BUSY response (log 39). -/
def Obligations.TransferShiftsTheHeadAndJudgesTheFrame : Prop :=
  (∀ (p : PortId) (heights : List Nat) (kind : Byte) (rest : List Byte),
    let judged := judgeFrame p heights (kind :: rest)
    (kind = 0x00 ∨ kind = 0xFF → judged = .emptyPoll) ∧
    (kind ≠ 0x00 → kind ≠ 0xFF →
      (rest = [] → judged = .badFrame kind 0) ∧
      ∀ tag more, rest = tag :: more →
        (more.length < 2 → judged = .badFrame kind tag) ∧
        ∀ (l0 l1 : Byte) (after : List Byte), more = l0 :: l1 :: after →
          let len := l0.toNat + 256 * l1.toNat
          let body := after.take len
          (after.length < len ∨ 596 < len ∨ ¬ bodyAccounted heights kind body → judged = .badFrame kind tag) ∧
          (len ≤ after.length → len ≤ 596 → bodyAccounted heights kind body →
            ∃ i, judged = .request i ∧ requestPort i = some p ∧ i.kindCode = kind.toNat ∧
              (kind = 0x35 ∨ kind = 0x40 → i.tagByte = tag) ∧ fieldBytes i.bodyFields = body))) ∧
  ∀ (p : PortId) (fdi : List Bool) (s : State), s.resetIsLow = false →
    let pt := s.delivery.ports[p]
    let out := if pt.responses ≠ [] ∧ 8 * pt.headBytes.length ≤ fdi.length
      then Port.drain { pt with responses := pt.responses.tail } else pt
    (wholeBytes fdi = [] → exec (.transfer p fdi) s = .next s) ∧
    (wholeBytes fdi ≠ [] → ∃ q, exec (.transfer p fdi) s =
        .next { s with delivery := { s.delivery with ports := s.delivery.ports.set p q } } ∧
      q.fdo = (pt.headBytes.flatMap bitsOfByte ++ List.replicate fdi.length true).take fdi.length ∧
      match judgeFrame p s.content.fontHeights (wholeBytes fdi) with
      | .emptyPoll => q = { out with fdo := q.fdo }
      | .badFrame kind tag => q = { out with
          fdo := q.fdo
          responses := if out.slotFree then out.responses ++ [⟨0x01, kind, 0x03, tag, []⟩] else out.responses }
      | .request i =>
        if out.requests.length < 8 then q = { out with fdo := q.fdo, requests := out.requests ++ [i] }
        else q = { out with
          fdo := q.fdo
          responses := if out.slotFree then
              out.responses ++ [⟨0x01, BitVec.ofNat 8 i.kindCode, 0x02, i.tagByte, []⟩]
            else out.responses })

/-- Every request whose body its layout can spell, sent as the frame that chapter 13 lays out, with any bytes after it, is
judged to be that request (R192): no field of any body is dropped. MODEL'S CHOICES: the order of the fields of an AMEND,
which has one font field for the three kinds that have one (log 10); two bytes for the value of every SETTINGS pair
(log 37); the heights at which the bitmaps of a GLYPH_LOAD are
cut, that of the font or 8 for a number that names none, and the end that a POST of an unknown kind must have, whose bytes
after the kind code are kept unread (log 11). -/
def Obligations.RequestFramesAreReadBack : Prop :=
  ∀ (i : Instr) (p : PortId) (heights : List Nat) (after : List Byte), requestPort i = some p →
    i.wellFormed = true → heights.length = 4 →
    (∀ q font es, i = .glyphLoad q font es →
      (4 ≤ font → ∀ e ∈ es, e.bitmap.length = e.width) ∧
        ∀ h, heights[font]? = some h → ∀ e ∈ es, e.bitmap.length = e.width * h / 8) →
    (∀ q f code rest, i = .post q f → f.content = .unknown code rest →
      f.foreground = 0 ∧ f.background = 0 ∧ f.flags = 0 ∧ f.windowStart = none ∧ f.windowEnd = none ∧ f.hold = none) →
    judgeFrame p heights (i.frameBytes ++ after) = .request i

/-- A byte is shifted from bit 7 down to bit 0, and the bits of a frame so shifted are its bytes again; an incomplete last
byte is ignored (R182). -/
def Obligations.BytesSurviveTheShift : Prop :=
  (∀ b : Byte, bitsOfByte b = [b.getLsbD 7, b.getLsbD 6, b.getLsbD 5, b.getLsbD 4, b.getLsbD 3, b.getLsbD 2, b.getLsbD 1,
    b.getLsbD 0]) ∧
  ∀ (bytes : List Byte) (tail : List Bool), tail.length < 8 → wholeBytes (bytes.flatMap bitsOfByte ++ tail) = bytes

/-- A notice is created with count 1 or merged with its detail replaced and the count stopping at 255 (R187); FNTC is high
while an unmasked record is pending; NOTICE_TAKE takes the unmasked record of highest priority, and NOTICE_MASK replaces
the mask (R188). -/
def Obligations.NoticesMergeAndAreTakenByPriority : Prop :=
  (∀ (n : Notice) (pt : Port),
    (pt.notices[n.kind] = none → pt.record n = { pt with notices := pt.notices.set n.kind (some ⟨n, 1⟩) }) ∧
    ∀ r, pt.notices[n.kind] = some r →
      pt.record n = { pt with notices := pt.notices.set n.kind (some ⟨n, min 255 (r.count + 1)⟩) }) ∧
  (∀ (s : State) (p : PortId), s.resetIsLow = false →
    (s.fntc p = true ↔
      ∃ k : Fin 10, ((s.delivery.ports[p]).notices[k]).isSome ∧ (s.delivery.ports[p]).mask.getLsbD k.val = false)) ∧
  (∀ (p : PortId) (s : State), s.canTake p (.noticeTake p) → let pt := s.delivery.ports[p]
    ((∀ k, pt.unmasked k = false) → Replies p (.noticeTake p) (okWith [0]) s s.content (s.taking p)) ∧
    ∀ k r, pt.unmasked k = true → (∀ j < k, pt.unmasked j = false) → pt.notices[k] = some r →
      Replies p (.noticeTake p) (okWith ([1] ++ b1 (k.val + 1) ++ b1 r.count ++ r.notice.detail)) s s.content
        ((s.taking p).mapPort p (fun x => { x with notices := x.notices.set k none }))) ∧
  ∀ (p : PortId) (kinds : BitVec 16) (s : State), s.canTake p (.noticeMask p kinds) →
    (kinds.toNat < 1024 → Replies p (.noticeMask p kinds) (okWith (b2 kinds.toNat)) s s.content
      ((s.taking p).mapPort p (fun x => { x with mask := kinds.setWidth 10 }))) ∧
    (1024 ≤ kinds.toNat → Replies p (.noticeMask p kinds) (refuse .badValue) s s.content (s.taking p))

/-- CANCEL_SPLIT by the state of the tag, and BAD_VALUE for a tag above 15 (R186, R70, R63). A completion with a free slot
joins the tail of the response queue and frees its tag; with none, behind others, or while a request of the port is
executed it waits, its tag outstanding. The slots that are free go to the oldest completions that wait, whose tags they
free; after a request its response is placed first (R184, R185). MODEL'S CHOICE (log 39): the tag byte of a response to a
request that carries no tag. -/
def Obligations.CancelSplitEndsTheTag : Prop :=
  (∀ (p : PortId) (x : Completion) (d : Delivery), let pt := d.ports[p]
    (pt.reserved = false → pt.waiting = [] → pt.responses.length < 8 → d.complete p x = { d with ports := d.ports.set p { pt with
      responses := pt.responses ++ [⟨0x02, x.kind, x.outcome.code, BitVec.ofNat 8 x.tag.val, x.body⟩]
      tags := pt.tags.set x.tag .free } }) ∧
    (pt.reserved = true ∨ pt.waiting ≠ [] ∨ 8 ≤ pt.responses.length → d.complete p x = { d with ports := d.ports.set p { pt with
      waiting := pt.waiting ++ [x], tags := pt.tags.set x.tag .ended } })) ∧
  (∀ (pt : Port), pt.reserved = false →
    let moved := pt.waiting.take (8 - pt.responses.length)
    pt.drain = { pt with
      responses := pt.responses ++
        moved.map (fun x => ⟨0x02, x.kind, x.outcome.code, BitVec.ofNat 8 x.tag.val, x.body⟩)
      waiting := pt.waiting.drop (8 - pt.responses.length)
      tags := moved.foldl (fun tags x => tags.set x.tag .free) pt.tags }) ∧
  (∀ (i : Instr) (r : Reply) (pt : Port), Port.finishRequest i r pt = Port.drain { pt with
    responses := pt.responses ++ [⟨0x01, BitVec.ofNat 8 i.kindCode, r.status.code, i.tagByte, r.body⟩], reserved := false }) ∧
  (∀ (p : PortId) (v : Nat) (s : State), 15 < v → s.canTake p (.cancelSplit p v) → Refuses p (.cancelSplit p v) .badValue s) ∧
  ∀ (p : PortId) (tag : Tag) (s : State), let i := Instr.cancelSplit p tag.val
    s.canTake p i →
    ((s.delivery.ports[p]).tags[tag] = .free → Refuses p i .notFound s) ∧
    ((s.delivery.ports[p]).tags[tag] = .ended → Replies p i (okWith [0x08]) s s.content (s.taking p)) ∧
    (∀ h x, (s.delivery.ports[p]).tags[tag] = .take h → (s.content.holds[h]).waiterOf p = some x →
      Replies p i (okWith [0x07]) s
        (s.content.setHold h { s.content.holds[h] with waiters := leaveQueue x.port (s.content.holds[h]).waiters })
        ((s.taking p).complete x.port ⟨x.tag, 0x40, .cancelled, []⟩)) ∧
    ∀ k, (s.delivery.ports[p]).tags[tag] = .confirm → s.delivery.confirmationOf p tag = some k →
      Replies p i (okWith [0x07]) s s.content ((s.taking p).endConfirmation k ⟨k.tag, 0x35, .cancelled, []⟩)

/-- The requests that return state answer OK with the state as it stands, and change nothing but their own port's queues
(R13, R33, R57, R76, R84, R144, R170, R179); PART_STATUS counts the panels in seven states, 64 in all, the lanes in five,
8 in all, the FREE placards and the free cells (R189). The bodies field by field are `entryBody` to `groupBody` in
Sys2Proof/Safety.lean. A number out of range is refused with BAD_VALUE. MODEL'S CHOICES: the layout of the bodies (logs 9,
33), a presence byte before the number of a frame not yet started (log 41), the rounding of a bit rate that is no whole
number, which is free, as the rate for divider 0 is (R158, log 14), and the time left to a moment already reached, a probe
due among them, which is present with 0 (log 35). -/
def Obligations.ReadsReturnTheStateAndChangeNothing : Prop :=
  ∀ (p : PortId) (s : State), let c := s.content
    let w := s.delivery.works
    let reads (i : Instr) (body : List Byte) : Prop := s.canTake p i → exec i s =
      .next { s with delivery := (s.taking p).mapPort p (Port.finishRequest i (okWith body)) }
    (∀ l : ListId, reads (.depRead p l.val) (b1 (c.lists[l]).length ++ (c.lists[l]).flatMap entryBody)) ∧
    reads (.clockRead p)
      (b4 c.clock.value ++ b3 (c.clock.value / 100) ++ [c.clock.state.code] ++ bSigned c.clock.slew) ∧
    (∀ n : PlacardId, (c.board.placards[n] = none → reads (.boardRead p n.val) ([0] ++ b4 c.board.generation)) ∧
      ∀ pl, c.board.placards[n] = some pl → reads (.boardRead p n.val) (b4 c.board.generation ++ placardBody n pl)) ∧
    (∀ h : HoldId, reads (.holdRead p h.val) (holdBody w.now c.holds[h])) ∧
    (∀ n : PanelId, (w.panels[n] = none → reads (.panelRead p n.val) [0]) ∧
      ∀ q, w.panels[n] = some q →
        reads (.panelRead p n.val) (panelBody w.now (if q.state = .loaded then w.lanesServing n else []) q)) ∧
    (∀ t : TickerId, reads (.tickerRead p t.val) (tickerBody w.now c.tickers[t])) ∧
    (∀ l : LinkId, ∃ rate, (let divider := (w.links[l]).divider
      divider ≠ 0 → rate = 50000000 / divider ∨ (50000000 % divider ≠ 0 ∧ rate = 50000000 / divider + 1)) ∧
      reads (.linkRead p l.val) (linkBody w.now rate w.links[l])) ∧
    (∀ g : GroupId, reads (.groupRead p g.val) (groupBody w.now s.delivery.groups[g])) ∧
    (
      let panels (st : Option PanelState) : Nat :=
        ((List.finRange 64).filter (fun n => decide ((w.panels[n]).map (fun q => q.state) = st))).length
      let lanes (st : LaneState) : Nat := ((List.finRange 8).filter (fun n => decide ((w.lanes[n]).state = st))).length
      let freePlacards := ((List.finRange 192).filter (fun n => (c.board.placards[n]).isNone)).length
      reads (.partStatus p) (b1 (panels none) ++ b1 (panels (some .offline)) ++ b1 (panels (some .parked)) ++
        b1 (panels (some .ready)) ++ b1 (panels (some .loaded)) ++ b1 (panels (some .sending)) ++
        b1 (panels (some .isolated)) ++ b1 (lanes .free) ++ b1 (lanes .resident) ++ b1 (lanes .loading) ++
        b1 (lanes .working) ++ b1 (lanes .claimed) ++ b1 freePlacards ++ b2 (1024 - c.board.cellsUsed)) ∧
      panels none + panels (some .offline) + panels (some .parked) + panels (some .ready) + panels (some .loaded) +
        panels (some .sending) + panels (some .isolated) = 64 ∧
      lanes .free + lanes .resident + lanes .loading + lanes .working + lanes .claimed = 8) ∧
    ∀ v : Nat, let bad (i : Instr) : Prop := s.canTake p i → Refuses p i .badValue s
      (15 < v → bad (.depRead p v)) ∧ (191 < v → bad (.boardRead p v)) ∧ (31 < v → bad (.holdRead p v)) ∧
        (63 < v → bad (.panelRead p v)) ∧
        (7 < v → bad (.tickerRead p v) ∧ bad (.linkRead p v) ∧ bad (.groupRead p v))

/-! ## Departure lists and figures -/

/-- DEP_PUT: BAD_VALUE for a value out of range (R7); insertion with room, eviction, LIST_FULL (R6), update and
reinstatement (R8). MODEL'S CHOICE (log 15): an insertion raises CONTENT on the panels that draw the list (R21) and no
FIGURE for the first figure of the new entry. -/
def Obligations.DepPutInsertsOrUpdates : Prop :=
  ∀ (p : PortId) (list trip line destination scheduled : Nat) (s : State),
    let i := Instr.depPut p list trip line destination scheduled
    let inRange : Prop := list ≤ 15 ∧ 1 ≤ trip ∧ trip ≤ 16777215 ∧ line ≤ 63 ∧ destination ≤ 127 ∧ scheduled ≤ 107999
    s.canTake p i →
    (¬ inRange → Refuses p i .badValue s) ∧
    (inRange → ∀ l : ListId, l.val = list →
      let es := s.content.lists[l]
      let planned : Entry := ⟨trip, line, destination, scheduled, .planned, .due, p⟩
      let e : Entry := { planned with
        figure := computeFigure s.content.clock s.content.settings false none none planned }
      (findTrip trip es = none →
        (es.length < 12 → Replies p i (okWith [0x00]) s (s.content.setList l (placeEntry e es))
          (raiseList s.content.board .content l (s.taking p))) ∧
        ∀ last, 12 ≤ es.length → es.getLast? = some last →
          (e.before last = true → Replies p i (okWith [0x00]) s (s.content.setList l (placeEntry e es.dropLast))
            (raiseList s.content.board .content l ((s.taking p).notify (.listEvict l last.trip) last.source))) ∧
          (e.before last = false → Refuses p i .listFull s)) ∧
      ∀ e, findTrip trip es = some e →
        (∀ t, e.state = .cancelled t → EntryBecomes p i [0x02] l e { e with
          line := line, destination := destination, scheduled := scheduled, state := .planned, source := p } none s) ∧
        ((∀ t, e.state ≠ .cancelled t) → EntryBecomes p i [0x01] l e { e with
          line := line, destination := destination, scheduled := scheduled, source := p } none s))

/-- DEP_PREDICT, DEP_ARRIVE and DEP_CANCEL on a present trip, state by state (R9, R10, R11), their NOT_FOUND, and
BAD_VALUE for a list or a trip out of range (R7). -/
def Obligations.EntryEventsMoveTheEntryState : Prop :=
  (∀ (p : PortId) (list trip predicted : Nat) (s : State), 15 < list ∨ trip = 0 ∨ 16777215 < trip →
    ∀ i ∈ [Instr.depPredict p list trip predicted, .depArrive p list trip, .depCancel p list trip], s.canTake p i →
      Refuses p i .badValue s) ∧
  ∀ (p : PortId) (l : ListId) (trip predicted : Nat) (s : State), 1 ≤ trip → trip ≤ 16777215 →
    let predict := Instr.depPredict p l.val trip predicted
    let arrive := Instr.depArrive p l.val trip
    let cancel := Instr.depCancel p l.val trip
    let now := s.content.clock.second
    let q : Prediction := ⟨min predicted 107999, now⟩
    (findTrip trip s.content.lists[l] = none →
      ∀ i ∈ [predict, arrive, cancel], s.canTake p i → Refuses p i .notFound s) ∧
    ∀ e, findTrip trip s.content.lists[l] = some e →
      (s.canTake p predict →
        (∀ st, (e.state = .planned ∧ st = EntryState.tracked q) ∨ (∃ r, e.state = .tracked r ∧ st = .tracked q) ∨
            (∃ r a, e.state = .arrived r a ∧ st = .arrived (some q) a) →
          EntryBecomes p predict [] l e { e with state := st, source := p }
            (some ((min predicted 107999 : Nat) - (e.effective : Int))) s) ∧
        ∀ t, e.state = .cancelled t → Refuses p predict .state s) ∧
      (s.canTake p arrive →
        ∀ st, (e.state = .planned ∧ st = EntryState.arrived none now) ∨
            (∃ r, e.state = .tracked r ∧ st = .arrived (some r) now) ∨
            (∃ t, e.state = .cancelled t ∧ st = .arrived none now) ∨ (∃ r a, e.state = .arrived r a ∧ st = .arrived r a) →
          EntryBecomes p arrive [] l e { e with state := st, source := p } none s) ∧
      (s.canTake p cancel →
        ∀ st, ((∀ t, e.state ≠ .cancelled t) ∧
              st = EntryState.cancelled (max e.scheduled now + s.content.settings.cancelLinger)) ∨
            (∃ t, e.state = .cancelled t ∧ st = .cancelled t) →
          EntryBecomes p cancel [] l e { e with state := st, source := p } none s)

/-- R12: DEP_DEPART removes the entry of the trip in whatever state it is, the entries after it move up one position,
without a notice; an absent trip is NOT_FOUND, and a list or a trip out of range BAD_VALUE (R7). -/
def Obligations.DepDepartRemovesTheEntry : Prop :=
  (∀ (p : PortId) (list trip : Nat) (s : State), 15 < list ∨ trip = 0 ∨ 16777215 < trip →
    s.canTake p (.depDepart p list trip) → Refuses p (.depDepart p list trip) .badValue s) ∧
  ∀ (p : PortId) (l : ListId) (trip : Nat) (s : State), let i := Instr.depDepart p l.val trip
    let es := s.content.lists[l]
    s.canTake p i → 1 ≤ trip → trip ≤ 16777215 → listOk es →
    (findTrip trip es = none → Refuses p i .notFound s) ∧
    ∀ e, findTrip trip es = some e → ∃ front back d, es = front ++ e :: back ∧
      Replies p i (okWith []) s (s.content.setList l (front ++ back)) d ∧ d = raiseList s.content.board .content l (s.taking p) ∧
      ∀ q : PortId, (d.ports[q]).notices = (s.delivery.ports[q]).notices

/-- DEST_SET: a new name raises CONTENT where a list goes there, the same name raises nothing, a bad one is BAD_VALUE
(R15). -/
def Obligations.DestSetReplacesTheName : Prop :=
  ∀ (p : PortId) (index : Nat) (text : List Nat) (s : State), let i := Instr.destSet p index text
    s.canTake p i →
    ((128 ≤ index ∨ 24 < text.length ∨ ∃ c ∈ text, 512 ≤ c) → Replies p i (refuse .badValue) s s.content (s.taking p)) ∧
    ∀ k : Fin 128, k.val = index → text.length ≤ 24 → (∀ c ∈ text, c < 512) →
      (s.content.destinations[k] = text → Replies p i (okWith []) s s.content (s.taking p)) ∧
      (s.content.destinations[k] ≠ text → Replies p i (okWith []) s
        { s.content with destinations := s.content.destinations.set k text }
        ((s.taking p).raiseWhere s.content.board .content (s.content.board.draws (s.content.listsDestination index))))

/-- R40: the clock form of a station second, the figures that show it, and the CLOCK placards that use the same
formation. -/
def Obligations.ClockFormTruncatesAndWraps : Prop :=
  (∀ second : Nat, clockForm second = ((second / 3600) % 24, (second % 3600) / 60)) ∧ clockForm 90000 = (1, 0) ∧
    clockForm 107999 = (5, 59) ∧
    (∀ a b : Nat, a / 60 = b / 60 → clockForm a = clockForm b) ∧
    (∀ (k : Clock) (set : Settings) (hyst : Bool) (delta : Option Int) (old : Option Figure) (e : Entry) (hh mm : Nat),
      computeFigure k set hyst delta old e = .clock hh mm →
      (hh, mm) = ((e.effective / 3600) % 24, (e.effective % 3600) / 60)) ∧
    ∀ k : Clock, k.state ≠ .unset →
      k.face = clockText ((k.value / 100 / 3600) % 24) ((k.value / 100 % 3600) / 60)

/-- The stages of a figure (R38) and the rise of one minute that hysteresis holds back (R39). -/
def Obligations.FiguresFollowTheirStages : Prop :=
  ∀ (k : Clock) (set : Settings) (hyst : Bool) (delta : Option Int) (old : Option Figure) (e : Entry),
    let fig := computeFigure k set hyst delta old e
    let m := (e.effective - k.second + 30) / 60
    (∀ t, e.state = .cancelled t → fig = .cancelled) ∧ (∀ q a, e.state = .arrived q a → fig = .atPlatform) ∧
    (e.rank = 1 → (∀ t, e.state ≠ .cancelled t) →
      (k.state = .unset ∨ set.horizon < m → fig = .clock (e.effective / 3600 % 24) (e.effective % 3600 / 60)) ∧
      (k.state ≠ .unset → m ≤ set.horizon →
        let held := hyst = true ∧ (∀ v, delta = some v → v < set.threshold) ∧
          ((old = some .due ∧ m = 1) ∨ ∃ n, old = some (.minutes n) ∧ m = n + 1)
        (held → some fig = old) ∧ (¬ held → fig = if m = 0 then .due else .minutes m)))

/-! ## The station clock -/

/-- CLOCK_SET in every clock state (R28, R29, R31): started with the stamps of the lists set to the new second (R20),
slewed, stepped or held, and BAD_VALUE. A start and a step raise the second event without hysteresis, CLOCK, BLINK and the
notice of LIMIT as `followClock` states them (R27, R34 to R36). MODEL'S READINGS: the lists by rising number, the entries of
each from the top, the lists before the windows, these before CLOCK, BLINK and the notice of LIMIT (log 6); a difference of
0 at the last value leaves the clock in LIMIT with its notice, as R27 says of a clock that reaches it (log 18). -/
def Obligations.ClockSetStartsSlewsStepsOrHolds : Prop :=
  (∀ (now : Nat) (e : Entry),
    (e.state = .planned ∨ (∃ u, e.state = .cancelled u) → e.restamp now = e) ∧
    (∀ q, e.state = .tracked q → e.restamp now = { e with state := .tracked ⟨q.time, now⟩ }) ∧
    ∀ q u, e.state = .arrived q u →
      e.restamp now = { e with state := .arrived (q.map (fun x => ⟨x.time, now⟩)) now }) ∧
  ∀ (p : PortId) (t : Nat) (s : State), let i := Instr.clockSet p t
    let k := s.content.clock
    let d : Int := (t : Int) - k.value
    let stands := (⟨t, if t = 10799999 then .limit else .running, 0⟩ : Clock)
    let restamped : Content := { s.content with
      lists := mapTable (List.map (Entry.restamp (t / 100))) s.content.lists, clock := stands }
    let startedAs := followClock false true true (decide (50 ≤ t % 100)) (decide (t = 10799999)) restamped (s.taking p)
    let steppedAs := followClock false true (decide (t / 100 / 60 ≠ k.value / 100 / 60))
      (decide (t % 100 < 50) != decide (k.value % 100 < 50)) (decide (t = 10799999))
      { s.content with clock := stands } (s.taking p)
    let taken (code : Byte) (r : Content × Delivery) : Prop :=
      Replies p i (okWith (code :: (b4 t ++ [stands.state.code]))) s r.1 r.2 ∧
        r.1.clock = stands ∧ r.1.settings = s.content.settings ∧ keepsRest s.content r.1
    let slewed : Prop := d ≠ 0 → Replies p i (okWith ([0x04] ++ b4 k.value ++ [0x02])) s
      { s.content with clock := ⟨k.value, .slewing, d⟩ } (s.taking p)
    s.canTake p i →
    (10799999 < t → Refuses p i .badValue s) ∧
    (t ≤ 10799999 →
      (k.state = .unset → taken 0x03 startedAs) ∧
      (k.state = .running ∨ k.state = .slewing →
        (-200 ≤ d ∧ d ≤ 200 → slewed ∧
          (d = 0 → k.value ≠ 10799999 → Replies p i (okWith ([0x04] ++ b4 k.value ++ [0x01])) s
            { s.content with clock := ⟨k.value, .running, 0⟩ } (s.taking p)) ∧
          (d = 0 → k.value = 10799999 → Replies p i (okWith ([0x04] ++ b4 k.value ++ [0x03])) s
            { s.content with clock := ⟨k.value, .limit, 0⟩ } ((s.taking p).notifyAll (.clockLimit 107999)))) ∧
        (¬ (-200 ≤ d ∧ d ≤ 200) → taken 0x05 steppedAs)) ∧
      (k.state = .limit → k.value = 10799999 →
        (d = 0 → Replies p i (okWith ([0x06] ++ b4 k.value ++ [0x03])) s s.content (s.taking p)) ∧
        (-200 ≤ d → slewed) ∧ (d < -200 → taken 0x05 steppedAs)))

/-- NEW_DAY in every clock state (R24, R32): CONTENT on the panels that draw a list that held an entry, every list emptied
without notices, the clock set, the windows evaluated, then the events as `followClock` states them. A window is LIVE or
DORMANT by the clock state and the second (R48); a transition recomputes the interest of the matched panels and raises
URGENT for layer 3, else CONTENT, on them (R49). MODEL'S READINGS: the placards by rising number, and the order of lists,
windows, CLOCK, BLINK and the notice of LIMIT within `followClock` (log 6); LIMIT at once for the last value (log 18). -/
def Obligations.NewDayEmptiesListsAndSetsTheClock : Prop :=
  (∀ (pl : Placard) (k : ClockState) (now : Nat), pl.liveAt k now = true ↔
    (pl.windowStart = none ∧ pl.windowEnd = none) ∨
      (k ≠ .unset ∧ (∀ t, pl.windowStart = some t → t ≤ now) ∧ ∀ t, pl.windowEnd = some t → now < t)) ∧
  (∀ (now : Nat) (c : Content) (d : Delivery),
    let windowed (n : PlacardId) : Bool :=
      (c.board.placards[n]).any (fun pl => pl.windowStart.isSome || pl.windowEnd.isSome)
    evaluateWindows now c d = ((List.finRange 192).filter windowed).foldl (evaluateWindow now) (c, d) ∧
    ∀ (n : PlacardId) (pl : Placard), c.board.placards[n] = some pl →
      let live := pl.liveAt c.clock.state now
      let b : Board := { c.board with placards := c.board.placards.set n (some { pl with live := live }) }
      (windowed n = true → live ≠ pl.live → evaluateWindow now (c, d) n = ({ c with board := b },
        ({ d with works := d.works.recomputeInterest b pl.matchesPanel } : Delivery).raiseWhere b
          (if pl.layer = 3 then .urgent else .content) pl.matchesPanel)) ∧
      (windowed n = false ∨ live = pl.live → evaluateWindow now (c, d) n = (c, d))) ∧
  ∀ (p : PortId) (t : Nat) (s : State), let i := Instr.newDay p t
    let k := s.content.clock
    let stands := (⟨t, if t = 10799999 then .limit else .running, 0⟩ : Clock)
    let named (pl : Placard) : Bool := match pl.content with
      | .departures l _ _ _ _ => !s.content.lists[l].isEmpty
      | _ => false
    let w := evaluateWindows (t / 100) { s.content with lists := Vector.replicate 16 [], clock := stands }
      ((s.taking p).raiseWhere s.content.board .content (s.content.board.draws named))
    let r := followClock false true true (decide (t % 100 < 50) != decide (k.value % 100 < 50)) (decide (t = 10799999))
      w.1 w.2
    s.canTake p i → s.isSupervisor p →
    (10799999 < t → Refuses p i .badValue s) ∧
    (t ≤ 10799999 → Replies p i (okWith (b4 t ++ [stands.state.code])) s r.1 r.2 ∧ r.1.clock = stands ∧
      (∀ l : ListId, r.1.lists[l] = []) ∧ r.1.settings = s.content.settings ∧ keepsRest s.content r.1)

/-- COUNT_INTERVAL by the state of the clock (R27, R30): nothing in UNSET and LIMIT, 1 cs in RUNNING, the slew in SLEWING,
and LIMIT at the last value; then, for a change of second, of minute and of blink phase, the second event with hysteresis,
CLOCK and BLINK (R34 to R36), and the notice of LIMIT. The pass of a second event goes over each entry once: staleness,
then overdue or arrival, then the cancel linger, with their notices (R17, R18, R19), and leaves the entries that remain
with their figures recomputed, in the order of their keys (R5, R16). CONTENT is raised for a list in which an entry is
removed, or is placed again at another position of the list as it stands at that moment: on the other side of an entry
above it, as its own checks left that one, or of an entry below it (R5, R21); FIGURE for a list in which the figure of an
entry that remains differs from before (R22). The next interval is 10 ms later. MODEL'S CHOICES: the moment max now t of the
time base (log 3); the lists by rising number, the lists before the windows, these by rising number before CLOCK, BLINK and
the notice of LIMIT (log 6); the entries of each list from the top (logs 6, 29). -/
def Obligations.CountIntervalAdvancesTheClock : Prop :=
  (∀ (x : Settings) (l : ListId) (now : Nat) (e : Entry),
    let stale := Notice.predictionStale l e.trip
    let expired := Notice.entryExpired l e.trip
    (e.state = .planned →
      (e.scheduled + x.overdue < now → e.pass x l now = (none, [expired])) ∧
      (now ≤ e.scheduled + x.overdue → e.pass x l now = (some e, []))) ∧
    (∀ q, e.state = .tracked q →
      (q.stamp + x.staleness < now → e.scheduled + x.overdue < now → e.pass x l now = (none, [stale, expired])) ∧
      (q.stamp + x.staleness < now → now ≤ e.scheduled + x.overdue →
        e.pass x l now = (some { e with state := .planned }, [stale])) ∧
      (now ≤ q.stamp + x.staleness → q.time + x.overdue < now → e.pass x l now = (none, [expired])) ∧
      (now ≤ q.stamp + x.staleness → now ≤ q.time + x.overdue → e.pass x l now = (some e, []))) ∧
    (∀ q a, e.state = .arrived q a →
      (a + x.arrivalLinger < now → e.pass x l now = (none, [expired])) ∧
      (now ≤ a + x.arrivalLinger → e.pass x l now = (some e, []))) ∧
    ∀ u, e.state = .cancelled u →
      (u < now → e.pass x l now = (none, [])) ∧ (now ≤ u → e.pass x l now = (some e, []))) ∧
  (∀ (c : Content) (hyst : Bool) (l : ListId) (now : Nat) (es : List Entry), listOk es →
    let after := passList c hyst l now es
    after.Pairwise (fun a b => a.before b = true) ∧
      (∀ f, f ∈ after ↔ ∃ e ∈ es, ∃ g, (e.pass c.settings l now).1 = some g ∧
        f = { g with figure := computeFigure c.clock c.settings hyst none (some e.figure) g }) ∧
      ((passChecks c.settings l now es).2 = true ↔
        (∃ e ∈ es, (e.pass c.settings l now).1 = none) ∨
        ∃ above e below g x, es = above ++ e :: below ∧ (e.pass c.settings l now).1 = some g ∧
          ((∃ y ∈ above, (y.pass c.settings l now).1 = some x) ∨ x ∈ below) ∧ e.before x ≠ g.before x) ∧
      (figuresChanged es after = true ↔ ∃ e ∈ es, ∃ g, (e.pass c.settings l now).1 = some g ∧
        computeFigure c.clock c.settings hyst none (some e.figure) g ≠ e.figure)) ∧
  ∀ s : State, ∃ c d, exec .countInterval s = .next { s with
      content := c, nextCount := s.nextCount + 10, delivery := settleDelivery s.content s.delivery c d } ∧
    d.works.now = max s.delivery.works.now s.nextCount ∧ c.settings = s.content.settings ∧ keepsRest s.content c ∧
    let k := s.content.clock
    let becomes (k' : Clock) (limit : Bool) : Prop := c.clock = k' ∧
      (c, d) = followClock true (decide (k'.value / 100 ≠ k.value / 100)) (decide (k'.value / 100 / 60 ≠ k.value / 100 / 60))
        (decide (k'.value % 100 < 50) != decide (k.value % 100 < 50)) limit { s.content with clock := k' }
        (s.delivery.reach s.nextCount)
    (k.state = .unset ∨ k.state = .limit → c = s.content ∧ d = s.delivery.reach s.nextCount) ∧
    (k.state = .running → k.value + 1 < 10799999 → becomes ⟨k.value + 1, .running, k.slew⟩ false) ∧
    (k.state = .running → 10799999 ≤ k.value + 1 → becomes ⟨10799999, .limit, 0⟩ true) ∧
    (k.state = .slewing → 0 < k.slew → k.value + 2 < 10799999 →
      becomes ⟨k.value + 2, if k.slew = 1 then .running else .slewing, k.slew - 1⟩ false) ∧
    (k.state = .slewing → 0 < k.slew → k.value < 10799999 → 10799999 ≤ k.value + 2 → becomes ⟨10799999, .limit, 0⟩ true) ∧
    (k.state = .slewing → k.slew < -1 → becomes ⟨k.value, .slewing, k.slew + 1⟩ false) ∧
    (k.state = .slewing → k.slew = -1 → k.value ≠ 10799999 → becomes ⟨k.value, .running, 0⟩ false) ∧
    (k.state = .slewing → k.slew = -1 → k.value = 10799999 → becomes ⟨10799999, .limit, 0⟩ true)

/-- SETTINGS: each parameter named takes its last value, clamped to its range, and the response gives for each pair what it
stored, or with no pair the six values in force; an unknown code refuses the whole request (R23, R41, R190). When the stored
horizon or revision threshold changes, and only then, every figure of every list is recomputed without hysteresis under the
new parameters, and FIGURE is raised for each list in which one changed (R22, R37, R41). MODEL'S CHOICES: the lists by
rising number (log 6); more than 16 pairs, which no master may send, are BAD_VALUE (log 24); each value is two bytes of the
response (log 37); a value that a request changes and sets back has not changed (log 42). -/
def Obligations.SettingsClampAndStoreInOrder : Prop :=
  ∀ (p : PortId) (pairs : List (Nat × Nat)) (s : State), let i := Instr.settings p pairs
    s.canTake p i → s.isSupervisor p →
    (16 < pairs.length ∨ (∃ q ∈ pairs, 6 ≤ q.1) → Refuses p i .badValue s) ∧
    (pairs.length ≤ 16 → (∀ q ∈ pairs, q.1 < 6) → ∃ x : Settings,
      (∀ code < 6, settingOf x code = match pairs.reverse.find? (fun q => decide (q.1 = code)) with
        | none => settingOf s.content.settings code
        | some q => max (settingRange code).1 (min (settingRange code).2 q.2)) ∧
      let body := if pairs = [] then
          b2 x.horizon ++ b2 x.threshold ++ b2 x.staleness ++ b2 x.overdue ++ b2 x.cancelLinger ++ b2 x.arrivalLinger
        else b1 pairs.length ++ pairs.flatMap (fun q =>
          b1 q.1 ++ b2 (max (settingRange q.1).1 (min (settingRange q.1).2 q.2)))
      let refigured (l : ListId) : List Entry := (s.content.lists[l]).map (fun e => { e with
        figure := computeFigure s.content.clock x false none (some e.figure) e })
      let changed := (List.finRange 16).filter (fun l => decide (refigured l ≠ s.content.lists[l]))
      (x.horizon = s.content.settings.horizon → x.threshold = s.content.settings.threshold →
        Replies p i (okWith body) s { s.content with settings := x } (s.taking p)) ∧
      (x.horizon ≠ s.content.settings.horizon ∨ x.threshold ≠ s.content.settings.threshold →
        Replies p i (okWith body) s { s.content with settings := x, lists := Vector.ofFn refigured }
          (changed.foldl (fun d l => raiseList s.content.board .figure l d) (s.taking p))))

/-! ## The board -/

/-- R45: the bits of the panel address under the mask equal those of the target base; the other bits have no effect and are
stored as given; link and drop do not count; an UNDEFINED record is matched by no placard. -/
def Obligations.MatchingComparesTheMaskedBits : Prop :=
  ∀ (pl : Placard) (q : Panel),
    (pl.matchesPanel q = true ↔ ∀ k < 8, pl.mask.getLsbD k = true → q.address.getLsbD k = pl.base.getLsbD k) ∧
    (∀ base, (∀ k < 8, pl.mask.getLsbD k = true → base.getLsbD k = pl.base.getLsbD k) →
      ({ pl with base := base } : Placard).matchesPanel q = pl.matchesPanel q) ∧
    (∀ link drop, pl.matchesPanel { q with link := link, drop := drop } = pl.matchesPanel q) ∧
    (∀ p f new, postedPlacard p f = some new → new.base = f.base ∧ new.mask = f.mask) ∧
    ∀ (w : Works) (n : PanelId), w.panels[n] = none → ∀ x ∈ countedPanels w pl, x.1 ≠ n

/-- POST, its checks in their order (R51): BAD_VALUE exactly for a value out of its range (R43, R44; flags above 3: log 23),
DENIED for layer 3 from a FEED port, NOT_OWNER when the hold named is not TAKEN by the port, NO_ROOM without a FREE placard
or without the cells. A POST that passes (R53): the lowest FREE number, every field as the request gives it with the
rectangle clamped (R43, R44), in the draw order after every placard of its layer and of lower ones and before every one of
a higher layer, the others as they stood (R47), its cells claimed (R50), its generation stamped (R58), its state
decided (R48); the interest of the matched panels recomputed (R60), URGENT for layer 3, else CONTENT, raised on them (R59),
and the confirmations of the placard checked (R52, R62). MODEL'S READING (log 6): the panels by rising number, which the
swaps that URGENT ends can show. -/
def Obligations.PostCreatesAPlacard : Prop :=
  ∀ (p : PortId) (f : PostReq) (s : State), let i := Instr.post p f
    let b := s.content.board
    let cells := match f.content with
      | .text chars _ _ => textCells chars
      | _ => 0
    let g := min 4294967295 (b.generation + 1)
    s.canTake p i →
    (¬ postInRange f → Refuses p i .badValue s) ∧
    (postInRange f →
      (f.layer = 3 → (s.delivery.ports[p]).rank = .feed → Refuses p i .denied s) ∧
      ((f.layer = 3 → s.isSupervisor p) →
        (¬ holdTakenBy p s.content f.hold → Refuses p i .notOwner s) ∧
        (holdTakenBy p s.content f.hold →
          ((∀ n : PlacardId, b.placards[n] ≠ none) ∨ 1024 < b.cellsUsed + cells → Refuses p i .noRoom s) ∧
          ∀ n : PlacardId, b.placards[n] = none → (∀ m < n, b.placards[m] ≠ none) → b.cellsUsed + cells ≤ 1024 →
            ∃ (pl : Placard) (front back : List PlacardId), b.drawOrder = front ++ back ∧
              (orderOk b → (∀ m ∈ front, ∀ x, b.placards[m] = some x → x.layer ≤ f.layer) ∧
                ∀ m ∈ back, ∀ x, b.placards[m] = some x → f.layer < x.layer) ∧
              pl.owner = p ∧ pl.base = f.base ∧ pl.mask = f.mask ∧ pl.x = min f.x 511 ∧
              pl.w = min f.w 512 ∧ pl.y = min f.y 95 ∧ pl.h = min f.h 96 ∧ pl.layer = f.layer ∧
              kindGiven f.content pl.content ∧ pl.foreground = f.foreground ∧
              pl.background = (if f.background = 4 then none else some f.background) ∧
              pl.blink = f.flags.testBit 0 ∧ pl.invert = f.flags.testBit 1 ∧ pl.windowStart = f.windowStart ∧
              pl.windowEnd = f.windowEnd ∧ pl.hold.map Fin.val = f.hold ∧ pl.generation = g ∧
              pl.live = pl.liveAt s.content.clock.state (s.content.clock.value / 100) ∧
              let b' : Board :=
                { placards := b.placards.set n (some pl)
                  drawOrder := front ++ n :: back
                  cellsUsed := b.cellsUsed + cells
                  generation := g }
              Replies p i (okWith (b1 n.val ++ [if pl.live then 0x01 else 0x02] ++ b4 g)) s { s.content with board := b' }
                ((((s.taking p).mapWorks (Works.recomputeInterest b' pl.matchesPanel)).raiseWhere b'
                  (if pl.layer = 3 then .urgent else .content) pl.matchesPanel).checkPlacard b' n))))

/-- AMEND and TEXT_SET, their checks in their order (R51): BAD_VALUE for a number above 191 or a value out of its range,
NOT_FOUND for a FREE placard, BAD_VALUE for a kind field of another kind or a window out of order, STATE for a TEXT_SET of
another kind, DENIED for a change to layer 3 from a FEED port, NOT_OWNER for another owner or a hold not met before or after
the change, NO_ROOM. An AMEND that passes (R54): each field carried takes its value, the rectangle clamped, each not carried
is kept, each named as absent is removed, owner and kind are kept; the placard in its place, or in a new layer after every
placard of that layer and of lower ones and before every one of a higher layer, the others as they stood (R47). A TEXT_SET
that passes replaces the text alone (R55). Both replace the cells (R50), stamp the generation (R58) and decide the state
(R48), then the panels matched before or after: interest (R60), URGENT if the layer before or after is 3, else CONTENT
(R59), and the confirmations of the placard checked (R52, R62). MODEL'S CHOICES: the panels by rising number (log 6), a kind
field of an AMEND that two kinds share (log 10), flags above 3 (log 23). -/
def Obligations.AmendAndTextSetChangeThePlacard : Prop :=
  (∀ (p : PortId) (number : Nat) (f : AmendReq) (s : State), let i := Instr.amend p number f
    s.canTake p i →
    (191 < number ∨ ¬ amendInRange f → Refuses p i .badValue s) ∧
    ∀ n : PlacardId, n.val = number → amendInRange f → s.content.board.placards[n] = none → Refuses p i .notFound s) ∧
  (∀ (p : PortId) (number : Nat) (text : List Nat) (s : State), let i := Instr.textSet p number text
    s.canTake p i →
    (191 < number ∨ 160 < text.length ∨ (∃ x ∈ text, 511 < x) → Refuses p i .badValue s) ∧
    ∀ n : PlacardId, n.val = number → text.length ≤ 160 → (∀ x ∈ text, x ≤ 511) →
      s.content.board.placards[n] = none → Refuses p i .notFound s) ∧
  ∀ (p : PortId) (n : PlacardId) (old : Placard) (s : State), let b := s.content.board
    let g := min 4294967295 (b.generation + 1)
    let text := match old.content with
      | .text chars _ _ => chars
      | _ => []
    let cells (after : List Nat) : Nat := b.cellsUsed - textCells text + textCells after
    let stamped (new : Placard) : Prop :=
      new.generation = g ∧ new.live = new.liveAt s.content.clock.state (s.content.clock.value / 100)
    let touched (new : Placard) (q : Panel) : Bool := new.matchesPanel q || old.matchesPanel q
    let raised (new : Placard) (b' : Board) : Delivery :=
      (((s.taking p).mapWorks (Works.recomputeInterest b' (touched new))).raiseWhere b'
        (if new.layer = 3 ∨ old.layer = 3 then .urgent else .content) (touched new)).checkPlacard b' n
    b.placards[n] = some old →
    (∀ f : AmendReq, let i := Instr.amend p n.val f
      let layer := f.layer.getD old.layer
      let start := amendedField f.windowStart old.windowStart
      let stop := amendedField f.windowEnd old.windowEnd
      let hold := amendedField f.hold (old.hold.map Fin.val)
      let fits : Prop := amendFitsKind f old.content ∧ inOrder start stop
      let met : Prop := holdTakenBy p s.content (old.hold.map Fin.val) ∧ holdTakenBy p s.content hold
      s.canTake p i → amendInRange f →
      (¬ fits → Refuses p i .badValue s) ∧
      (fits →
        (layer = 3 → old.layer ≠ 3 → (s.delivery.ports[p]).rank = .feed → Refuses p i .denied s) ∧
        ((layer = 3 → old.layer ≠ 3 → s.isSupervisor p) →
          (old.owner ≠ p ∨ ¬ met → Refuses p i .notOwner s) ∧
          (old.owner = p → met →
            (1024 < cells (f.text.getD text) → Refuses p i .noRoom s) ∧
            (cells (f.text.getD text) ≤ 1024 → ∃ (new : Placard) (front back : List PlacardId),
              b.drawOrder.filter (fun m => decide (m ≠ n)) = front ++ back ∧
              (orderOk b → (∀ m ∈ front, ∀ x, b.placards[m] = some x → x.layer ≤ layer) ∧
                ∀ m ∈ back, ∀ x, b.placards[m] = some x → layer < x.layer) ∧
              new.owner = old.owner ∧ new.base = f.base.getD old.base ∧ new.mask = f.mask.getD old.mask ∧
              new.x = (f.x.map (min 511)).getD old.x ∧ new.w = (f.w.map (min 512)).getD old.w ∧
              new.y = (f.y.map (min 95)).getD old.y ∧ new.h = (f.h.map (min 96)).getD old.h ∧ new.layer = layer ∧
              kindAmended f old.content new.content ∧ new.foreground = f.foreground.getD old.foreground ∧
              new.background = (f.background.map (fun v => if v = 4 then none else some v)).getD old.background ∧
              new.blink = (f.flags.map (fun v => v.testBit 0)).getD old.blink ∧
              new.invert = (f.flags.map (fun v => v.testBit 1)).getD old.invert ∧
              new.windowStart = start ∧ new.windowEnd = stop ∧ new.hold.map Fin.val = hold ∧ stamped new ∧
              let b' : Board :=
                { placards := b.placards.set n (some new)
                  drawOrder := if layer = old.layer then b.drawOrder else front ++ n :: back
                  cellsUsed := cells (f.text.getD text)
                  generation := g }
              Replies p i (okWith (b4 g ++ [if new.live then 0x01 else 0x02])) s { s.content with board := b' }
                (raised new b')))))) ∧
    ∀ words : List Nat, let i := Instr.textSet p n.val words
      s.canTake p i → words.length ≤ 160 → (∀ x ∈ words, x ≤ 511) →
      (old.content.isText = false → Refuses p i .state s) ∧
      ∀ chars font align, old.content = .text chars font align →
        let met := holdTakenBy p s.content (old.hold.map Fin.val)
        (old.owner ≠ p ∨ ¬ met → Refuses p i .notOwner s) ∧
        (old.owner = p → met →
          (1024 < cells words → Refuses p i .noRoom s) ∧
          (cells words ≤ 1024 → ∃ new : Placard, stamped new ∧
            { new with generation := old.generation, live := old.live } = { old with content := .text words font align } ∧
            let b' : Board :=
              { placards := b.placards.set n (some new)
                drawOrder := b.drawOrder
                cellsUsed := cells words
                generation := g }
            Replies p i (okWith (b4 g)) s { s.content with board := b' } (raised new b')))

/-- WITHDRAW by the owner that meets the hold condition, or by any SUPERVISOR port (R51, R56): the placard FREE, out of the
draw order, its cells released, the generation advanced; the interest of the panels it matched recomputed (R60), URGENT for
layer 3, else CONTENT, raised on them (R59), then each confirmation of it ended CANCELLED, and none of it left (R63).
MODEL'S CHOICES: the panels by rising number (log 6); the placard is FREE before the cause is raised (log 30). -/
def Obligations.WithdrawFreesThePlacard : Prop :=
  (∀ (p : PortId) (number : Nat) (s : State), 191 < number → s.canTake p (.withdraw p number) →
    Refuses p (.withdraw p number) .badValue s) ∧
  ∀ (p : PortId) (n : PlacardId) (s : State), let i := Instr.withdraw p n.val
    let b := s.content.board
    s.canTake p i →
    (b.placards[n] = none → Refuses p i .notFound s) ∧
    ∀ old, b.placards[n] = some old →
      let met := holdTakenBy p s.content (old.hold.map Fin.val)
      let b' : Board :=
        { placards := b.placards.set n none
          drawOrder := b.drawOrder.filter (fun m => decide (m ≠ n))
          cellsUsed := b.cellsUsed - old.content.cells
          generation := min 4294967295 (b.generation + 1) }
      let raised := ((s.taking p).mapWorks (Works.recomputeInterest b' old.matchesPanel)).raiseWhere b'
        (if old.layer = 3 then .urgent else .content) old.matchesPanel
      let d := (raised.confirmations.filter (fun k => decide (k.placard = n))).foldl
        (fun d k => d.endConfirmation k ⟨k.tag, 0x35, .cancelled, []⟩) raised
      ((s.delivery.ports[p]).rank = .feed → old.owner ≠ p ∨ ¬ met → Refuses p i .notOwner s) ∧
      (s.isSupervisor p ∨ (old.owner = p ∧ met) →
        Replies p i (okWith []) s { s.content with board := b' } d ∧ ∀ k ∈ d.confirmations, k.placard ≠ n)

/-- CONFIRM_SHOWN: BAD_VALUE for a tag above 15, TAG_IN_USE, BAD_VALUE for a number above 191, NOT_FOUND (R51, R185); of a
placard with a free tag it is ACCEPTED and opens a confirmation that ends at once when every counted panel is confirmed;
CONFIRM_DEADLINE ends it PARTIAL or TIMEOUT with the panels not confirmed (R61, R62). A check of every confirmation in
progress ends those whose counted panels are all confirmed, in the order of their acceptance, each OK with the number of
counted panels, and leaves the others (R62, R63). MODEL'S CHOICE (log 3): the moment max now t of the time base at the
deadline t. -/
def Obligations.ConfirmationsOpenSucceedAndLapse : Prop :=
  (∀ (p : PortId) (v number timeout : Nat) (s : State), let i := Instr.confirmShown p v number timeout
    s.canTake p i →
    (15 < v → Refuses p i .badValue s) ∧
    ∀ tag : Tag, tag.val = v →
      ((s.delivery.ports[p]).tags[tag] ≠ .free → Refuses p i .tagInUse s) ∧
      ((s.delivery.ports[p]).tags[tag] = .free →
        (191 < number → Refuses p i .badValue s) ∧
        ∀ n : PlacardId, n.val = number → s.content.board.placards[n] = none → Refuses p i .notFound s)) ∧
  (∀ (p : PortId) (tag : Tag) (n : PlacardId) (timeout : Nat) (pl : Placard) (s : State),
    let i := Instr.confirmShown p tag.val n.val timeout
    let seconds := max 1 (min 60 timeout)
    let k : Confirmation := ⟨p, tag, n, s.delivery.works.now + 1000 * seconds⟩
    let counted := s.delivery.works.panelList.filter (fun x => pl.matchesPanel x.2 && x.2.online)
    let opened : Delivery := { (s.taking p).mapPort p (fun pt => { pt with tags := pt.tags.set tag .confirm }) with
      confirmations := s.delivery.confirmations ++ [k] }
    s.canTake p i → (s.delivery.ports[p]).tags[tag] = .free → s.content.board.placards[n] = some pl →
    ((∀ x ∈ counted, ∃ r, x.2.ack = some r ∧ pl.generation ≤ r.generation) →
      Replies p i ⟨.accepted, b1 seconds⟩ s s.content
        (opened.endConfirmation k ⟨tag, 0x35, .ok, b1 counted.length⟩)) ∧
    ((∃ x ∈ counted, ∀ r, x.2.ack = some r → r.generation < pl.generation) →
      Replies p i ⟨.accepted, b1 seconds⟩ s s.content opened)) ∧
  (∀ (b : Board) (d : Delivery),
    let counted (pl : Placard) : List (PanelId × Panel) :=
      d.works.panelList.filter (fun x => pl.matchesPanel x.2 && x.2.online)
    let earned (k : Confirmation) : Option Placard := (b.placards[k.placard]).filter (fun pl =>
      (counted pl).all (fun x => x.2.ack.any (fun r => decide (pl.generation ≤ r.generation))))
    d.checkConfirmations b = d.confirmations.foldl (fun e k => match earned k with
      | none => e
      | some pl => e.endConfirmation k ⟨k.tag, 0x35, .ok, b1 (counted pl).length⟩) d) ∧
  ∀ (p : PortId) (tag : Tag) (k : Confirmation) (pl : Placard) (s : State),
    s.delivery.confirmationOf p tag = some k → s.content.board.placards[k.placard] = some pl →
    let counted := s.delivery.works.panelList.filter (fun x => pl.matchesPanel x.2 && x.2.online)
    let confirmed := counted.filter (fun x => x.2.confirms pl.generation)
    let missing := (counted.filter (fun x => !x.2.confirms pl.generation)).map (fun x => x.1.val)
    Leaves (exec (.confirmDeadline p tag) s) s s.content ((s.delivery.reach k.deadline).endConfirmation k
      ⟨k.tag, 0x35, if confirmed = [] then .timeout else .partially, b1 confirmed.length ++ bList b1 missing⟩)

/-! ## Holds -/

/-- TAKE by the state of the hold and the port (R67, R68, R69), and BAD_VALUE for a hold above 31 or, with a wait, a tag
above 15 (R185). Without a wait the tag takes no part. -/
def Obligations.TakeGrantsRefusesOrQueues : Prop :=
  (∀ (p : PortId) (v hold wait : Nat) (s : State), let i := Instr.take p v hold wait
    s.canTake p i →
    (wait ≠ 0 → 15 < v → Refuses p i .badValue s) ∧
    (31 < hold → wait = 0 → Refuses p i .badValue s) ∧
    (31 < hold → ∀ tag : Tag, tag.val = v → (s.delivery.ports[p]).tags[tag] = .free → Refuses p i .badValue s)) ∧
  ∀ (p : PortId) (h : HoldId) (tag : Tag) (v wait : Nat) (s : State), let i := Instr.take p v h.val wait
    let k := s.content.holds[h]
    let now := s.delivery.works.now
    let granted := s.content.setHold h { k with state := .taken p (now + 1000 * k.limit) }
    let queued (owner : PortId) : Prop :=
      (wait = 0 → Replies p i ⟨.busy, b1 owner.val⟩ s s.content (s.taking p)) ∧
      (wait ≠ 0 → (∃ x ∈ k.waiters, x.port = p) → Refuses p i .inUse s) ∧
      (wait ≠ 0 → (∀ x ∈ k.waiters, x.port ≠ p) → Replies p i ⟨.accepted, []⟩ s
        (s.content.setHold h { k with waiters := k.waiters ++ [⟨p, tag, now + 1000 * min 60 wait⟩] })
        ((s.taking p).mapPort p (fun pt => { pt with tags := pt.tags.set tag (.take h) })))
    s.canTake p i → wait = 0 ∨ v = tag.val →
    (wait ≠ 0 → (s.delivery.ports[p]).tags[tag] ≠ .free → Refuses p i .tagInUse s) ∧
    (wait = 0 ∨ (s.delivery.ports[p]).tags[tag] = .free →
      (k.state = .empty → Replies p i (okWith [0x01]) s granted (s.taking p)) ∧
      (∀ t, k.state = .taken p t → Replies p i (okWith [0x01]) s s.content (s.taking p)) ∧
      (∀ owner t, k.state = .taken owner t → owner ≠ p → queued owner) ∧
      (∀ heir t, k.state = .handed p heir t → Replies p i (okWith [0x02]) s s.content (s.taking p)) ∧
      (∀ owner t, k.state = .handed owner p t → owner ≠ p → Replies p i (okWith [0x01]) s granted (s.taking p)) ∧
      ∀ owner heir t, k.state = .handed owner heir t → owner ≠ p → heir ≠ p → queued owner)

/-- RELEASE by the owner and the expiry of the limit: the oldest waiter granted with a restarted timer, or EMPTY, then the
consequences; the expiry records HOLD_EXPIRED first (R70, R71, R74). The consequences (R72): an IDLE group bound to the hold
is armed with source HOLD, its online members expected and STAGE raised on each, or stays IDLE when none is online (R173);
then CONTENT is raised on the panels that the hold froze. A hold above 31 is BAD_VALUE. MODEL'S CHOICE (log 3): the moment
max now t of the time base at the deadline t. -/
def Obligations.ReleaseAndExpiryServeTheQueue : Prop :=
  (∀ (p : PortId) (v : Nat) (s : State), 31 < v → s.canTake p (.release p v) → Refuses p (.release p v) .badValue s) ∧
  ∀ (h : HoldId) (s : State), let k := s.content.holds[h]
    let b := s.content.board
    let armed (d : Delivery) : Delivery := match k.group with
      | none => d
      | some g => match d.groups[g].swap with
        | some _ => d
        | none =>
          let expected := (d.groups[g].members).filter (fun m => (d.works.panels[m]).any Panel.online)
          if expected = [] then d
          else expected.foldl (Delivery.raise b .stage) { d with groups := d.groups.set g { d.groups[g] with
            swap := some ⟨.hold, expected, [], [], d.works.now + 100 * (d.groups[g]).setting⟩ } }
    let released (d : Delivery) : Delivery :=
      (armed d).raiseWhere b .content (fun q => b.present.any (fun pl => decide (pl.hold = some h) && pl.matchesPanel q))
    (∀ p : PortId, let i := Instr.release p h.val
      s.canTake p i →
      (k.owner ≠ some p → Refuses p i .notOwner s) ∧
      (k.owner = some p → k.waiters = [] → let c := s.content.setHold h { k with state := .empty }
        Replies p i (okWith [0x00, 0xFF]) s c (released (s.taking p))) ∧
      ∀ x xs, k.owner = some p → k.waiters = x :: xs →
        let c := s.content.setHold h { k with
          state := .taken x.port (s.delivery.works.now + 1000 * k.limit), waiters := xs }
        Replies p i (okWith ([0x01] ++ b1 x.port.val)) s c
          (released ((s.taking p).complete x.port ⟨x.tag, 0x40, .ok, b1 h.val ++ [0x01]⟩))) ∧
    ∀ owner t, k.owner = some owner → k.deadline = some t →
      let d := (s.delivery.reach t).notify (.holdExpired h) owner
      (k.waiters = [] → let c := s.content.setHold h { k with state := .empty }
        Leaves (exec (.holdExpiry h) s) s c (released d)) ∧
      ∀ x xs, k.waiters = x :: xs →
        let c := s.content.setHold h { k with
          state := .taken x.port (max s.delivery.works.now t + 1000 * k.limit), waiters := xs }
        Leaves (exec (.holdExpiry h) s) s c
          (released (d.complete x.port ⟨x.tag, 0x40, .ok, b1 h.val ++ [0x01]⟩))

/-- HANDOVER by the owner, its checks in the order of log 20, BAD_VALUE for a hold above 31 or an heir above 3 among them: a
waiting port is granted at once, any other becomes the heir; the timer is restarted (R67, R73). WAIT_TIMEOUT takes a waiter
out of the queue with TIMEOUT (R70). MODEL'S CHOICE (log 3): the moment max now t of the time base at the deadline t. -/
def Obligations.HandoverAndWaitTimeout : Prop :=
  (∀ (p : PortId) (hold heir : Nat) (s : State), 31 < hold ∨ 3 < heir → s.canTake p (.handover p hold heir) →
    Refuses p (.handover p hold heir) .badValue s) ∧
  ∀ (h : HoldId) (q : PortId) (s : State), let k := s.content.holds[h]
    let others := k.waiters.filter (fun x => decide (x.port ≠ q))
    (∀ p : PortId, let i := Instr.handover p h.val q.val
      let deadline := s.delivery.works.now + 1000 * k.limit
      s.canTake p i →
      (k.owner ≠ some p → Refuses p i .notOwner s) ∧
      (k.owner = some p → q = p → Refuses p i .badValue s) ∧
      (k.owner = some p → q ≠ p →
        (k.waiterOf q = none → Replies p i (okWith ([0x02] ++ b1 p.val ++ b1 q.val)) s
          (s.content.setHold h { k with state := .handed p q deadline }) (s.taking p)) ∧
        ∀ x, k.waiterOf q = some x → Replies p i (okWith ([0x01] ++ b1 q.val ++ [0xFF])) s
          (s.content.setHold h { k with state := .taken q deadline, waiters := others })
          ((s.taking p).complete q ⟨x.tag, 0x40, .ok, b1 h.val ++ [0x01]⟩))) ∧
    ∀ x, k.waiterOf q = some x → Leaves (exec (.waitTimeout h q) s) s
      (s.content.setHold h { k with waiters := others })
      ((s.delivery.reach x.deadline).complete q ⟨x.tag, 0x40, .timeout, b1 h.val⟩)

/-- HOLD_SETUP of an EMPTY hold stores the clamped limit and the group; a hold above 31, or a group that is neither 0–7 nor
FFh, is BAD_VALUE (R75). -/
def Obligations.HoldSetupStoresLimitAndGroup : Prop :=
  (∀ (p : PortId) (v limit group : Nat) (s : State), 31 < v → s.canTake p (.holdSetup p v limit group) → s.isSupervisor p →
    Refuses p (.holdSetup p v limit group) .badValue s) ∧
  ∀ (p : PortId) (h : HoldId) (limit group : Nat) (s : State), let i := Instr.holdSetup p h.val limit group
    let k := s.content.holds[h]
    let stored := max 1 (min 120 limit)
    s.canTake p i → s.isSupervisor p →
    ((7 < group ∧ group ≠ 255) → Refuses p i .badValue s) ∧
    (k.state ≠ .empty → group ≤ 7 ∨ group = 255 → Refuses p i .state s) ∧
    (k.state = .empty → group = 255 → Replies p i (okWith (b1 stored ++ [0xFF])) s
      (s.content.setHold h { k with limit := stored, group := none }) (s.taking p)) ∧
    ∀ g : GroupId, k.state = .empty → group = g.val → Replies p i (okWith (b1 stored ++ b1 g.val)) s
      (s.content.setHold h { k with limit := stored, group := some g }) (s.taking p)

/-! ## Panels -/

/-- PANEL_DEFINE in the order of its checks: values, state, location; then the record as defined, OFFLINE, with a probe due
at once on an enabled link (R80, R81, R60, R116). A panel above 63, a link or a drop above 7, and a class code above 2 are
BAD_VALUE. MODEL'S READINGS: a probe due at once is due at the moment now, and none begins inside the request (log 8); a
link in the break of a LINK_DISABLE is not enabled (log 40). -/
def Obligations.PanelDefineSetsTheRecord : Prop :=
  (∀ (p : PortId) (panel : Nat) (address : Byte) (link drop cls width height level refresh : Nat) (s : State),
    let i := Instr.panelDefine p panel address link drop cls width height level refresh
    63 < panel ∨ 7 < link ∨ 7 < drop ∨ 2 < cls → s.canTake p i → s.isSupervisor p → Refuses p i .badValue s) ∧
  ∀ (p : PortId) (n : PanelId) (address : Byte) (l : LinkId) (x : Drop) (cls : PanelClass) (width height level refresh : Nat)
    (s : State),
    let i := Instr.panelDefine p n.val address l.val x.val cls.code.toNat width height level refresh
    let w := s.delivery.works
    let fits : Prop := match cls with
      | .line => 64 ≤ width ∧ width ≤ 256 ∧ width % 8 = 0 ∧ 8 ≤ height ∧ height ≤ 32 ∧ height % 8 = 0
      | .rows => 64 ≤ width ∧ width ≤ 256 ∧ width % 8 = 0 ∧ 16 ≤ height ∧ height ≤ 96 ∧ height % 8 = 0
      | .wide => 264 ≤ width ∧ width ≤ 512 ∧ width % 16 = 0 ∧ 8 ≤ height ∧ height ≤ 32 ∧ height % 8 = 0
    s.canTake p i → s.isSupervisor p →
    (¬ (fits ∧ (level = 1 ∨ level = 2)) → Refuses p i .badValue s) ∧
    (fits → level = 1 ∨ level = 2 →
      ((∃ q, w.panels[n] = some q ∧ q.state ≠ .offline) → Refuses p i .state s) ∧
      ((∀ q, w.panels[n] = some q → q.state = .offline) →
        ((∃ m q, m ≠ n ∧ w.panels[m] = some q ∧ q.link = l ∧ q.drop = x) →
          Refuses p i .inUse s) ∧
        ((∀ m q, m ≠ n → w.panels[m] = some q → q.link = l → q.drop ≠ x) →
          let due := if (w.links[l]).state ≠ .disabled ∧ (w.links[l]).line ≠ .brk true then some w.now else none
          let q : Panel := ⟨address, l, x, cls, width, height, level, min 60 refresh, .offline, CauseSet.none,
            CauseSet.none, none, none, true, 0, none, none, due, false, 0⟩
          Replies p i (okWith ([address] ++ b1 l.val ++ b1 x.val ++ [cls.code] ++ b2 width ++ b1 height ++ b1 level ++
              b1 (min 60 refresh))) s s.content
            { s.taking p with works := { w with
              panels := w.panels.set n (some { q with interest := s.content.board.interestOf q })
              lanes := mapTable (fun k => if k.state = .resident ∧ k.panel = some n then Lane.free else k) w.lanes
              rotation := { w.rotation with passes := w.rotation.passes.set n 0 } } })))

/-- PANEL_REMOVE in every state: the panel's work stopped and, of a LOADED or SENDING panel, its frame cut short with one break
that is counted once, or discarded (R158, R162, R164), every other link and, but for the probe that the freed link may begin
(R167), every panel left as it was (steps 1 to 3, which leave `works`); its drop-out, if its ARMED group expects it still, and
the check that follows (R176, R177); its leaving the group's members, the record UNDEFINED, and a check of every confirmation
in progress; no notice; its claim and pass count gone, its lanes FREE or CLAIMED; the other lanes, the pointers, the passes and
a claim of other panels, and their records kept (R82, R106, R116, R166). PANEL_RESTORE (R83). A panel above 63 is BAD_VALUE for
both. MODEL'S READINGS: a probe due at once is due at the moment now, and none begins inside the PANEL_RESTORE (log 8); a link
in the break of a LINK_DISABLE is not enabled (log 40); a frame cut short is counted as the break begins (log 7). -/
def Obligations.PanelRemoveAndRestore : Prop :=
  (∀ (p : PortId) (v : Nat) (s : State), 63 < v → s.isSupervisor p →
    (s.canTake p (.panelRemove p v) → Refuses p (.panelRemove p v) .badValue s) ∧
    (s.canTake p (.panelRestore p v) → Refuses p (.panelRestore p v) .badValue s)) ∧
  ∀ (p : PortId) (n : PanelId) (s : State),
    let w := s.delivery.works
    (
      let i := Instr.panelRemove p n.val
      s.canTake p i → s.isSupervisor p →
      (w.panels[n] = none → Replies p i (okWith []) s s.content (s.taking p)) ∧
      ∀ q, w.panels[n] = some q → ∃ (works : Works) (left : Delivery),
        let out : Delivery := { s.taking p with works := works }
        let expected (g : GroupId) (x : Swap) : Prop :=
          (s.delivery.groups[g]).swap = some x ∧ n ∈ x.expected ∧ n ∉ x.dropped
        let gone : Delivery := { left with
          groups := mapTable (fun g => { g with members := g.members.filter (fun m => decide (m ≠ n)) }) left.groups
          works := { left.works with panels := left.works.panels.set n none } }
        let d := gone.checkConfirmations s.content.board
        let unprobed (x : Option Panel) : Option Panel :=
          x.map (fun q => { q with probeDue := none, probeMark := false })
        Replies p i (okWith []) s s.content d ∧
        works.now = w.now ∧ (∀ m : PanelId, unprobed works.panels[m] = unprobed w.panels[m]) ∧
        (∃ v, (q.state = .loaded ∨ q.state = .sending → LetsFrameGo q.link w v) ∧
          (q.state ≠ .loaded → q.state ≠ .sending → v = w) ∧ works.panels = v.panels ∧ works.links = v.links) ∧
        works.rotation = { w.rotation with
          passes := w.rotation.passes.set n 0
          claim := w.rotation.claim.filter (fun x => decide (x.panel ≠ n)) } ∧
        (∀ k : LaneId, works.lanes[k] =
          if q.state = .loaded ∧ k ∈ w.lanesServing n then
            (if works.rotation.claim.any (fun x => decide (k = evenLane x.pair ∨ k = oddLane x.pair)) then Lane.claimed
              else Lane.free)
          else if (w.lanes[k]).state = .resident ∧ (w.lanes[k]).panel = some n then Lane.free
          else if (w.lanes[k]).state = .claimed ∧ w.rotation.claim.any (fun x => decide (x.panel = n)) = true then Lane.free
          else w.lanes[k]) ∧
        (∀ l : LinkId, l ≠ q.link → works.links[l] = w.links[l]) ∧
        ((∀ g x, ¬ expected g x) → left = out) ∧
        (∀ g x, expected g x → (∀ h < g, ∀ y, ¬ expected h y) →
          left = ({ out with groups := out.groups.set g { out.groups[g] with swap := some { x with
            dropped := insertNumber n x.dropped, staged := x.staged.filter (fun r => decide (r.panel ≠ n)) } } }
            : Delivery).checkSwap s.content.board g) ∧
        (∀ x : PortId, (d.ports[x]).notices = (s.delivery.ports[x]).notices) ∧
        d.works.panels[n] = none ∧ d.works.rotation.passes[n] = 0 ∧
        (∀ x, d.works.rotation.claim = some x → x.panel ≠ n) ∧
        (∀ g : GroupId, (d.groups[g]).members = ((s.delivery.groups[g]).members).filter (fun m => decide (m ≠ n)) ∧
          (d.groups[g]).setting = (s.delivery.groups[g]).setting) ∧
        (∀ k : LaneId, (d.works.lanes[k]).state = .resident → (d.works.lanes[k]).panel ≠ some n) ∧
        (q.state = .loaded → ∀ k : LaneId, (d.works.lanes[k]).serves = true → (d.works.lanes[k]).panel ≠ some n) ∧
        (q.state = .loaded ∨ q.state = .sending → let k := w.links[q.link]
          let k' := d.works.links[q.link]
          (k.state = .streaming → k.breaking = false → k'.line = .brk false ∧ k'.abandons = min 65535 (k.abandons + 1)) ∧
          (k.state = .reserved ∨ k.state = .awaitingReply → k'.fifo = [] ∧ k'.frame = none ∧ k'.wait = none ∧
            k'.abandons = k.abandons ∧ (k'.state = .idle ∨ k'.state = .probing))) ∧
        ∀ m : PanelId, m ≠ n → sameButAck (unprobed d.works.panels[m]) (unprobed w.panels[m])) ∧
    (
      let i := Instr.panelRestore p n.val
      s.canTake p i → s.isSupervisor p →
      ((∀ q, w.panels[n] = some q → q.state ≠ .isolated) → Refuses p i .state s) ∧
      ∀ q, w.panels[n] = some q → q.state = .isolated →
        let due := if (w.links[q.link]).state ≠ .disabled ∧ (w.links[q.link]).line ≠ .brk true then some w.now else none
        Replies p i (okWith []) s s.content { s.taking p with works := { w with panels := w.panels.set n (some { q with
          failures := 0, state := .offline, probeDue := due }) } })

/-- What a panel draws (R46), and its interest: FIGURE for a DEPARTURES placard drawn, CLOCK for a CLOCK placard, BLINK for
a blinking one, SCROLL for a TICKER placard, no other cause (R60). A raised cause (R85): dropped by an UNDEFINED record, and
for the four causes of an interest when that does not name it; else added to the wake set, in every state, OFFLINE and
ISOLATED included, PARKED turning READY; URGENT is then a drop-out as well (R176). A change of a list is raised where a
DEPARTURES placard naming it is drawn (R21). HOLDOFF_END removes the holdoff and raises RETRY (R92); REFRESH_DEADLINE
removes the deadline, sets full-frame demand in the record and in each lane copy of its context, and raises REFRESH (R88,
R108). MODEL'S CHOICES: the moment max now t of the time base at the deadline t (log 3); the panels by rising number (log
6); URGENT raised on a member that holds it already is a drop-out as well (log 16). -/
def Obligations.HoldoffAndRefreshDeadlinesRaiseTheirCauses : Prop :=
  let drawnOn (q : Panel) (pl : Placard) : Prop := q.address &&& pl.mask = pl.base &&& pl.mask ∧ pl.live = true ∧
    0 < pl.w ∧ 0 < pl.h ∧ pl.x < q.width ∧ pl.y < q.height
  (∀ (b : Board) (q : Panel) (cause : Cause), (b.interestOf q).has cause = true ↔
    ∃ (n : PlacardId) (pl : Placard), b.placards[n] = some pl ∧ drawnOn q pl ∧
      ((cause = .figure ∧ ∃ l i k f g, pl.content = .departures l i k f g) ∨ (cause = .clock ∧ ∃ f, pl.content = .clock f) ∨
        (cause = .blink ∧ pl.blink = true) ∨ (cause = .scroll ∧ ∃ t, pl.content = .ticker t))) ∧
  (∀ (b : Board) (test : Panel → Bool) (w : Works), ∃ panels, w.recomputeInterest b test = { w with panels := panels } ∧
    ∀ m : PanelId, panels[m] = (w.panels[m]).map (fun q => if test q then { q with interest := b.interestOf q } else q)) ∧
  (∀ (b : Board) (test : Placard → Bool) (q : Panel), b.draws test q = true ↔
    ∃ (n : PlacardId) (pl : Placard), b.placards[n] = some pl ∧ test pl = true ∧ drawnOn q pl) ∧
  (∀ (b : Board) (cause : Cause) (d : Delivery) (m : PanelId),
    let filtered : Prop := cause = .figure ∨ cause = .clock ∨ cause = .blink ∨ cause = .scroll
    (d.works.panels[m] = none → d.raise b cause m = d) ∧
    ∀ q, d.works.panels[m] = some q →
      (filtered → q.interest.has cause = false → d.raise b cause m = d) ∧
      (¬ filtered ∨ q.interest.has cause = true → ∃ wake : CauseSet,
        (∀ x, wake.has x = true ↔ q.wake.has x = true ∨ x = cause) ∧
        let gained : Delivery := { d with works := { d.works with panels := d.works.panels.set m (some { q with
          wake := wake, state := if q.state = .parked then .ready else q.state }) } }
        (cause ≠ .urgent → d.raise b cause m = gained) ∧ (cause = .urgent → d.raise b cause m = gained.dropOut b m))) ∧
  (∀ (b : Board) (cause : Cause) (d : Delivery),
    (∀ test : Panel → Bool, d.raiseWhere b cause test =
      ((List.finRange 64).filter (fun m => (d.works.panels[m]).any test)).foldl (Delivery.raise b cause) d) ∧
    ∀ l : ListId, ∃ test : Panel → Bool, raiseList b cause l d = d.raiseWhere b cause test ∧
      ∀ q, test q = true ↔ ∃ (n : PlacardId) (pl : Placard), b.placards[n] = some pl ∧ drawnOn q pl ∧
        ∃ i k f g, pl.content = .departures l i k f g) ∧
  ∀ (n : PanelId) (q : Panel) (t : Nat) (s : State),
    let w := s.delivery.works
    let woken := if q.state = .parked then PanelState.ready else q.state
    w.panels[n] = some q →
    (q.holdoff = some t → LeavesWorks (.holdoffEnd n) s { w with
      now := max w.now t
      panels := w.panels.set n (some { q with holdoff := none, wake := q.wake.insert .retry, state := woken }) }) ∧
    (q.refreshDeadline = some t → LeavesWorks (.refreshDeadline n) s { w with
      now := max w.now t
      panels := w.panels.set n (some { q with
        refreshDeadline := none, fullDemand := true, wake := q.wake.insert .refresh, state := woken })
      lanes := mapTable (fun k => { k with context := k.context.map (fun x =>
        if x.panel = n then { x with ack := q.ack, fullDemand := true } else x) }) w.lanes })

/-! ## Lanes -/

/-- CONTEXT_COPY_COMPLETE: a lane takes its copy and enters WORKING at strip 0 with a new frame; a lane of a pair waits for
the other, and the even lane holds the frame (R108, R109, R110, R149). MODEL'S CHOICE (log 32): the frame of a member whose
work causes hold STAGE is a staged candidate while its group awaits it, though they hold URGENT as well. -/
def Obligations.ContextCopyStartsTheLane : Prop :=
  ∀ (n : LaneId) (p : PanelId) (q : Panel) (s : State),
    let w := s.delivery.works
    let k := w.lanes[n]
    let copy : Context := ⟨p, q.cls, q.width, q.height, q.link, q.drop, q.height / 8, q.ack, q.fullDemand⟩
    let copied : Lane := { k with context := some copy }
    let fresh (work : CauseSet) : FrameBuild :=
      ⟨s.content.board.generation, work.has .stage && (awaitingGroup s.delivery.groups p).isSome, false, [], [], true, false⟩
    let started (frame : Option FrameBuild) (x : Lane) : Lane :=
      { x with state := .working, nextStrip := 0, frame := frame, buffer := [], composed := false, unwritten := [] }
    k.state = .loading → k.panel = some p → w.panels[p] = some q →
    (k.partner = none → w.lanesServing p = [n] → LeavesWorks (.contextCopyComplete n) s
      { w with lanes := w.lanes.set n (started (some (fresh k.work)) copied) }) ∧
    ∀ j : Fin 4, let e := evenLane j
      let o := oddLane j
      w.lanesServing p = [e, o] → (w.lanes[e]).partner = some o → (w.lanes[o]).partner = some e →
      (n = e → (w.lanes[o]).context = none → LeavesWorks (.contextCopyComplete n) s
        { w with lanes := w.lanes.set n copied }) ∧
      (n = o → (w.lanes[e]).context = none → LeavesWorks (.contextCopyComplete n) s
        { w with lanes := w.lanes.set n copied }) ∧
      (n = e → (w.lanes[o]).context.isSome = true → LeavesWorks (.contextCopyComplete n) s { w with
        lanes := (w.lanes.set e (started (some (fresh k.work)) copied)).set o (started none w.lanes[o]) }) ∧
      (n = o → (w.lanes[e]).context.isSome = true → LeavesWorks (.contextCopyComplete n) s { w with
        lanes := (w.lanes.set e (started (some (fresh (w.lanes[e]).work)) w.lanes[e])).set o (started none copied) })

/-- The drawing of a strip: its columns from the left, eight levels each; at each pixel the placards of the draw order that
are drawn now and cover it paint in turn over level 0, fill and then content (R125, R126, R127), the content pixels being
those of the glyphs that each kind draws (R122, R128 to R134), a glyph its own, else glyph 0, else none (R119, R122). STRIP
on one lane: the strip composed into the buffer as levels (R125), its digest taken (R147), KEEP or CODED decided by the five
conditions (R150), its code written (R110, R151), the frame committed at its first CODED block, and a staged candidate when
a strip would not be kept or when the room ends (R153). MODEL'S CHOICE (log 13): the lane writes its code into the FIFO to
the byte, as much as there is room for. -/
def Obligations.StripIsComposedDecidedAndWritten : Prop :=
  (∀ (f : Font) (g : Nat),
    (∀ slot, f.glyph? g = some slot → f.drawn g = some slot) ∧ (f.glyph? g = none → f.drawn g = f.glyph? 0) ∧
    (∀ slot, f.drawn g = some slot → f.drawnWidth g = slot.width) ∧ (f.drawn g = none → f.drawnWidth g = 0) ∧
    ∀ (slot : GlyphSlot) (column row : Nat) (x : Byte),
      f.region[slot.place + column * (f.height / 8) + row / 8]? = some x → f.bit slot column row = x.getLsbD (row % 8)) ∧
  (∀ (c : Content) (q : Panel) (strip left count : Nat),
    let columns := composeColumns c q strip left count
    columns.length = count ∧ (∀ col ∈ columns, col.length = 8) ∧
    ∀ (k r : Nat) (isContent : Placard → Bool), k < count → r < 8 →
      (∀ pl, isContent pl = true ↔ contentAt c pl ((left + k : Nat) : Int) ((8 * strip + r : Nat) : Int)) →
      (columns[k]?).bind (fun col => col[r]?) =
        some ((c.board.drawOrder.filterMap (fun n => c.board.placards[n])).foldl (fun level pl =>
          if coversNow c q pl (left + k) (8 * strip + r) then (pl.paintsLevel (isContent pl)).getD level else level) 0)) ∧
  ∀ (n : LaneId) (x : Context) (f : FrameBuild) (q : Panel) (would : Bool) (s : State),
    let w := s.delivery.works
    let k := w.lanes[n]
    let strip := k.nextStrip
    let columns := composeColumns s.content q strip 0 (if x.cls = .wide then x.width / 2 else x.width)
    let bytes := stripBytes x.cls columns
    let d := digest bytes
    let kept := would && !f.stagedCandidate
    let code := if kept then [BitVec.ofNat 8 strip] else BitVec.ofNat 8 (128 + strip) :: laneCode x.cls bytes
    let link := w.links[x.link]
    let room := 1024 - link.fifo.length
    let commits := f.committed || !would
    let late := f.stagedCandidate && !commits && decide (room < code.length)
    k.state = .working → k.partner = none → k.context = some x → k.frame = some f → w.panels[x.panel] = some q →
    w.lanesServing x.panel = [n] → k.composed = false → k.unwritten = [] → strip = f.kinds.length → strip < x.strips →
    (would = true ↔ x.fullDemand = false ∧ k.work.has .refresh = false ∧
      ∃ r, x.ack = some r ∧ r.strips[strip]? = some d) →
    LeavesWorks (.strip n) s { w with
      links := w.links.set x.link { link with
        fifo := link.fifo ++ code.take room
        frame := link.frame.map (fun r => { r with committed := commits || late }) }
      lanes := w.lanes.set n { k with
        nextStrip := if code.length ≤ room ∧ strip + 1 < x.strips then strip + 1 else strip
        frame := some { f with
          committed := commits || late
          digests := f.digests ++ [d]
          kinds := f.kinds ++ [if kept then .keep else .coded]
          wouldKeep := f.wouldKeep && (would || !f.stagedCandidate) && !late }
        buffer := columns
        unwritten := code.drop room } }

/-- STRIP on a pair: a lane composes its half into its own buffer and waits there for the other's half, and so while either
lane has code still to write (R111, R125, R135); the second half decides the strip over both halves (R147, R150), and the
left half's code goes before the right half's (R111, R151). MODEL'S CHOICES: the FIFO filled to the byte (log 13); each half
composed at its own STRIP, the second of which decides for both lanes (log 19). -/
def Obligations.PairStripWaitsForBothHalves : Prop :=
  ∀ (j : Fin 4) (x : Context) (f : FrameBuild) (q : Panel) (would : Bool) (s : State),
    let w := s.delivery.works
    let e := evenLane j
    let o := oddLane j
    let ke := w.lanes[e]
    let ko := w.lanes[o]
    let strip := f.kinds.length
    ke.state = .working → ko.state = .working → ke.partner = some o → ko.partner = some e → ke.context = some x →
    ko.context = some x → ke.frame = some f → w.panels[x.panel] = some q → w.lanesServing x.panel = [e, o] →
    x.cls = .wide →
    let left := composeColumns s.content q strip 0 (x.width / 2)
    let right := composeColumns s.content q strip (x.width / 2) (x.width / 2)
    (ke.unwritten ≠ [] ∨ ko.unwritten ≠ [] → LeavesWorks (.strip e) s w ∧ LeavesWorks (.strip o) s w) ∧
    (ke.composed = true → LeavesWorks (.strip e) s w) ∧ (ko.composed = true → LeavesWorks (.strip o) s w) ∧
    (ke.unwritten = [] → ko.unwritten = [] → ke.nextStrip = strip → ko.nextStrip = strip → strip < x.strips →
      (ke.composed = false → ko.composed = false →
        LeavesWorks (.strip e) s { w with lanes := w.lanes.set e { ke with buffer := left, composed := true } } ∧
        LeavesWorks (.strip o) s { w with lanes := w.lanes.set o { ko with buffer := right, composed := true } }) ∧
      ∀ (n : LaneId) (ca cb : List (List Nat)),
        (n = o ∧ ke.composed = true ∧ ko.composed = false ∧ ca = ke.buffer ∧ cb = right) ∨
          (n = e ∧ ke.composed = false ∧ ko.composed = true ∧ ca = left ∧ cb = ko.buffer) →
        let a := stripBytes .wide ca
        let b := stripBytes .wide cb
        let d := digest (a ++ b)
        let kept := would && !f.stagedCandidate
        let codeA := if kept then [BitVec.ofNat 8 strip] else BitVec.ofNat 8 (128 + strip) :: segmentCode a
        let codeB := if kept then [] else segmentCode b
        let link := w.links[x.link]
        let room := 1024 - link.fifo.length
        let commits := f.committed || !would
        let late := f.stagedCandidate && !commits && decide (room < codeA.length + codeB.length)
        (would = true ↔ x.fullDemand = false ∧ ke.work.has .refresh = false ∧
          ∃ r, x.ack = some r ∧ r.strips[strip]? = some d) →
        LeavesWorks (.strip n) s { w with
          links := w.links.set x.link { link with
            fifo := link.fifo ++ (codeA ++ codeB).take room
            frame := link.frame.map (fun r => { r with committed := commits || late }) }
          lanes := (w.lanes.set e { ke with
            nextStrip := if codeA.length ≤ room ∧ strip + 1 < x.strips then strip + 1 else strip
            frame := some { f with
              committed := commits || late
              digests := f.digests ++ [d]
              kinds := f.kinds ++ [if kept then .keep else .coded]
              wouldKeep := f.wouldKeep && (would || !f.stagedCandidate) && !late }
            buffer := ca
            composed := false
            unwritten := codeA.drop room }).set o { ko with
            nextStrip := if codeA.length + codeB.length ≤ room ∧ strip + 1 < x.strips then strip + 1 else strip
            buffer := cb
            composed := false
            unwritten := codeB.drop (room - codeA.length) } })

/-- FIFO_ROOM: the bytes sent leave the FIFO onto LTX, and the lane that waits goes on writing; in a pair the even lane goes
first and the odd lane writes once the even lane has written its half (R110, R111, R153, R163). CODING_END of a lane, or of
a pair once both have written their last half: CODED hands the frame and the work causes over and the panel is SENDING;
NULL_FRAME frees the link, moves the acknowledged generation on, and is an arrival of a staged candidate, unless its swap
ended while it was in the lane (R87, R111, R112, R148, R154, R155, R175, R178). MODEL'S CHOICES: when FIFO bytes leave, and
that the FIFO is filled to the byte (log 13). -/
def Obligations.LaneResumesAndEndsCoding : Prop :=
  (∀ (n : LaneId) (x : Context) (f : FrameBuild) (r : FrameRecord) (sent : Nat) (s : State),
    let w := s.delivery.works
    let k := w.lanes[n]
    let link := w.links[x.link]
    let fifo := link.fifo.drop sent
    let room := 1024 - fifo.length
    let late := f.stagedCandidate && !f.committed && decide (room < k.unwritten.length)
    k.state = .working → k.partner = none → k.context = some x → k.frame = some f → w.lanesServing x.panel = [n] →
    link.state = .streaming → link.line = .frame → link.frame = some r → r.panel = x.panel →
    LeavesWorks (.fifoRoom n sent) s { w with
      links := w.links.set x.link { link with
        fifo := fifo ++ k.unwritten.take room
        sent := link.sent ++ link.fifo.take sent
        frame := some { r with committed := f.committed || late } }
      lanes := w.lanes.set n { k with
        nextStrip := if k.unwritten.length ≤ room ∧ k.nextStrip < f.kinds.length ∧ k.nextStrip + 1 < x.strips
          then k.nextStrip + 1 else k.nextStrip
        frame := some { f with committed := f.committed || late, wouldKeep := f.wouldKeep && !late }
        unwritten := k.unwritten.drop room } }) ∧
  (∀ (j : Fin 4) (n : LaneId) (x : Context) (f : FrameBuild) (r : FrameRecord) (sent : Nat) (s : State),
    let w := s.delivery.works
    let e := evenLane j
    let o := oddLane j
    let ke := w.lanes[e]
    let ko := w.lanes[o]
    let link := w.links[x.link]
    let fifo := link.fifo.drop sent
    let room := 1024 - fifo.length
    let both := ke.unwritten ++ ko.unwritten
    let late := f.stagedCandidate && !f.committed && decide (room < both.length)
    let next (k : Lane) : Nat :=
      if k.nextStrip < f.kinds.length ∧ k.nextStrip + 1 < x.strips then k.nextStrip + 1 else k.nextStrip
    n = e ∨ n = o → ke.partner = some o → ko.partner = some e → ke.context = some x → ko.context = some x →
    ke.frame = some f → w.lanesServing x.panel = [e, o] →
    link.state = .streaming → link.line = .frame → link.frame = some r → r.panel = x.panel →
    LeavesWorks (.fifoRoom n sent) s { w with
      links := w.links.set x.link { link with
        fifo := fifo ++ both.take room
        sent := link.sent ++ link.fifo.take sent
        frame := some { r with committed := f.committed || late } }
      lanes := (w.lanes.set e { ke with
        nextStrip := if ke.unwritten.length ≤ room then next ke else ke.nextStrip
        frame := some { f with committed := f.committed || late, wouldKeep := f.wouldKeep && !late }
        unwritten := ke.unwritten.drop room }).set o { ko with
        nextStrip := if both.length ≤ room then next ko else ko.nextStrip
        unwritten := ko.unwritten.drop (room - ke.unwritten.length) } }) ∧
  ∀ (n h : LaneId) (lanes : List LaneId) (x : Context) (f : FrameBuild) (q : Panel) (s : State),
    let w := s.delivery.works
    let link := w.links[x.link]
    (lanes = [n] ∧ h = n ∧ (w.lanes[n]).partner = none) ∨
      (∃ j : Fin 4, lanes = [evenLane j, oddLane j] ∧ h = evenLane j ∧ (n = evenLane j ∨ n = oddLane j) ∧
        (w.lanes[evenLane j]).partner = some (oddLane j) ∧ (w.lanes[oddLane j]).partner = some (evenLane j)) →
    w.lanesServing x.panel = lanes → (w.lanes[n]).state = .working → (w.lanes[h]).context = some x →
    (w.lanes[h]).frame = some f → (∀ m ∈ lanes, (w.lanes[m]).unwritten = []) → f.kinds.length = x.strips →
    w.panels[x.panel] = some q → q.state = .loaded → q.link = x.link →
    let kept := lanes.foldl (fun v m => v.set m (keptLane w m)) w.lanes
    (f.committed = true → LeavesWorks (.codingEnd n) s { w with
      panels := w.panels.set x.panel (some { q with state := .sending, inFlight := some (w.lanes[h]).work })
      lanes := kept
      links := w.links.set x.link { link with frame := link.frame.map (fun r => { r with
        strips := f.digests
        expected := frameDigest f.digests
        generation := f.generation
        full := f.kinds.all (fun z => decide (z = .coded))
        staged := f.stagedCandidate
        committed := true
        complete := true
        swapEnded := f.swapEnded }) } }) ∧
    (f.committed = false → ∃ w', ReturnsToIdle x.link { w with lanes := kept } w' ∧
      let q' : Panel := { q with
        ack := q.ack.map (fun r => { r with generation := f.generation })
        state := if q.wake = CauseSet.none then .parked else .ready }
      let d := ({ s.delivery with works := w'.putPanel x.panel q' } : Delivery).checkConfirmations s.content.board
      (f.stagedCandidate = false ∨ f.swapEnded = true ∨ awaitingGroup s.delivery.groups x.panel = none →
        Leaves (exec (.codingEnd n) s) s s.content d) ∧
      ∀ g r, f.stagedCandidate = true → f.swapEnded = false → awaitingGroup s.delivery.groups x.panel = some g →
        q.ack = some r →
        Leaves (exec (.codingEnd n) s) s s.content
          (d.arrive s.content.board g ⟨x.panel, r.strips, r.frame, f.generation, false, false⟩))

/-- The code words of a segment stand for its bytes; a RUN holds 3 to 130 and ends only at 130 or at another byte, a LITERAL
holds 1 to 128 with no three equal bytes beginning in it and ends only at 128, at a run, or at the end (R152). -/
def Obligations.CodeWordsFollowTheGreedyScan : Prop :=
  ∀ segment : List Byte, (codeSegment segment).flatMap CodeWord.expand = segment ∧
    ∀ before after word, codeSegment segment = before ++ word :: after → let rest := after.flatMap CodeWord.expand
      match word with
      | .run n b => 3 ≤ n ∧ n ≤ 130 ∧ (CodeWord.run n b).bytes.length = 2 ∧ (n < 130 → rest.head? ≠ some b)
      | .literal bytes => 1 ≤ bytes.length ∧ bytes.length ≤ 128 ∧
          (CodeWord.literal bytes).bytes.length = 1 + bytes.length ∧
          (∀ k < bytes.length, beginsRun ((bytes ++ rest).drop k) = false) ∧
          (bytes.length < 128 → rest = [] ∨ beginsRun rest = true)

/-- A selection that serves: a READY panel without a holdoff, on an IDLE link, neither frozen nor deferred unless URGENT
(R98), becomes LOADED with its wake set handed to a lane as its work causes, and its link RESERVED for it with an empty FIFO
(R86, R107, R162). One that serves nothing changes the rotation alone, and turns lanes of a pair it claims into CLAIMED
(R105). Which panel is served: the claim's panel with the claimed pair (R99, R106), else the first urgent panel after the
urgent pointer that obtains lanes, directly or by preemption (R100, R114, R115), else the first panel of the walk from the
pointers that is eligible without URGENT, does not hold the claim, and finds lanes (R101), with the pointers of R102 and the
passes of R104 and R105. Which lanes: R103 for a LINE or ROWS panel, R104 for a WIDE one, R114 for a preemption. The lane,
or both lanes of the pair, take the panel: RESIDENT with its context, WORKING at strip 0 with a new frame, else LOADING
without a context (R107, R108, R110); served with a pair, the panel's pass count is 0 and its claim ends (R104, R106). A
preempted panel is READY with its causes merged back, its lanes free, and its link lets the frame go (R115, R158, R164).
MODEL'S CHOICES: each level keeps its own pointer at the first WIDE panel met at that level, the second-level pointer also
where a level-1 WIDE panel was met before (log 5); a claim served moves the pointer of its panel's level, past a WIDE panel
that keeps its place at it, and the other pointer stays (log 5); the other lane of a pair whose one lane is given to another
panel keeps its context (log 31); a frame is a staged candidate though its causes hold URGENT (log 32); a frame cut short is
counted as the break begins (log 7). -/
def Obligations.SelectionServesOneReadyPanel : Prop :=
  (∀ (c : Content) (gs : Vector Group 8) (w w' : Works),
    (w.selection c gs = (w', true) → ∃ p q, w.panels[p] = some q ∧ q.state = .ready ∧ q.holdoff = none ∧
      (w.links[q.link]).state = .idle ∧
      (q.wake.has .urgent = true ∨ (c.frozen q = false ∧
        (q.wake.has .stage = true ∨ ∀ g : GroupId, (gs[g]).swap ≠ none → p ∉ (gs[g]).members))) ∧
      w'.panels[p] = some { q with state := .loaded, wake := CauseSet.none } ∧
      (w'.links[q.link]).state = .reserved ∧ (w'.links[q.link]).fifo = [] ∧
      (w'.links[q.link]).frame = some ⟨p, q.drop, none, [], 0, 0, false, false, false, false, false⟩ ∧
      ∃ n : LaneId, (w'.lanes[n]).panel = some p ∧ (w'.lanes[n]).work = q.wake ∧ (w'.lanes[n]).serves = true ∧
        (q.cls = .wide → (w'.lanes[n]).partner.isSome = true) ∧
        (q.cls ≠ .wide → (∀ x, w.rotation.claim = some x → x.panel ≠ p) → (w'.lanes[n]).partner = none)) ∧
    (w.selection c gs = (w', false) → w'.panels = w.panels ∧ w'.links = w.links ∧ w'.now = w.now ∧
      ∀ n : LaneId, w'.lanes[n] = w.lanes[n] ∨ ((w.lanes[n]).open = true ∧ w'.lanes[n] = Lane.claimed))) ∧
  (∀ (w : Works) (p : PanelId),
    let is (st : LaneState) (n : LaneId) : Prop := (w.lanes[n]).state = st
    let own (n : LaneId) : Prop := is .resident n ∧ (w.lanes[n]).panel = some p
    let plain (n : LaneId) : Prop := w.servesPlain n = true
    let lowest (test : LaneId → Prop) (n : LaneId) : Prop := test n ∧ ∀ m < n, ¬ test m
    let both (test : LaneId → Prop) (k : Fin 4) : Prop := test (evenLane k) ∧ test (oddLane k)
    let lowestBoth (test : LaneId → Prop) (k : Fin 4) : Prop := both test k ∧ ∀ j < k, ¬ both test j
    (∀ n, lowest own n → w.chooseLane p = some n) ∧
    ((∀ n, ¬ own n) → ∀ n, lowest (is .free) n → w.chooseLane p = some n) ∧
    ((∀ n, ¬ own n ∧ ¬ is .free n) → ∀ n, lowest (is .resident) n → w.chooseLane p = some n) ∧
    ((∀ n, ¬ is .free n ∧ ¬ is .resident n) → w.chooseLane p = none) ∧
    (∀ k, lowestBoth own k → w.choosePair p = some k) ∧
    ((∀ k, ¬ both own k) → ∀ k, lowestBoth (is .free) k → w.choosePair p = some k) ∧
    ((∀ k, ¬ both own k ∧ ¬ both (is .free) k) →
      ∀ k, lowestBoth (fun n => is .free n ∨ is .resident n) k → w.choosePair p = some k) ∧
    ((∀ k, ¬ both (fun n => is .free n ∨ is .resident n) k) → w.choosePair p = none) ∧
    (∀ n, lowest (fun n => is .loading n ∧ plain n) n → w.targetLane = some n) ∧
    ((∀ n, ¬ (is .loading n ∧ plain n)) → ∀ n, lowest (fun n => is .working n ∧ plain n) n → w.targetLane = some n) ∧
    ((∀ n, ¬ plain n) → w.targetLane = none) ∧
    let usable (n : LaneId) : Prop := is .free n ∨ is .resident n ∨ plain n
    (∀ k, lowestBoth (fun n => usable n ∧ ¬ is .working n) k → w.targetPair = some k) ∧
    ((∀ k, ¬ both (fun n => usable n ∧ ¬ is .working n) k) → ∀ k, lowestBoth usable k → w.targetPair = some k) ∧
    ((∀ k, ¬ both usable k) → w.targetPair = none)) ∧
  (∀ (c : Content) (gs : Vector Group 8) (w : Works),
    let claimReady : Prop := ∃ x, w.rotation.claim = some x ∧ (w.lanes[evenLane x.pair]).state = .claimed ∧
      (w.lanes[oddLane x.pair]).state = .claimed ∧ eligible c gs w x.panel = true
    let obtains (p : PanelId) : Prop := ∃ q, w.panels[p] = some q ∧
      (hasLanes w p = true ∨ (q.cls = .wide ∧ w.targetPair ≠ none) ∨ (q.cls ≠ .wide ∧ w.targetLane ≠ none))
    let urgent (p : PanelId) : Prop := w.urgent p = true ∧ eligible c gs w p = true ∧ obtains p
    (∀ x q, w.rotation.claim = some x → claimReady → w.panels[x.panel] = some q →
      let v := w.servePair c gs x.panel q x.pair
      w.selection c gs = ({ v with rotation := { w.rotation with
        claim := none
        passes := w.rotation.passes.set x.panel 0
        first := if q.level = 1 then v.afterPanel x.panel else w.rotation.first
        second := if q.level = 1 then w.rotation.second else v.afterSecond x.panel } }, true)) ∧
    (¬ claimReady → ∀ before p after, cycleFrom 64 (w.rotation.urgent.val + 1) = before ++ p :: after →
      (∀ m ∈ before, ¬ urgent m) → urgent p → ∀ q, w.panels[p] = some q →
      let serves (v : Works) : Prop := w.selection c gs = ({ v with rotation := { v.rotation with urgent := p } }, true)
      (q.cls ≠ .wide → ∀ n, w.chooseLane p = some n → serves (w.serveSingle c gs p q n)) ∧
      (q.cls = .wide → ∀ k, w.choosePair p = some k → serves (w.servePair c gs p q k)) ∧
      (q.cls ≠ .wide → w.chooseLane p = none → ∀ n m, w.targetLane = some n → (w.lanes[n]).panel = some m →
        serves ((w.preempt m).serveSingle c gs p q n)) ∧
      (q.cls = .wide → w.choosePair p = none → ∀ k, w.targetPair = some k →
        serves (((w.preemptLane (evenLane k)).preemptLane (oddLane k)).servePair c gs p q k))) ∧
    (¬ claimReady → (∀ p, ¬ urgent p) →
      ((∀ n : LaneId, (w.lanes[n]).open = false) → w.selection c gs = (w, false)) ∧
      (∀ before x after, walkOrder w = before ++ x :: after → (∃ n : LaneId, (w.lanes[n]).open = true) →
        (∀ b y a, before = b ++ y :: a → servedHere c gs (b.foldl (goPast c gs) w) y.2 = false) →
        let v := before.foldl (goPast c gs) w
        let kept := keptPlaces c gs before w
        servedHere c gs v x.2 = true → ∀ q, w.panels[x.2] = some q →
        let moved (u : Works) : Works := { u with rotation := { u.rotation with
          first := (kept.head?.map (fun y => y.1)).getD (if x.1 = .slot then w.afterSlot else w.afterPanel x.2)
          second := ((kept.find? (fun y => decide (y.1 = .slot))).map (fun y => y.2)).getD
            (if x.1 = .slot then w.afterSecond x.2 else w.rotation.second) } }
        (q.cls ≠ .wide → ∀ n, v.chooseLane x.2 = some n → w.selection c gs = (moved (v.serveSingle c gs x.2 q n), true)) ∧
        (q.cls = .wide → ∀ k, v.choosePair x.2 = some k → w.selection c gs = (moved (v.servePair c gs x.2 q k), true))) ∧
      ((∃ n : LaneId, (w.lanes[n]).open = true) →
        (∀ b y a, walkOrder w = b ++ y :: a → servedHere c gs (b.foldl (goPast c gs) w) y.2 = false) →
        let v := (walkOrder w).foldl (goPast c gs) w
        let kept := keptPlaces c gs (walkOrder w) w
        w.selection c gs = ({ v with rotation := { v.rotation with
          first := (kept.head?.map (fun y => y.1)).getD w.rotation.first
          second := ((kept.find? (fun y => decide (y.1 = .slot))).map (fun y => y.2)).getD w.rotation.second } }, false)))) ∧
  (∀ (w : Works) (p : PanelId),
    let v := min 4 (w.rotation.passes[p] + 1)
    let counted : Works := { w with rotation := { w.rotation with passes := w.rotation.passes.set p v } }
    let quiet (k : Fin 4) : Prop := w.servesUrgent (evenLane k) = false ∧ w.servesUrgent (oddLane k) = false
    (v < 4 ∨ w.rotation.claim ≠ none ∨ (∀ k, ¬ quiet k) → w.passOver p = counted) ∧
    (v = 4 → w.rotation.claim = none → ∀ k, quiet k → (∀ j < k, ¬ quiet j) →
      let u := w.passOver p
      u.panels = w.panels ∧ u.links = w.links ∧ u.now = w.now ∧
        u.rotation = { counted.rotation with claim := some ⟨p, k⟩ } ∧
        ∀ n : LaneId, u.lanes[n] =
          if (n = evenLane k ∨ n = oddLane k) ∧ (w.lanes[n]).open = true then Lane.claimed else w.lanes[n])) ∧
  (∀ (c : Content) (gs : Vector Group 8) (w : Works) (p : PanelId) (q : Panel),
    let own (n : LaneId) : Prop := (w.lanes[n]).state = .resident ∧ (w.lanes[n]).panel = some p
    let frame : FrameBuild :=
      ⟨c.board.generation, q.wake.has .stage && (awaitingGroup gs p).isSome, false, [], [], true, false⟩
    let working (partner : Option LaneId) (work : CauseSet) (frame : Option FrameBuild) (k : Lane) : Lane := { k with
      state := .working, panel := some p, partner := partner, work := work, nextStrip := 0, frame := frame
      buffer := [], composed := false, unwritten := [] }
    let loading (partner : Option LaneId) (work : CauseSet) : Lane := { Lane.free with
      state := .loading, panel := some p, partner := partner, work := work }
    let table (v : Works) : Prop :=
      v.panels = w.panels.set p (some { q with state := .loaded, wake := CauseSet.none }) ∧
      v.links = w.links.set q.link { w.links[q.link] with
        state := .reserved, fifo := [], frame := some ⟨p, q.drop, none, [], 0, 0, false, false, false, false, false⟩ } ∧
      v.now = w.now
    (∀ n : LaneId, let v := w.serveSingle c gs p q n
      table v ∧ v.rotation = w.rotation ∧ (∀ m : LaneId, m ≠ n → v.lanes[m] = w.lanes[m]) ∧
      (own n → v.lanes[n] = working none q.wake (some frame) w.lanes[n]) ∧ (¬ own n → v.lanes[n] = loading none q.wake)) ∧
    ∀ k : Fin 4, let v := w.servePair c gs p q k
      let e := evenLane k
      let o := oddLane k
      let ended := w.rotation.claim.any (fun x => decide (x.panel = p))
      table v ∧
      v.rotation = { w.rotation with
        passes := w.rotation.passes.set p 0, claim := w.rotation.claim.filter (fun x => decide (x.panel ≠ p)) } ∧
      (∀ m : LaneId, m ≠ e → m ≠ o → v.lanes[m] =
        if ended = true ∧ (w.lanes[m]).state = .claimed then Lane.free else w.lanes[m]) ∧
      (own e ∧ own o → v.lanes[e] = working (some o) q.wake (some frame) w.lanes[e] ∧
        v.lanes[o] = working (some e) CauseSet.none none w.lanes[o]) ∧
      (¬ (own e ∧ own o) → v.lanes[e] = loading (some o) q.wake ∧ v.lanes[o] = loading (some e) CauseSet.none)) ∧
  ∀ (w : Works) (m : PanelId) (q : Panel), w.panels[m] = some q →
    ∃ wake v, TakesBack w m q.wake wake ∧ LetsFrameGo q.link w v ∧ (w.preempt m).links = v.links ∧
      (w.preempt m).panels = v.panels.set m (some { q with state := .ready, wake := wake }) ∧
      (w.preempt m).rotation = w.rotation ∧ (w.preempt m).now = w.now ∧
      ∀ n : LaneId, (w.preempt m).lanes[n] = if n ∈ w.lanesServing m
        then (if w.inClaimedPair n then Lane.claimed else Lane.free) else w.lanes[n]

/-! ## Display links and delivery -/

/-- LINK_SETUP stores the three values of a DISABLED link (R159); LINK_ENABLE brings it into service and makes a probe due of
every panel on it (R95, R160); both refuse with STATE otherwise. LINK_DISABLE of a DISABLED link changes nothing; of any other
it stops the lanes of the link's panels and is DISABLED at once, or first cuts a sending short with a break, a frame counted,
or lets a break in progress go on, all else of the link then staying until the break ends (R158, R161; which leaves `works`),
then makes each panel of the link OFFLINE with its causes merged back, a check of every confirmation in progress after each
(R62, R95), and drops each expected member among them out of its swap, a check of the group after them (R176, R177); it records
no notice, leaves no lane with a panel of the link, ends a claim of one, and keeps the other lanes, the pointers, and the
passes and a claim of other panels (R106, R117, R158, R161). A link above 7 is BAD_VALUE for each. MODEL'S CHOICES: the panels
are OFFLINE and the lanes free when the break begins, and the link DISABLED when it ends (log 7); a probe due at once is due at
the moment now, and LINK_ENABLE leaves the link IDLE with none begun (log 8); the last outcome is kept (log 25); the panels
ascending, and every one of them OFFLINE and dropped out before a swap is checked, the groups by rising number (log 26); the
confirmations checked after each panel, not once in the order of acceptance over all of them (R63, log 38). -/
def Obligations.LinkSetupEnableAndDisable : Prop :=
  (∀ (p : PortId) (v divider timeout startLevel : Nat) (s : State), 7 < v → s.isSupervisor p →
    ∀ i ∈ [Instr.linkSetup p v divider timeout startLevel, .linkEnable p v, .linkDisable p v], s.canTake p i →
      Refuses p i .badValue s) ∧
  ∀ (p : PortId) (l : LinkId) (divider timeout startLevel : Nat) (s : State),
    let w := s.delivery.works
    let k := w.links[l]
    (
      let i := Instr.linkSetup p l.val divider timeout startLevel
      let k' : Link := { k with
        divider := 2 * (divider / 2), timeout := max 1 (min 255 timeout), startLevel := max 64 (min 1024 startLevel) / 64 * 64 }
      s.canTake p i → s.isSupervisor p →
      (k.state ≠ .disabled → Refuses p i .state s) ∧
      (k.state = .disabled → Replies p i (okWith (b2 k'.divider ++ b1 k'.timeout ++ b2 k'.startLevel)) s s.content
        { s.taking p with works := { w with links := w.links.set l k' } })) ∧
    (
      let i := Instr.linkEnable p l.val
      s.canTake p i → s.isSupervisor p →
      (k.state ≠ .disabled ∨ k.divider = 0 → Refuses p i .state s) ∧
      (k.state = .disabled → k.divider ≠ 0 → Replies p i (okWith []) s s.content
        { s.taking p with works := { w with
          links := w.links.set l { k with
            state := .idle, fifo := [], pendingShow := [], probePointer := 7, line := .released, rx := [] }
          panels := mapTable (Option.map (fun q => if q.link = l then { q with probeDue := some w.now } else q))
            w.panels } })) ∧
    (
      let i := Instr.linkDisable p l.val
      s.canTake p i → s.isSupervisor p →
      (k.state = .disabled → Replies p i (okWith []) s s.content (s.taking p)) ∧
      (k.state ≠ .disabled → ∃ works : Works,
        let b := s.content.board
        let members := (List.finRange 64).filter (fun m => (w.panels[m]).any (fun q => decide (q.link = l)))
        let offline (d : Delivery) (m : PanelId) : Delivery := match d.works.panels[m] with
          | none => d
          | some q => ({ d with works := d.works.putPanel m { q with
              state := .offline, wake := q.wake.union (q.inFlight.getD CauseSet.none), inFlight := none, ack := none
              fullDemand := true, failures := 0, holdoff := none, refreshDeadline := none, probeDue := none } }
              : Delivery).checkConfirmations b
        let leaving (g : Group) : List PanelId := match g.swap with
          | none => []
          | some x => members.filter (fun m => decide (m ∈ x.expected ∧ m ∉ x.dropped))
        let dropped (g : Group) : Group := { g with swap := g.swap.map (fun x => { x with
          dropped := (leaving g).foldl (fun ms m => insertNumber m ms) x.dropped
          staged := x.staged.filter (fun r => decide (r.panel ∉ leaving g)) }) }
        let touched := (List.finRange 8).filter (fun g => !(leaving s.delivery.groups[g]).isEmpty)
        let taken := members.foldl offline { s.taking p with works := works }
        let d := touched.foldl (fun d g => d.checkSwap b g) { taken with groups := mapTable dropped taken.groups }
        Replies p i (okWith []) s s.content d ∧
        let onLink (m : PanelId) : Bool := (w.panels[m]).any (fun q => decide (q.link = l))
        let kept := w.rotation.claim.filter (fun x => !onLink x.panel)
        works.rotation = { w.rotation with
          claim := kept
          passes := match w.rotation.claim with
            | none => w.rotation.passes
            | some x => if onLink x.panel then w.rotation.passes.set x.panel 0 else w.rotation.passes } ∧
        (∀ n : LaneId, works.lanes[n] =
          if (w.lanes[n]).serves = true ∧ (w.lanes[n]).panel.any onLink = true then
            (if kept.any (fun x => decide (n = evenLane x.pair ∨ n = oddLane x.pair)) then Lane.claimed else Lane.free)
          else if (w.lanes[n]).state = .resident ∧ (w.lanes[n]).panel.any onLink = true then Lane.free
          else if (w.lanes[n]).state = .claimed ∧ w.rotation.claim.any (fun x => onLink x.panel) = true then Lane.free
          else w.lanes[n]) ∧
        let linkThen : Link := match k.line with
          | .released => { k with
              state := .disabled, fifo := [], frame := none, probe := none, wait := none, pendingShow := [], busy := 0
              rx := [] }
          | .frame => { k with line := .brk true, abandons := min 65535 (k.abandons + 1), busy := 0 }
          | .probe | .show | .brk _ => { k with line := .brk true }
        works.now = w.now ∧ works.links = w.links.set l linkThen ∧
        (∀ (m : PanelId) (q : Panel), w.panels[m] = some q →
          (q.link ≠ l → works.panels[m] = some q) ∧
          (q.link = l → ∃ wake, TakesBack w m q.wake wake ∧ works.panels[m] = some { q with wake := wake })) ∧
        (∀ m : PanelId, w.panels[m] = none → works.panels[m] = none) ∧
        (∀ x : PortId, (d.ports[x]).notices = (s.delivery.ports[x]).notices) ∧
        (groupsOk s.delivery.groups →
        d.works.links[l] = linkThen ∧
        (∀ (g : GroupId) (k : Swap), (d.groups[g]).swap = some k → ∀ r ∈ k.staged,
          ∀ q, w.panels[r.panel] = some q → q.link ≠ l) ∧
        ∀ (m : PanelId) (q : Panel), w.panels[m] = some q →
          (q.link ≠ l → sameButAck d.works.panels[m] (some q)) ∧
          (q.link = l → (∀ n : LaneId, (d.works.lanes[n]).serves = true ∨ (d.works.lanes[n]).state = .resident →
              (d.works.lanes[n]).panel ≠ some m) ∧
            (∀ x, d.works.rotation.claim = some x → x.panel ≠ m) ∧
            ∃ wake, TakesBack w m (q.wake.union (q.inFlight.getD CauseSet.none)) wake ∧
              d.works.panels[m] = some { q with
                state := .offline, wake := wake, inFlight := none, ack := none, fullDemand := true, failures := 0
                holdoff := none, refreshDeadline := none, probeDue := none }))))

/-- FRAME_START by its start condition: the frame number advanced, the header sent, the link STREAMING (R163).
LAST_BYTE_SENT: the reply awaited (R165). UNDERFLOW: with an empty FIFO a break, the count, the panel READY with its causes
merged back and its lanes keeping its context (R93, R117, R164); with a byte in the FIFO the byte sent and the frame going
on; with the frame complete nothing (R164). BREAK_END: IDLE, or DISABLED (R158, R161). LTX carries each byte as ten bit
times, start bit low, bit 0 first, stop bit high, a break as twenty at low, and rests high; LDE is high while the part sends
(R158). MODEL'S CHOICES: the line time of the header (log 3), what an abandon does when its break begins (log 7),
LAST_BYTE_SENT sending what the FIFO still holds (log 13), the record of what LTX carried (log 21), a break after whole
bytes (log 34). -/
def Obligations.FramesStartEndAndBreak : Prop :=
  ∀ (l : LinkId) (s : State),
    let w := s.delivery.works
    let k := w.links[l]
    (∀ f q, k.frame = some f → w.panels[f.panel] = some q → k.state = .reserved → k.line = .released →
      (f.committed = true → k.startLevel ≤ k.fifo.length ∨ f.complete = true ∨ w.waitsForRoom f.panel = true →
        let number := q.lastFrame + 1
        let staged := w.stagedMark f
        LeavesWorks (.frameStart l) s { w with
          panels := w.panels.set f.panel (some { q with lastFrame := number })
          links := w.links.set l { k with
            state := .streaming
            line := .frame
            frame := some { f with number := some number, staged := staged }
            sent := withCheck [0x80, BitVec.ofNat 8 f.drop.val, number, if staged then 1 else 0,
              BitVec.ofNat 8 (q.height / 8)]
            busy := 7 * k.divider
            rx := [] } }) ∧
      (f.committed = false ∨ (k.fifo.length < k.startLevel ∧ f.complete = false ∧ w.waitsForRoom f.panel = false) →
        LeavesWorks (.frameStart l) s w)) ∧
    (∀ f, k.frame = some f → k.state = .streaming → k.line = .frame → f.complete = true →
      LeavesWorks (.lastByteSent l) s { w with links := w.links.set l { k with
        state := .awaitingReply, line := .released, fifo := [], sent := k.sent ++ k.fifo, busy := 0
        wait := some (w.now + k.timeout), rx := [] } }) ∧
    (∀ f, k.frame = some f → k.state = .streaming → k.line = .frame →
      (k.fifo = [] → f.complete = true → LeavesWorks (.underflow l) s w) ∧
      ∀ x rest, k.fifo = x :: rest → LeavesWorks (.underflow l) s
        (({ w with links := w.links.set l { k with fifo := rest, sent := k.sent ++ [x] } } : Works).resume f.panel)) ∧
    (∀ f, k.frame = some f → k.state = .streaming → k.line = .frame → k.fifo = [] → f.complete = false →
      ∃ w', LeavesWorks (.underflow l) s w' ∧ w'.rotation = w.rotation ∧ w'.now = w.now ∧
        w'.links = w.links.set l { k with
          line := .brk false, abandons := min 65535 (k.abandons + 1), fifo := [], busy := 0
          lastOutcome := some (.abandoned, f.panel) } ∧
        (∀ q, w.panels[f.panel] = some q → q.state = .loaded →
          (∃ wake, TakesBack w f.panel q.wake wake ∧
            w'.panels = w.panels.set f.panel (some { q with state := .ready, wake := wake })) ∧
          ∀ n : LaneId, w'.lanes[n] = if n ∈ w.lanesServing f.panel then keptLane w n else w.lanes[n]) ∧
        ((∀ q, w.panels[f.panel] = some q → q.state ≠ .loaded) → w'.panels = w.panels ∧ w'.lanes = w.lanes)) ∧
    (k.line = .brk false → ∃ w', LeavesWorks (.breakEnd l) s w' ∧ ReturnsToIdle l w w') ∧
    (k.line = .brk true → LeavesWorks (.breakEnd l) s { w with links := w.links.set l { k with
      state := .disabled, fifo := [], frame := none, probe := none, wait := none, line := .released, pendingShow := []
      busy := 0, rx := [] } }) ∧
    (
      let levels := k.sent.flatMap (fun x => [false, x.getLsbD 0, x.getLsbD 1, x.getLsbD 2, x.getLsbD 3, x.getLsbD 4,
        x.getLsbD 5, x.getLsbD 6, x.getLsbD 7, true])
      (k.lde = true ↔ k.line ≠ .released) ∧ (k.line = .released → ∀ t, k.ltxAt t = true) ∧
      (k.line = .frame ∨ k.line = .probe ∨ k.line = .show → ∀ t, k.ltxAt t = (levels[t]?).getD true) ∧
      ∀ b, k.line = .brk b → ∀ t, k.ltxAt t = ((levels ++ List.replicate 20 false)[t]?).getD true)

/-- The replies of a panel, whole on a quiet line, and the reply deadline (R165, R166, R193): ACK with the expected digest
delivers the frame, plain or as an arrival (R89, R90, R175); another digest, NAK FORMAT or DIGEST, and the deadline fail
it (R91); NAK RESTARTED asks for it again (R93). Then the link returns to IDLE. A reply with another drop or frame number,
and an IDENT, is ignored. What LRX brings, character by character, whatever row carries it: nothing is heard while LDE is
high or the link is DISABLED (R158); a low stop bit, a gap, a byte that begins no reply, a drop above 7, a NAK reason
outside 01h to 03h, an IDENT class above 02h and a wrong check discard the reply in progress, and so ends a whole one that
is addressed to neither the frame nor the probe, all without a report and with the wait as it was (R165, R168, R193).
A staged frame whose swap ended while it was in a lane is applied as a plain one (R178).
MODEL'S CHOICES: a byte out of range discards the reply at once and begins no other (log 12); the moment max now t of the
time base at the deadline t (log 3); a staged frame that had left its lane when its swap ended is an arrival of the swap that
awaits its panel as it is delivered (log 36). -/
def Obligations.RepliesAndTimeoutsConcludeTheFrame : Prop :=
  ∀ (l : LinkId) (f : FrameRecord) (number : Byte) (q : Panel) (s : State),
    let w := s.delivery.works
    let k := w.links[l]
    let c := s.content
    let drop := BitVec.ofNat 8 f.drop.val
    let ack (drop number : Byte) (d : Digest) : Instr :=
      .ack l (cleanRx (withCheck [0xC0, drop, number, d.setWidth 8, (d >>> 8).setWidth 8]))
    let nak (drop number reason : Byte) : Instr := .nak l (cleanRx (withCheck [0xC1, drop, number, reason]))
    let rested (q : Panel) : Panel := { q with state := if q.wake = CauseSet.none then .parked else .ready }
    let ends (i : Instr) (o : LinkOutcome) (d : Delivery) : Prop := ∃ w',
      ReturnsToIdle l { d.works with links := d.works.links.set l { d.works.links[l] with lastOutcome := some (o, f.panel) } }
        w' ∧ Leaves (exec i s) s c { d with works := w' }
    let failed (d : Delivery) : Delivery :=
      let q1 : Panel := { q with
        ack := none, refreshDeadline := none, fullDemand := true, failures := q.failures + 1
        wake := q.wake.union { q.inFlight.getD CauseSet.none with stage := false }, inFlight := none }
      let q2 : Panel := if q1.failures < 8 then { rested q1 with holdoff := some (d.works.now + 100 * q1.failures) }
        else { q1 with state := .isolated }
      let d1 := ({ d with works := d.works.putPanel f.panel q1 } : Delivery).dropOut c.board f.panel
      let d2 : Delivery := { d1 with works := d1.works.putPanel f.panel q2 }
      (if q1.failures < 8 then d2 else d2.notifyAll (.panelIsolated f.panel)).checkConfirmations c.board
    let awaits (g : GroupId) (x : Swap) : Prop := (s.delivery.groups[g]).swap = some x ∧ f.panel ∈ x.expected ∧
      f.panel ∉ x.dropped ∧ ∀ r ∈ x.staged, r.panel ≠ f.panel
    (∀ rx, ∀ i ∈ [Instr.ack l rx, .nak l rx, .ident l rx],
      Leaves (exec i s) s c (rx.foldl (receiveChar c.board l) s.delivery) ∧
      (k.line ≠ .released ∨ k.state = .disabled → Leaves (exec i s) s c s.delivery)) ∧
    (∀ x : RxChar, let heard (rx : List Byte) : Delivery :=
        { s.delivery with works := { w with links := w.links.set l { k with rx := rx } } }
      let reply := (if x.gapBefore then [] else k.rx) ++ [x.byte]
      let kind := reply.headD 0
      let size := if kind = 0xC0 then 7 else if kind = 0xC1 then 6 else 8
      let outOfRange : Prop := (reply.length = 2 ∧ 7 < x.byte.toNat) ∨
        (reply.length = 4 ∧ kind = 0xC1 ∧ (x.byte = 0 ∨ 3 < x.byte.toNat)) ∨
        (reply.length = 3 ∧ kind = 0xC2 ∧ 2 < x.byte.toNat)
      let toFrame : Prop := kind ≠ 0xC2 ∧ k.state = .awaitingReply ∧ ∃ g n, k.frame = some g ∧ g.number = some n ∧
        (reply.drop 1).take 2 = [BitVec.ofNat 8 g.drop.val, n]
      let toProbe : Prop := kind = 0xC2 ∧ k.state = .probing ∧ k.wait ≠ none ∧ ∃ r, k.probe = some r ∧
        (reply.drop 1).take 1 = [BitVec.ofNat 8 r.drop.val]
      let becomes (d : Delivery) : Prop := receiveChar c.board l s.delivery x = d
      k.line = .released → k.state ≠ .disabled →
      (x.stopHigh = false → becomes (heard [])) ∧
      (x.stopHigh = true →
        ((kind ≠ 0xC0 ∧ kind ≠ 0xC1 ∧ kind ≠ 0xC2) ∨ outOfRange → becomes (heard [])) ∧
        (kind = 0xC0 ∨ kind = 0xC1 ∨ kind = 0xC2 → ¬ outOfRange →
          (reply.length ≠ size → becomes (heard reply)) ∧
          (reply.length = size → reply ≠ withCheck (reply.take (size - 2)) ∨ (¬ toFrame ∧ ¬ toProbe) →
            becomes (heard []))))) ∧
    (k.state = .awaitingReply → k.line = .released → k.frame = some f → f.number = some number →
    (∀ t, k.wait = some t → w.panels[f.panel] = some q → q.state = .sending →
      ends (.replyTimeout l) .timeout (failed (s.delivery.reach t))) ∧
    (k.rx = [] → w.panels[f.panel] = some q → q.state = .sending →
      (
        let q' : Panel := rested { q with
          ack := some ⟨f.strips, f.expected, f.generation⟩
          fullDemand := if f.full then false else q.fullDemand
          refreshDeadline := if f.full then (if q.refresh = 0 then none else some (w.now + 60000 * q.refresh))
            else q.refreshDeadline
          failures := 0
          inFlight := none }
        f.staged = false ∨ f.swapEnded = true ∨ (∀ h x, ¬ awaits h x) →
        ends (ack drop number f.expected) .delivered
          (({ s.delivery with works := w.putPanel f.panel q' } : Delivery).checkConfirmations c.board)) ∧
      (∀ g x, f.staged = true → f.swapEnded = false → awaits g x → (∀ h < g, ∀ y, ¬ awaits h y) →
        let d := ({ s.delivery with groups := s.delivery.groups.set g { s.delivery.groups[g] with swap := some { x with
          staged := x.staged ++ [⟨f.panel, f.strips, f.expected, f.generation, true, true⟩] } } }
          : Delivery).checkSwap c.board g
        ∃ q', d.works.panels[f.panel] = some q' ∧ ends (ack drop number f.expected) .delivered
          { d with works := d.works.setPanel f.panel (rested { q' with failures := 0, inFlight := none }) }) ∧
      (∀ d, d ≠ f.expected → ends (ack drop number d) .digestMismatch (failed s.delivery)) ∧
      ends (nak drop number 1) .nakFormat (failed s.delivery) ∧ ends (nak drop number 2) .nakDigest (failed s.delivery) ∧
      ends (nak drop number 3) .restarted (({ s.delivery with works := w.putPanel f.panel { q with
        ack := none, refreshDeadline := none, fullDemand := true, inFlight := none, state := .ready
        wake := (q.wake.union (q.inFlight.getD CauseSet.none)).insert .content } } : Delivery).checkConfirmations c.board)) ∧
    (k.rx = [] → ∀ (x : Drop) (m : Byte), BitVec.ofNat 8 x.val ≠ drop ∨ m ≠ number →
      (∀ d, Leaves (exec (ack (BitVec.ofNat 8 x.val) m d) s) s c s.delivery) ∧
      ∀ reason, reason = 1 ∨ reason = 2 ∨ reason = 3 →
        Leaves (exec (nak (BitVec.ofNat 8 x.val) m reason) s) s c s.delivery) ∧
    (k.rx = [] → ∀ (x : Drop) (cls : Byte) (width height : Nat), cls.toNat ≤ 2 → width < 65536 → height < 256 →
      Leaves (exec (.ident l (cleanRx (withCheck ([0xC2, BitVec.ofNat 8 x.val, cls] ++ b2 width ++ b1 height)))) s)
        s c s.delivery))

/-- PROBE_DUE begins, on an IDLE link whose line is free, the probe of the first due drop after the probe pointer (R94,
R167); PROBE_SENT opens the wait; IDENT with the recorded class, width and height brings the panel online, with another
one reports a mismatch (R94, R168), and with the panel UNDEFINED, not OFFLINE, on another link or its probe mark clear is
dropped (R81, R82, R89, R94); an IDENT of another drop, an ACK and a NAK are ignored, the wait going on (R168);
PROBE_TIMEOUT ends the wait without a report; SHOW_END frees the line (R167, R169). MODEL'S CHOICE (log 3): the moment max
now t of the time base at the deadline t. -/
def Obligations.ProbesAndShowTakeTheirCourse : Prop :=
  ∀ (l : LinkId) (s : State),
    let w := s.delivery.works
    let k := w.links[l]
    (∀ p q t, w.panels[p] = some q → q.probeDue = some t → q.state = .offline → q.link = l →
      let w1 : Works := { w with now := max w.now t }
      (k.state ≠ .idle ∨ k.line ≠ .released → LeavesWorks (.probeDue p) s w1) ∧
      (k.state = .idle → k.line = .released → panelsOk w → ∃ (m : PanelId) (x : Panel) (u : Nat),
        w.panels[m] = some x ∧ x.link = l ∧ x.state = .offline ∧ x.probeDue = some u ∧ u ≤ w1.now ∧
        (∀ (m' : PanelId) (x' : Panel) (u' : Nat), w.panels[m'] = some x' → x'.link = l → x'.state = .offline → x'.probeDue = some u' → u' ≤ w1.now →
          (x.drop.val + 7 - k.probePointer.val) % 8 ≤ (x'.drop.val + 7 - k.probePointer.val) % 8) ∧
        LeavesWorks (.probeDue p) s { w1 with
          panels := w.panels.set m (some { x with probeDue := some (w1.now + 5000), probeMark := true })
          links := w.links.set l { k with
            state := .probing
            probePointer := x.drop
            probe := some ⟨m, x.drop, x.cls, x.width, x.height⟩
            line := .probe
            sent := withCheck [0x81, BitVec.ofNat 8 x.drop.val, BitVec.ofNat 8 k.timeout]
            rx := [] } })) ∧
    (k.state = .probing → k.line = .probe → LeavesWorks (.probeSent l) s { w with
      links := w.links.set l { k with line := .released, wait := some (w.now + k.timeout), rx := [] } }) ∧
    (∀ x t (q : Panel) (cls : Byte) (width height : Nat), let i := Instr.ident l (cleanRx (withCheck
        ([0xC2, BitVec.ofNat 8 x.drop.val, cls] ++ b2 width ++ b1 height)))
      k.state = .probing → k.line = .released → k.wait = some t → k.probe = some x → k.rx = [] → cls.toNat ≤ 2 →
      width < 65536 → height < 256 → w.panels[x.panel] = some q → q.state = .offline → q.link = l → q.probeMark = true →
      (cls = x.cls.code ∧ width = x.width ∧ height = x.height →
        let d := (({ s.delivery with works := w.putPanel x.panel { q with
            ack := none, refreshDeadline := none, fullDemand := true, probeDue := none, probeMark := false, state := .ready
            wake := q.wake.insert .content } } : Delivery).notifyAll (.panelOnline x.panel)).checkConfirmations s.content.board
        ∃ w', ReturnsToIdle l d.works w' ∧ Leaves (exec i s) s s.content { d with works := w' }) ∧
      (¬ (cls = x.cls.code ∧ width = x.width ∧ height = x.height) →
        let d := ({ s.delivery with works := w.setPanel x.panel { q with probeMark := false } } : Delivery).notifyAll
          (.panelMismatch x.panel)
        ∃ w', ReturnsToIdle l d.works w' ∧ Leaves (exec i s) s s.content { d with works := w' })) ∧
    (∀ x t (cls : Byte) (width height : Nat), let i := Instr.ident l (cleanRx (withCheck
        ([0xC2, BitVec.ofNat 8 x.drop.val, cls] ++ b2 width ++ b1 height)))
      k.state = .probing → k.line = .released → k.wait = some t → k.probe = some x → k.rx = [] → cls.toNat ≤ 2 →
      width < 65536 → height < 256 →
      (∀ q, w.panels[x.panel] = some q → q.state ≠ .offline ∨ q.link ≠ l ∨ q.probeMark = false) →
      ∃ w', ReturnsToIdle l w w' ∧ LeavesWorks i s w') ∧
    (∀ x, k.state = .probing → k.line = .released → k.probe = some x → k.rx = [] →
      (∀ (y : Drop) (cls : Byte) (width height : Nat), y ≠ x.drop → cls.toNat ≤ 2 → width < 65536 → height < 256 →
        LeavesWorks (.ident l (cleanRx (withCheck ([0xC2, BitVec.ofNat 8 y.val, cls] ++ b2 width ++ b1 height)))) s w) ∧
      ∀ (y : Drop) (number : Byte),
        (∀ d : Digest, LeavesWorks (.ack l (cleanRx (withCheck
          [0xC0, BitVec.ofNat 8 y.val, number, d.setWidth 8, (d >>> 8).setWidth 8]))) s w) ∧
        ∀ reason, reason = 1 ∨ reason = 2 ∨ reason = 3 →
          LeavesWorks (.nak l (cleanRx (withCheck [0xC1, BitVec.ofNat 8 y.val, number, reason]))) s w) ∧
    (∀ t, k.state = .probing → k.line = .released → k.wait = some t →
      ∃ w', ReturnsToIdle l { w with now := max w.now t } w' ∧ LeavesWorks (.probeTimeout l) s w') ∧
    (k.line = .show →
      (k.pendingShow ≠ [] → k.state = .idle ∨ k.state = .reserved → LeavesWorks (.showEnd l) s { w with
        links := w.links.set l { k with sent := showMessage k.pendingShow, pendingShow := [], rx := [] } }) ∧
      (k.state = .reserved → k.pendingShow = [] → LeavesWorks (.showEnd l) s { w with
        links := w.links.set l { k with line := .released, rx := [] } }) ∧
      (k.state = .idle → k.pendingShow = [] →
        (w.dueProbe l = none → LeavesWorks (.showEnd l) s { w with
          links := w.links.set l { k with line := .released, rx := [] } }) ∧
        ∀ x, w.dueProbe l = some x → LeavesWorks (.showEnd l) s { w with
          panels := w.panels.set x.1 (some { x.2 with probeDue := some (w.now + 5000), probeMark := true })
          links := w.links.set l { k with
            state := .probing
            probePointer := x.2.drop
            probe := some ⟨x.1, x.2.drop, x.2.cls, x.2.width, x.2.height⟩
            line := .probe
            sent := withCheck [0x81, BitVec.ofNat 8 x.2.drop.val, BitVec.ofNat 8 k.timeout]
            rx := [] } }))

/-! ## Swap groups -/

/-- An arrival joins the arrived members and a drop-out the dropped ones, out of the arrived; a check of the group follows
each, and the group is complete exactly when every expected member has arrived or dropped out (R175, R176, R177). The
images of the members that arrived by transmission are adopted, each adoption followed by a check of every confirmation in
progress (R62, R90). GROUP_SETUP of an IDLE group (R172); GROUP_ARM takes the online members and raises STAGE on each
(R173); GROUP_DEADLINE shows what arrived, records the missing count and raises CONTENT on each missing member (R178); a
complete group adopts and shows its staged images and returns to IDLE (R177, R90, R169). SHOW is asked of each link for the
drops of the members that arrived by transmission, at a completion and at the deadline alike (R169, R177, R178). A staged
candidate that an expected member has in a lane as the group ends is marked as of an ended swap, that of a panel which
PANEL_REMOVE took out of the members is not (R176, R178). A group above 7 is BAD_VALUE.
MODEL'S CHOICES: the moment max now t of the time base at the deadline t (log 3); the members and the links by rising
number (log 6); the confirmations checked after each adoption, not once in the order of acceptance over all of them (R63,
log 38); the mark of R178 at every end of a group, a completion too (log 36). -/
def Obligations.SwapGroupsArmCompleteAndLapse : Prop :=
  (∀ (p : PortId) (v : Nat) (members : List Nat) (deadline : Nat) (s : State), 7 < v →
    (s.canTake p (.groupSetup p v members deadline) → s.isSupervisor p →
      Refuses p (.groupSetup p v members deadline) .badValue s) ∧
    (s.canTake p (.groupArm p v) → Refuses p (.groupArm p v) .badValue s)) ∧
  (∀ (b : Board) (d : Delivery) (n : PanelId),
    let expected (g : GroupId) (x : Swap) : Prop := (d.groups[g]).swap = some x ∧ n ∈ x.expected ∧ n ∉ x.dropped
    ((∀ g x, ¬ expected g x) → d.dropOut b n = d) ∧
    ∀ g x, expected g x → (∀ h < g, ∀ y, ¬ expected h y) → ∃ dropped : List PanelId,
      (∀ m, m ∈ dropped ↔ m = n ∨ m ∈ x.dropped) ∧ (x.dropped.Pairwise (· < ·) → dropped.Pairwise (· < ·)) ∧
      d.dropOut b n = ({ d with groups := d.groups.set g { d.groups[g] with swap := some { x with
        dropped := dropped, staged := x.staged.filter (fun r => decide (r.panel ≠ n)) } } } : Delivery).checkSwap b g) ∧
  (∀ (b : Board) (d : Delivery) (g : GroupId) (x : Swap), (d.groups[g]).swap = some x →
    (∀ r : StagedRecord, d.arrive b g r = ({ d with groups := d.groups.set g { d.groups[g] with swap := some { x with
      staged := x.staged ++ [r] } } } : Delivery).checkSwap b g) ∧
    ((∃ m ∈ x.expected, m ∉ x.dropped ∧ ∀ r ∈ x.staged, r.panel ≠ m) → d.checkSwap b g = d) ∧
    ((∀ m ∈ x.expected, m ∈ x.dropped ∨ ∃ r ∈ x.staged, r.panel = m) → let e := d.showSwap b x
      d.checkSwap b g = { e with
        groups := e.groups.set g { e.groups[g] with swap := none }
        works := { e.works with
          lanes := outlived (fun m => decide (m ∈ x.expected ∧ m ∈ (d.groups[g]).members)) e.works.lanes } })) ∧
  (∀ (b : Board) (d : Delivery) (x : Swap),
    let arrived := x.expected.filterMap (fun m => x.staged.find? (fun r => decide (r.panel = m)))
    let adopt (d : Delivery) (r : StagedRecord) : Delivery := match d.works.panels[r.panel] with
      | none => d
      | some q => ({ d with works := d.works.putPanel r.panel { q with
          ack := some ⟨r.strips, r.frame, r.generation⟩
          fullDemand := if r.full then false else q.fullDemand
          refreshDeadline := if r.full then (if q.refresh = 0 then none else some (d.works.now + 60000 * q.refresh))
            else q.refreshDeadline } } : Delivery).checkConfirmations b
    let adopted := (arrived.filter (fun r => r.byTransmission)).foldl adopt d
    let e := d.showSwap b x
    e.ports = adopted.ports ∧ e.confirmations = adopted.confirmations ∧ e.groups = d.groups ∧
      e.works.panels = adopted.works.panels ∧ e.works.lanes = adopted.works.lanes ∧
      e.works.rotation = d.works.rotation ∧ e.works.now = d.works.now ∧
      ∀ l : LinkId, ShowAsked (fun y => ∃ r ∈ arrived, r.byTransmission = true ∧ ∃ q, d.works.panels[r.panel] = some q ∧
        q.link = l ∧ q.drop = y) d.works.links[l] e.works.links[l]) ∧
  ∀ (p : PortId) (g : GroupId) (s : State),
    let group := s.delivery.groups[g]
    let w := s.delivery.works
    let b := s.content.board
    (∀ members deadline, let i := Instr.groupSetup p g.val members deadline
      let stored := max 1 (min 100 deadline)
      s.canTake p i → s.isSupervisor p →
      (((∃ v ∈ members, 64 ≤ v) ∨ 16 < members.length) → Refuses p i .badValue s) ∧
      ((∀ v ∈ members, v < 64) → members.length ≤ 16 →
        (group.swap ≠ none → Refuses p i .state s) ∧
        (group.swap = none →
          ((∃ (h : GroupId) (m : PanelId), h ≠ g ∧ m.val ∈ members ∧ m ∈ (s.delivery.groups[h]).members) →
            Refuses p i .inUse s) ∧
          ((∀ (h : GroupId) (m : PanelId), h ≠ g → m.val ∈ members → m ∉ (s.delivery.groups[h]).members) →
            ∃ ps : List PanelId, ps.Pairwise (fun a b => a < b) ∧ (∀ m : PanelId, m ∈ ps ↔ m.val ∈ members) ∧
              Replies p i (okWith (b1 ps.length ++ ps.flatMap (fun m => b1 m.val) ++ b1 stored)) s s.content
                { s.taking p with groups := s.delivery.groups.set g ⟨ps, stored, none⟩ })))) ∧
    (
      let i := Instr.groupArm p g.val
      let expected := group.members.filter (fun m => (w.panels[m]).any Panel.online)
      let armed : Delivery := { s.taking p with groups := s.delivery.groups.set g { group with
        swap := some ⟨.port p, expected, [], [], w.now + 100 * group.setting⟩ } }
      s.canTake p i →
      (group.members = [] → Refuses p i .state s) ∧
      (group.members ≠ [] → group.swap ≠ none → Refuses p i .busy s) ∧
      (group.members ≠ [] → group.swap = none →
        (expected = [] → Replies p i (okWith (b1 0 ++ [0x00])) s s.content (s.taking p)) ∧
        (expected ≠ [] → Replies p i (okWith (b1 expected.length ++ [0x01])) s s.content
          (expected.foldl (Delivery.raise b .stage) armed)))) ∧
    (∀ k : Swap, group.swap = some k → let missing := k.expected.filter (fun m => decide (m ∉ k.staged.map (fun r => r.panel)))
      let d := (s.delivery.reach k.deadline).showSwap b k
      let n : Notice := .swapIncomplete g missing.length
      let noted := match k.source with
        | .port x => d.notify n x
        | .hold => d.notifyAll n
      let raised := missing.foldl (Delivery.raise b .content) noted
      Leaves (exec (.groupDeadline g) s) s s.content
        { raised with
          groups := raised.groups.set g { raised.groups[g] with swap := none }
          works := { raised.works with
            lanes := outlived (fun m => decide (m ∈ k.expected ∧ m ∈ group.members)) raised.works.lanes } }) ∧
    ∀ k : Swap, group.swap = some k → (k.staged.map (fun r => r.panel)).Nodup →
      (∀ m ∈ k.expected, m ∈ k.staged.map (fun r => r.panel) ∨ m ∈ k.dropped) →
      let shown (r : StagedRecord) : Prop := r ∈ k.staged ∧ r.panel ∈ k.expected ∧ r.byTransmission = true
      let e := s.delivery.checkSwap b g
      e.groups = s.delivery.groups.set g { group with swap := none } ∧
      (∀ r q, shown r → w.panels[r.panel] = some q →
        e.works.panels[r.panel] = some { q with
          ack := some ⟨r.strips, r.frame, r.generation⟩
          fullDemand := if r.full then false else q.fullDemand
          refreshDeadline := if r.full then (if q.refresh = 0 then none else some (w.now + 60000 * q.refresh))
            else q.refreshDeadline }) ∧
      (∀ m : PanelId, (∀ r, shown r → r.panel ≠ m) → e.works.panels[m] = w.panels[m]) ∧
      ∀ l : LinkId, ShowAsked (fun x => ∃ r q, shown r ∧ w.panels[r.panel] = some q ∧ q.link = l ∧ q.drop = x) w.links[l]
        e.works.links[l]

/-! ## Type store and tickers -/

/-- FONT_SETUP clears a font and sets its height (R120, R124). GLYPH_LOAD refuses a bad entry whole, and else loads in order
up to the first entry that finds no room: bitmaps stored upward, directory entries taken, width 0 absent, the other glyphs
kept (R121). TOKEN_SET replaces a token that differs (R123). A font or a token above 3 is BAD_VALUE for each. -/
def Obligations.TypeStoreRequests : Prop :=
  (∀ (p : PortId) (v height : Nat) (entries : List GlyphEntry) (text : List Nat) (s : State), 3 < v → s.isSupervisor p →
    ∀ i ∈ [Instr.fontSetup p v height, .glyphLoad p v entries, .tokenSet p v text], s.canTake p i →
      Refuses p i .badValue s) ∧
  ∀ (p : PortId) (f : FontId) (s : State),
    let c := s.content
    let font := c.typeStore.fonts[f]
    let changed (new : Font) : Content := { c with typeStore := { c.typeStore with fonts := c.typeStore.fonts.set f new } }
    let raised := (s.taking p).raiseWhere c.board .content (c.board.draws (c.usesFont f))
    (∀ height, let i := Instr.fontSetup p f.val height
      s.canTake p i → s.isSupervisor p →
      (height = 8 ∨ height = 16 → Replies p i (okWith (b1 height)) s (changed ⟨height, [], []⟩) raised) ∧
      (height ≠ 8 → height ≠ 16 → Refuses p i .badValue s)) ∧
    (∀ entries : List GlyphEntry, let i := Instr.glyphLoad p f.val entries
      let valid (e : GlyphEntry) : Prop := e.glyph ≤ 511 ∧ e.width ≤ 16 ∧ e.bitmap.length = e.width * font.height / 8
      let size (es : List GlyphEntry) : Nat := (es.map (fun e => e.bitmap.length)).sum
      s.canTake p i → s.isSupervisor p →
      ((∃ e ∈ entries, ¬ valid e) → Refuses p i .badValue s) ∧
      ((∀ e ∈ entries, valid e) → font.region.length ≤ 16384 → ∀ loaded skipped, entries = loaded ++ skipped →
        font.region.length + size loaded ≤ 16384 →
        (∀ e es, skipped = e :: es → 16384 < font.region.length + size loaded + e.bitmap.length) →
        ∃ new, Replies p i (okWith (b1 loaded.length ++ b2 (16384 - new.region.length))) s (changed new)
            (if loaded = [] then s.taking p else raised) ∧
          new.height = font.height ∧ new.region = font.region ++ loaded.flatMap (fun e => e.bitmap) ∧
          (∀ g, (∀ e ∈ loaded, e.glyph ≠ g) → new.glyph? g = font.glyph? g) ∧
          ∀ before e after, loaded = before ++ e :: after → (∀ x ∈ after, x.glyph ≠ e.glyph) →
            new.glyph? e.glyph =
              if e.width = 0 then none else some ⟨e.width, font.region.length + size before⟩)) ∧
    ∀ text, let i := Instr.tokenSet p f.val text
      s.canTake p i → s.isSupervisor p →
      ((12 < text.length ∨ ∃ x ∈ text, 511 < x) → Refuses p i .badValue s) ∧
      (text.length ≤ 12 → (∀ x ∈ text, x ≤ 511) →
        (c.typeStore.tokens[f] = text → Replies p i (okWith (b1 text.length ++ text.flatMap b2)) s c (s.taking p)) ∧
        (c.typeStore.tokens[f] ≠ text → Replies p i (okWith (b1 text.length ++ text.flatMap b2)) s
          { c with typeStore := { c.typeStore with tokens := c.typeStore.tokens.set f text } }
          ((s.taking p).raiseWhere c.board .content (c.board.draws (fun pl => pl.content.isDepartures)))))

/-- TICKER_SETUP clamps and starts afresh (R137); TICKER_FEED appends what fits and starts the text with its lead-in (R138);
TICKER_FLUSH empties (R139); SCROLL_STEP moves the offset on, through the lead-in without removing a character, then
removing those scrolled out, and turns DRY when none is left, with TICKER_LOW at the crossing of the low-water value (R140,
R141, R142, R143). A ticker above 7 and a font above 3 are BAD_VALUE. MODEL'S CHOICE (log 3): the moment max now t of the
time base at the deadline t. -/
def Obligations.TickersFollowTheirRules : Prop :=
  (∀ (p : PortId) (v font window period columns low : Nat) (chars : List Nat) (s : State),
    (7 < v ∨ 3 < font → s.canTake p (.tickerSetup p v font window period columns low) → s.isSupervisor p →
      Refuses p (.tickerSetup p v font window period columns low) .badValue s) ∧
    (7 < v → s.canTake p (.tickerFeed p v chars) → Refuses p (.tickerFeed p v chars) .badValue s) ∧
    (7 < v → s.canTake p (.tickerFlush p v) → Refuses p (.tickerFlush p v) .badValue s)) ∧
  ∀ (p : PortId) (t : TickerId) (s : State),
    let c := s.content
    let k := c.tickers[t]
    let changed (new : Ticker) : Content := { c with tickers := c.tickers.set t new }
    let raised (cause : Cause) (d : Delivery) : Delivery :=
      d.raiseWhere c.board cause (c.board.draws (fun pl => decide (pl.content = .ticker t)))
    (∀ (f : FontId) (window period columns low : Nat), let i := Instr.tickerSetup p t.val f.val window period columns low
      let new : Ticker := ⟨.idle, f, max 8 (min 512 window), max 20 (min 200 period), max 1 (min 4 columns),
        if low ≤ 255 then low else k.lowWater, [], 0, 0, k.lastFeeder, none⟩
      s.canTake p i → s.isSupervisor p → Replies p i
        (okWith (b1 f.val ++ b2 new.window ++ b1 new.period ++ b1 new.columns ++ b2 new.lowWater)) s (changed new)
        (raised .content (s.taking p))) ∧
    (∀ chars : List Nat, let i := Instr.tickerFeed p t.val chars
      let accepted := chars.take (256 - k.chars.length)
      let reply := okWith (b1 accepted.length ++ b2 (k.chars.length + accepted.length))
      let fed : Ticker := { k with chars := k.chars ++ accepted, lastFeeder := some p }
      s.canTake p i →
      (chars = [] ∨ 64 < chars.length ∨ (∃ x ∈ chars, 511 < x) → Refuses p i .badValue s) ∧
      (chars ≠ [] → chars.length ≤ 64 → (∀ x ∈ chars, x ≤ 511) →
        (k.state = .undefined → Refuses p i .state s) ∧
        (k.state ≠ .undefined → 256 ≤ k.chars.length → Replies p i reply s c (s.taking p)) ∧
        (k.state = .running → k.chars.length < 256 → Replies p i reply s (changed fed) (raised .scroll (s.taking p))) ∧
        (k.state = .idle ∨ k.state = .dry → k.chars.length < 256 → Replies p i reply s
          (changed { fed with
            state := .running, offset := -(k.window : Int), deadline := some (s.delivery.works.now + k.period) })
          (raised .scroll (s.taking p))))) ∧
    (
      let i := Instr.tickerFlush p t.val
      s.canTake p i →
      (k.state = .undefined → Refuses p i .state s) ∧
      (k.state ≠ .undefined → Replies p i (okWith (b2 k.chars.length)) s
        (changed { k with state := .idle, chars := [], head := 0, offset := 0, deadline := none })
        (if k.state = .running then raised .scroll (s.taking p) else s.taking p))) ∧
    ∀ at_ gone rest, k.deadline = some at_ → k.chars = gone ++ rest →
      let f := c.typeStore.fonts[k.font]
      let sum (gs : List Nat) : Int := ((gs.map (fun g => f.drawnWidth g + 1)).sum : Nat)
      let offset := k.offset + k.columns
      gone = [] ∨ sum gone ≤ offset → (∀ g gs, rest = g :: gs → offset < sum (gone ++ [g])) →
      let head := (k.head + gone.length) % 256
      let new : Ticker := if rest = [] then { k with state := .dry, chars := [], head := head, offset := 0, deadline := none }
        else { k with chars := rest, head := head, offset := offset - sum gone, deadline := some (at_ + k.period) }
      let d := s.delivery.reach at_
      Leaves (exec (.scrollStep t) s) s (changed new) (raised .scroll
        (match k.lastFeeder with
          | none => d
          | some x => if rest.length ≤ k.lowWater ∧ k.lowWater < k.chars.length then d.notify (.tickerLow t) x else d))

/-! ## Board clear -/

/-- BOARD_CLEAR: lists, holds, tickers, swap groups and board in this order, the completions fixed hold by hold and then
confirmation by confirmation, CONTENT on every online panel (R25, R64, R77, R145, R180, R191); the staged candidates
that expected members have in lanes are marked as of an ended swap (R178, which MODEL'S READING takes for every end of a group: log 36). -/
def Obligations.BoardClearEmptiesEveryBlock : Prop :=
  ∀ (p : PortId) (s : State),
    let i := Instr.boardClear p
    let c := s.content
    let waits (h : HoldId) : List (PortId × Completion) := if (c.holds[h]).state = .empty then []
      else ((c.holds[h]).waiters).map (fun x => (x.port, ⟨x.tag, 0x40, .cancelled, []⟩))
    let fixed := (List.finRange 32).flatMap waits ++
      s.delivery.confirmations.map (fun k => (k.port, ⟨k.tag, 0x35, .cancelled, []⟩))
    let cleared (q : Panel) : Panel := { q with
      interest := CauseSet.none
      wake := if q.online then q.wake.insert .content else q.wake
      state := if q.state = .parked then .ready else q.state }
    s.canTake p i → s.isSupervisor p → ∃ d, Replies p i (okWith []) s
      { c with
        lists := Vector.replicate 16 []
        holds := mapTable (fun k => if k.state = .empty then k else { k with state := .empty, waiters := [] }) c.holds
        tickers := mapTable (fun k => if k.state = .undefined then k else
          { k with state := .idle, chars := [], head := 0, offset := 0, deadline := none }) c.tickers
        board := ⟨Vector.replicate 192 none, [], 0, min 4294967295 (c.board.generation + 1)⟩ } d ∧
      d.confirmations = [] ∧ d.groups = mapTable (fun g => { g with swap := none }) s.delivery.groups ∧
      d.ports = (fixed.foldl (fun d x => d.complete x.1 x.2) (s.taking p)).ports ∧
      d.works = { s.delivery.works with
        panels := mapTable (Option.map cleared) s.delivery.works.panels
        lanes := outlived (fun m => (List.finRange 8).any (fun g =>
          (s.delivery.groups[g]).swap.any (fun x => decide (m ∈ x.expected ∧ m ∈ (s.delivery.groups[g]).members))))
          s.delivery.works.lanes }

end
end

