-- ==== Sys2Proof/Laws/State.lean ====
section
/-! SUPPORT. One lemma per field per named update: what each field of the record is after it. -/

namespace Sys2Proof.Machine

/-! ## Content -/

@[simp] theorem Content.setList_lists (l : ListId) (es : List Entry) (c : Content) :
    (c.setList l es).lists = c.lists.set l es := rfl

@[simp] theorem Content.setList_destinations (l : ListId) (es : List Entry) (c : Content) :
    (c.setList l es).destinations = c.destinations := rfl

@[simp] theorem Content.setList_settings (l : ListId) (es : List Entry) (c : Content) :
    (c.setList l es).settings = c.settings := rfl

@[simp] theorem Content.setList_clock (l : ListId) (es : List Entry) (c : Content) :
    (c.setList l es).clock = c.clock := rfl

@[simp] theorem Content.setList_board (l : ListId) (es : List Entry) (c : Content) :
    (c.setList l es).board = c.board := rfl

@[simp] theorem Content.setList_holds (l : ListId) (es : List Entry) (c : Content) :
    (c.setList l es).holds = c.holds := rfl

@[simp] theorem Content.setList_typeStore (l : ListId) (es : List Entry) (c : Content) :
    (c.setList l es).typeStore = c.typeStore := rfl

@[simp] theorem Content.setList_tickers (l : ListId) (es : List Entry) (c : Content) :
    (c.setList l es).tickers = c.tickers := rfl

@[simp] theorem Content.setPlacard_lists (n : PlacardId) (pl : Option Placard) (c : Content) :
    (c.setPlacard n pl).lists = c.lists := rfl

@[simp] theorem Content.setPlacard_destinations (n : PlacardId) (pl : Option Placard) (c : Content) :
    (c.setPlacard n pl).destinations = c.destinations := rfl

@[simp] theorem Content.setPlacard_settings (n : PlacardId) (pl : Option Placard) (c : Content) :
    (c.setPlacard n pl).settings = c.settings := rfl

@[simp] theorem Content.setPlacard_clock (n : PlacardId) (pl : Option Placard) (c : Content) :
    (c.setPlacard n pl).clock = c.clock := rfl

@[simp] theorem Content.setPlacard_board (n : PlacardId) (pl : Option Placard) (c : Content) :
    (c.setPlacard n pl).board = { c.board with placards := c.board.placards.set n pl } := rfl

@[simp] theorem Content.setPlacard_holds (n : PlacardId) (pl : Option Placard) (c : Content) :
    (c.setPlacard n pl).holds = c.holds := rfl

@[simp] theorem Content.setPlacard_typeStore (n : PlacardId) (pl : Option Placard) (c : Content) :
    (c.setPlacard n pl).typeStore = c.typeStore := rfl

@[simp] theorem Content.setPlacard_tickers (n : PlacardId) (pl : Option Placard) (c : Content) :
    (c.setPlacard n pl).tickers = c.tickers := rfl

@[simp] theorem Content.setHold_lists (h : HoldId) (k : Hold) (c : Content) :
    (c.setHold h k).lists = c.lists := rfl

@[simp] theorem Content.setHold_destinations (h : HoldId) (k : Hold) (c : Content) :
    (c.setHold h k).destinations = c.destinations := rfl

@[simp] theorem Content.setHold_settings (h : HoldId) (k : Hold) (c : Content) :
    (c.setHold h k).settings = c.settings := rfl

@[simp] theorem Content.setHold_clock (h : HoldId) (k : Hold) (c : Content) :
    (c.setHold h k).clock = c.clock := rfl

@[simp] theorem Content.setHold_board (h : HoldId) (k : Hold) (c : Content) :
    (c.setHold h k).board = c.board := rfl

@[simp] theorem Content.setHold_holds (h : HoldId) (k : Hold) (c : Content) :
    (c.setHold h k).holds = c.holds.set h k := rfl

@[simp] theorem Content.setHold_typeStore (h : HoldId) (k : Hold) (c : Content) :
    (c.setHold h k).typeStore = c.typeStore := rfl

@[simp] theorem Content.setHold_tickers (h : HoldId) (k : Hold) (c : Content) :
    (c.setHold h k).tickers = c.tickers := rfl

@[simp] theorem Content.setFont_lists (f : FontId) (x : Font) (c : Content) :
    (c.setFont f x).lists = c.lists := rfl

@[simp] theorem Content.setFont_destinations (f : FontId) (x : Font) (c : Content) :
    (c.setFont f x).destinations = c.destinations := rfl

@[simp] theorem Content.setFont_settings (f : FontId) (x : Font) (c : Content) :
    (c.setFont f x).settings = c.settings := rfl

@[simp] theorem Content.setFont_clock (f : FontId) (x : Font) (c : Content) :
    (c.setFont f x).clock = c.clock := rfl

@[simp] theorem Content.setFont_board (f : FontId) (x : Font) (c : Content) :
    (c.setFont f x).board = c.board := rfl

@[simp] theorem Content.setFont_holds (f : FontId) (x : Font) (c : Content) :
    (c.setFont f x).holds = c.holds := rfl

@[simp] theorem Content.setFont_typeStore (f : FontId) (x : Font) (c : Content) :
    (c.setFont f x).typeStore = { c.typeStore with fonts := c.typeStore.fonts.set f x } := rfl

@[simp] theorem Content.setFont_tickers (f : FontId) (x : Font) (c : Content) :
    (c.setFont f x).tickers = c.tickers := rfl

@[simp] theorem Content.setTicker_lists (t : TickerId) (k : Ticker) (c : Content) :
    (c.setTicker t k).lists = c.lists := rfl

@[simp] theorem Content.setTicker_destinations (t : TickerId) (k : Ticker) (c : Content) :
    (c.setTicker t k).destinations = c.destinations := rfl

@[simp] theorem Content.setTicker_settings (t : TickerId) (k : Ticker) (c : Content) :
    (c.setTicker t k).settings = c.settings := rfl

@[simp] theorem Content.setTicker_clock (t : TickerId) (k : Ticker) (c : Content) :
    (c.setTicker t k).clock = c.clock := rfl

@[simp] theorem Content.setTicker_board (t : TickerId) (k : Ticker) (c : Content) :
    (c.setTicker t k).board = c.board := rfl

@[simp] theorem Content.setTicker_holds (t : TickerId) (k : Ticker) (c : Content) :
    (c.setTicker t k).holds = c.holds := rfl

@[simp] theorem Content.setTicker_typeStore (t : TickerId) (k : Ticker) (c : Content) :
    (c.setTicker t k).typeStore = c.typeStore := rfl

@[simp] theorem Content.setTicker_tickers (t : TickerId) (k : Ticker) (c : Content) :
    (c.setTicker t k).tickers = c.tickers.set t k := rfl

@[simp] theorem Content.emptyLists_lists (c : Content) :
    (c.emptyLists).lists = Vector.replicate 16 [] := rfl

@[simp] theorem Content.emptyLists_destinations (c : Content) :
    (c.emptyLists).destinations = c.destinations := rfl

@[simp] theorem Content.emptyLists_settings (c : Content) :
    (c.emptyLists).settings = c.settings := rfl

@[simp] theorem Content.emptyLists_clock (c : Content) :
    (c.emptyLists).clock = c.clock := rfl

@[simp] theorem Content.emptyLists_board (c : Content) :
    (c.emptyLists).board = c.board := rfl

@[simp] theorem Content.emptyLists_holds (c : Content) :
    (c.emptyLists).holds = c.holds := rfl

@[simp] theorem Content.emptyLists_typeStore (c : Content) :
    (c.emptyLists).typeStore = c.typeStore := rfl

@[simp] theorem Content.emptyLists_tickers (c : Content) :
    (c.emptyLists).tickers = c.tickers := rfl

@[simp] theorem Content.restamp_lists (now : Nat) (c : Content) :
    (c.restamp now).lists = mapTable (List.map (Entry.restamp now)) c.lists := rfl

@[simp] theorem Content.restamp_destinations (now : Nat) (c : Content) :
    (c.restamp now).destinations = c.destinations := rfl

@[simp] theorem Content.restamp_settings (now : Nat) (c : Content) :
    (c.restamp now).settings = c.settings := rfl

@[simp] theorem Content.restamp_clock (now : Nat) (c : Content) :
    (c.restamp now).clock = c.clock := rfl

@[simp] theorem Content.restamp_board (now : Nat) (c : Content) :
    (c.restamp now).board = c.board := rfl

@[simp] theorem Content.restamp_holds (now : Nat) (c : Content) :
    (c.restamp now).holds = c.holds := rfl

@[simp] theorem Content.restamp_typeStore (now : Nat) (c : Content) :
    (c.restamp now).typeStore = c.typeStore := rfl

@[simp] theorem Content.restamp_tickers (now : Nat) (c : Content) :
    (c.restamp now).tickers = c.tickers := rfl

/-! ## Delivery -/

@[simp] theorem Delivery.mapPort_works (p : PortId) (f : Port → Port) (d : Delivery) :
    (d.mapPort p f).works = d.works := rfl

@[simp] theorem Delivery.mapPort_groups (p : PortId) (f : Port → Port) (d : Delivery) :
    (d.mapPort p f).groups = d.groups := rfl

@[simp] theorem Delivery.mapPort_confirmations (p : PortId) (f : Port → Port) (d : Delivery) :
    (d.mapPort p f).confirmations = d.confirmations := rfl

@[simp] theorem Delivery.mapPort_ports (p : PortId) (f : Port → Port) (d : Delivery) :
    (d.mapPort p f).ports = modifyAt p f d.ports := rfl

@[simp] theorem Delivery.mapGroup_works (g : GroupId) (f : Group → Group) (d : Delivery) :
    (d.mapGroup g f).works = d.works := rfl

@[simp] theorem Delivery.mapGroup_groups (g : GroupId) (f : Group → Group) (d : Delivery) :
    (d.mapGroup g f).groups = modifyAt g f d.groups := rfl

@[simp] theorem Delivery.mapGroup_confirmations (g : GroupId) (f : Group → Group) (d : Delivery) :
    (d.mapGroup g f).confirmations = d.confirmations := rfl

@[simp] theorem Delivery.mapGroup_ports (g : GroupId) (f : Group → Group) (d : Delivery) :
    (d.mapGroup g f).ports = d.ports := rfl

@[simp] theorem Delivery.mapWorks_works (f : Works → Works) (d : Delivery) :
    (d.mapWorks f).works = f d.works := rfl

@[simp] theorem Delivery.mapWorks_groups (f : Works → Works) (d : Delivery) :
    (d.mapWorks f).groups = d.groups := rfl

@[simp] theorem Delivery.mapWorks_confirmations (f : Works → Works) (d : Delivery) :
    (d.mapWorks f).confirmations = d.confirmations := rfl

@[simp] theorem Delivery.mapWorks_ports (f : Works → Works) (d : Delivery) :
    (d.mapWorks f).ports = d.ports := rfl

@[simp] theorem Delivery.reach_works (t : Nat) (d : Delivery) :
    (d.reach t).works = { d.works with now := max d.works.now t } := rfl

@[simp] theorem Delivery.reach_groups (t : Nat) (d : Delivery) :
    (d.reach t).groups = d.groups := rfl

@[simp] theorem Delivery.reach_confirmations (t : Nat) (d : Delivery) :
    (d.reach t).confirmations = d.confirmations := rfl

@[simp] theorem Delivery.reach_ports (t : Nat) (d : Delivery) :
    (d.reach t).ports = d.ports := rfl

@[simp] theorem Delivery.notify_works (n : Notice) (p : PortId) (d : Delivery) :
    (d.notify n p).works = d.works := rfl

@[simp] theorem Delivery.notify_groups (n : Notice) (p : PortId) (d : Delivery) :
    (d.notify n p).groups = d.groups := rfl

@[simp] theorem Delivery.notify_confirmations (n : Notice) (p : PortId) (d : Delivery) :
    (d.notify n p).confirmations = d.confirmations := rfl

@[simp] theorem Delivery.notify_ports (n : Notice) (p : PortId) (d : Delivery) :
    (d.notify n p).ports = modifyAt p (Port.record n) d.ports := rfl

@[simp] theorem Delivery.notifyAll_works (n : Notice) (d : Delivery) :
    (d.notifyAll n).works = d.works := rfl

@[simp] theorem Delivery.notifyAll_groups (n : Notice) (d : Delivery) :
    (d.notifyAll n).groups = d.groups := rfl

@[simp] theorem Delivery.notifyAll_confirmations (n : Notice) (d : Delivery) :
    (d.notifyAll n).confirmations = d.confirmations := rfl

@[simp] theorem Delivery.notifyAll_ports (n : Notice) (d : Delivery) :
    (d.notifyAll n).ports = mapTable (Port.record n) d.ports := rfl

@[simp] theorem Delivery.complete_works (p : PortId) (x : Completion) (d : Delivery) :
    (d.complete p x).works = d.works := rfl

@[simp] theorem Delivery.complete_groups (p : PortId) (x : Completion) (d : Delivery) :
    (d.complete p x).groups = d.groups := rfl

@[simp] theorem Delivery.complete_confirmations (p : PortId) (x : Completion) (d : Delivery) :
    (d.complete p x).confirmations = d.confirmations := rfl

@[simp] theorem Delivery.complete_ports (p : PortId) (x : Completion) (d : Delivery) :
    (d.complete p x).ports = modifyAt p (Port.offer x) d.ports := rfl

@[simp] theorem Delivery.endSwap_works (g : GroupId) (s : Swap) (d : Delivery) :
    (d.endSwap g s).works = d.works.outlive (s.membersLeft d.groups[g].members) := rfl

@[simp] theorem Delivery.endSwap_groups (g : GroupId) (s : Swap) (d : Delivery) :
    (d.endSwap g s).groups = modifyAt g (fun r => { r with swap := none }) d.groups := rfl

@[simp] theorem Delivery.endSwap_confirmations (g : GroupId) (s : Swap) (d : Delivery) :
    (d.endSwap g s).confirmations = d.confirmations := rfl

@[simp] theorem Delivery.endSwap_ports (g : GroupId) (s : Swap) (d : Delivery) :
    (d.endSwap g s).ports = d.ports := rfl

@[simp] theorem Delivery.endConfirmation_works (k : Confirmation) (x : Completion) (d : Delivery) :
    (d.endConfirmation k x).works = d.works := rfl

@[simp] theorem Delivery.endConfirmation_groups (k : Confirmation) (x : Completion) (d : Delivery) :
    (d.endConfirmation k x).groups = d.groups := rfl

@[simp] theorem Delivery.endConfirmation_confirmations (k : Confirmation) (x : Completion) (d : Delivery) :
    (d.endConfirmation k x).confirmations = d.confirmations.filter (fun j => decide (j ≠ k)) := rfl

@[simp] theorem Delivery.endConfirmation_ports (k : Confirmation) (x : Completion) (d : Delivery) :
    (d.endConfirmation k x).ports = modifyAt k.port (Port.offer x) d.ports := rfl

/-! ## Works -/

@[simp] theorem Works.setPanel_panels (p : PanelId) (q : Panel) (w : Works) :
    (w.setPanel p q).panels = w.panels.set p (some q) := rfl

@[simp] theorem Works.setPanel_lanes (p : PanelId) (q : Panel) (w : Works) :
    (w.setPanel p q).lanes = w.lanes := rfl

@[simp] theorem Works.setPanel_rotation (p : PanelId) (q : Panel) (w : Works) :
    (w.setPanel p q).rotation = w.rotation := rfl

@[simp] theorem Works.setPanel_links (p : PanelId) (q : Panel) (w : Works) :
    (w.setPanel p q).links = w.links := rfl

@[simp] theorem Works.setPanel_now (p : PanelId) (q : Panel) (w : Works) :
    (w.setPanel p q).now = w.now := rfl

@[simp] theorem Works.putPanel_panels (p : PanelId) (q : Panel) (w : Works) :
    (w.putPanel p q).panels = w.panels.set p (some q) := rfl

@[simp] theorem Works.putPanel_lanes (p : PanelId) (q : Panel) (w : Works) :
    (w.putPanel p q).lanes = mapTable (Lane.syncContext p q) w.lanes := rfl

@[simp] theorem Works.putPanel_rotation (p : PanelId) (q : Panel) (w : Works) :
    (w.putPanel p q).rotation = w.rotation := rfl

@[simp] theorem Works.putPanel_links (p : PanelId) (q : Panel) (w : Works) :
    (w.putPanel p q).links = w.links := rfl

@[simp] theorem Works.putPanel_now (p : PanelId) (q : Panel) (w : Works) :
    (w.putPanel p q).now = w.now := rfl

@[simp] theorem Works.clearPanel_panels (p : PanelId) (w : Works) :
    (w.clearPanel p).panels = w.panels.set p none := rfl

@[simp] theorem Works.clearPanel_lanes (p : PanelId) (w : Works) :
    (w.clearPanel p).lanes = w.lanes := rfl

@[simp] theorem Works.clearPanel_rotation (p : PanelId) (w : Works) :
    (w.clearPanel p).rotation = w.rotation := rfl

@[simp] theorem Works.clearPanel_links (p : PanelId) (w : Works) :
    (w.clearPanel p).links = w.links := rfl

@[simp] theorem Works.clearPanel_now (p : PanelId) (w : Works) :
    (w.clearPanel p).now = w.now := rfl

@[simp] theorem Works.setLink_panels (l : LinkId) (k : Link) (w : Works) :
    (w.setLink l k).panels = w.panels := rfl

@[simp] theorem Works.setLink_lanes (l : LinkId) (k : Link) (w : Works) :
    (w.setLink l k).lanes = w.lanes := rfl

@[simp] theorem Works.setLink_rotation (l : LinkId) (k : Link) (w : Works) :
    (w.setLink l k).rotation = w.rotation := rfl

@[simp] theorem Works.setLink_links (l : LinkId) (k : Link) (w : Works) :
    (w.setLink l k).links = w.links.set l k := rfl

@[simp] theorem Works.setLink_now (l : LinkId) (k : Link) (w : Works) :
    (w.setLink l k).now = w.now := rfl

@[simp] theorem Works.mapLane_panels (n : LaneId) (f : Lane → Lane) (w : Works) :
    (w.mapLane n f).panels = w.panels := rfl

@[simp] theorem Works.mapLane_lanes (n : LaneId) (f : Lane → Lane) (w : Works) :
    (w.mapLane n f).lanes = modifyAt n f w.lanes := rfl

@[simp] theorem Works.mapLane_rotation (n : LaneId) (f : Lane → Lane) (w : Works) :
    (w.mapLane n f).rotation = w.rotation := rfl

@[simp] theorem Works.mapLane_links (n : LaneId) (f : Lane → Lane) (w : Works) :
    (w.mapLane n f).links = w.links := rfl

@[simp] theorem Works.mapLane_now (n : LaneId) (f : Lane → Lane) (w : Works) :
    (w.mapLane n f).now = w.now := rfl

@[simp] theorem Works.setPasses_panels (p : PanelId) (v : Nat) (w : Works) :
    (w.setPasses p v).panels = w.panels := rfl

@[simp] theorem Works.setPasses_lanes (p : PanelId) (v : Nat) (w : Works) :
    (w.setPasses p v).lanes = w.lanes := rfl

@[simp] theorem Works.setPasses_rotation (p : PanelId) (v : Nat) (w : Works) :
    (w.setPasses p v).rotation = { w.rotation with passes := w.rotation.passes.set p v } := rfl

@[simp] theorem Works.setPasses_links (p : PanelId) (v : Nat) (w : Works) :
    (w.setPasses p v).links = w.links := rfl

@[simp] theorem Works.setPasses_now (p : PanelId) (v : Nat) (w : Works) :
    (w.setPasses p v).now = w.now := rfl

@[simp] theorem Works.dropResident_panels (p : PanelId) (w : Works) :
    (w.dropResident p).panels = w.panels := rfl

@[simp] theorem Works.dropResident_lanes (p : PanelId) (w : Works) :
    (w.dropResident p).lanes = mapTable (fun n => if n.residentFor p then Lane.free else n) w.lanes := rfl

@[simp] theorem Works.dropResident_rotation (p : PanelId) (w : Works) :
    (w.dropResident p).rotation = w.rotation := rfl

@[simp] theorem Works.dropResident_links (p : PanelId) (w : Works) :
    (w.dropResident p).links = w.links := rfl

@[simp] theorem Works.dropResident_now (p : PanelId) (w : Works) :
    (w.dropResident p).now = w.now := rfl

@[simp] theorem Works.endClaim_panels (w : Works) :
    (w.endClaim).panels = w.panels := rfl

@[simp] theorem Works.endClaim_lanes (w : Works) :
    (w.endClaim).lanes = mapTable (fun n => if n.state = .claimed then Lane.free else n) w.lanes := rfl

@[simp] theorem Works.endClaim_rotation (w : Works) :
    (w.endClaim).rotation = { w.rotation with claim := none } := rfl

@[simp] theorem Works.endClaim_links (w : Works) :
    (w.endClaim).links = w.links := rfl

@[simp] theorem Works.endClaim_now (w : Works) :
    (w.endClaim).now = w.now := rfl

@[simp] theorem Works.recomputeInterest_panels (b : Board) (test : Panel → Bool) (w : Works) :
    (w.recomputeInterest b test).panels = mapTable (Option.map (fun q => if test q then q.refreshInterest b else q)) w.panels := rfl

@[simp] theorem Works.recomputeInterest_lanes (b : Board) (test : Panel → Bool) (w : Works) :
    (w.recomputeInterest b test).lanes = w.lanes := rfl

@[simp] theorem Works.recomputeInterest_rotation (b : Board) (test : Panel → Bool) (w : Works) :
    (w.recomputeInterest b test).rotation = w.rotation := rfl

@[simp] theorem Works.recomputeInterest_links (b : Board) (test : Panel → Bool) (w : Works) :
    (w.recomputeInterest b test).links = w.links := rfl

@[simp] theorem Works.recomputeInterest_now (b : Board) (test : Panel → Bool) (w : Works) :
    (w.recomputeInterest b test).now = w.now := rfl

@[simp] theorem Works.outlive_panels (ps : List PanelId) (w : Works) :
    (w.outlive ps).panels = w.panels := rfl

@[simp] theorem Works.outlive_lanes (ps : List PanelId) (w : Works) :
    (w.outlive ps).lanes = mapTable (Lane.outlive ps) w.lanes := rfl

@[simp] theorem Works.outlive_rotation (ps : List PanelId) (w : Works) :
    (w.outlive ps).rotation = w.rotation := rfl

@[simp] theorem Works.outlive_links (ps : List PanelId) (w : Works) :
    (w.outlive ps).links = w.links := rfl

@[simp] theorem Works.outlive_now (ps : List PanelId) (w : Works) :
    (w.outlive ps).now = w.now := rfl

@[simp] theorem Works.setRx_panels (l : LinkId) (rx : List Byte) (w : Works) :
    (w.setRx l rx).panels = w.panels := rfl

@[simp] theorem Works.setRx_lanes (l : LinkId) (rx : List Byte) (w : Works) :
    (w.setRx l rx).lanes = w.lanes := rfl

@[simp] theorem Works.setRx_rotation (l : LinkId) (rx : List Byte) (w : Works) :
    (w.setRx l rx).rotation = w.rotation := rfl

@[simp] theorem Works.setRx_links (l : LinkId) (rx : List Byte) (w : Works) :
    (w.setRx l rx).links = w.links.set l { w.links[l] with rx := rx } := rfl

@[simp] theorem Works.setRx_now (l : LinkId) (rx : List Byte) (w : Works) :
    (w.setRx l rx).now = w.now := rfl

@[simp] theorem Works.moveClaimPointer_panels (p : PanelId) (level : Nat) (w : Works) :
    (w.moveClaimPointer p level).panels = w.panels := by
  unfold Works.moveClaimPointer; split <;> rfl

@[simp] theorem Works.moveClaimPointer_lanes (p : PanelId) (level : Nat) (w : Works) :
    (w.moveClaimPointer p level).lanes = w.lanes := by
  unfold Works.moveClaimPointer; split <;> rfl

@[simp] theorem Works.moveClaimPointer_links (p : PanelId) (level : Nat) (w : Works) :
    (w.moveClaimPointer p level).links = w.links := by
  unfold Works.moveClaimPointer; split <;> rfl

@[simp] theorem Works.moveClaimPointer_now (p : PanelId) (level : Nat) (w : Works) :
    (w.moveClaimPointer p level).now = w.now := by
  unfold Works.moveClaimPointer; split <;> rfl

/-! ## Lanes -/

@[simp] theorem FrameBuild.outlive_stagedCandidate (f : FrameBuild) : f.outlive.stagedCandidate = f.stagedCandidate := rfl

@[simp] theorem FrameBuild.outlive_swapEnded (f : FrameBuild) :
    f.outlive.swapEnded = (f.swapEnded || f.stagedCandidate) := rfl

@[simp] theorem Lane.outlive_state (ps : List PanelId) (n : Lane) : (n.outlive ps).state = n.state := by
  unfold Lane.outlive; split <;> rfl

@[simp] theorem Lane.outlive_panel (ps : List PanelId) (n : Lane) : (n.outlive ps).panel = n.panel := by
  unfold Lane.outlive; split <;> rfl

@[simp] theorem Lane.outlive_partner (ps : List PanelId) (n : Lane) : (n.outlive ps).partner = n.partner := by
  unfold Lane.outlive; split <;> rfl

@[simp] theorem Lane.outlive_context (ps : List PanelId) (n : Lane) : (n.outlive ps).context = n.context := by
  unfold Lane.outlive; split <;> rfl

@[simp] theorem Lane.outlive_work (ps : List PanelId) (n : Lane) : (n.outlive ps).work = n.work := by
  unfold Lane.outlive; split <;> rfl

@[simp] theorem Lane.fill_state (columns : List (List Nat)) (k : Lane) : (k.fill columns).state = k.state := rfl

@[simp] theorem Lane.fill_panel (columns : List (List Nat)) (k : Lane) : (k.fill columns).panel = k.panel := rfl

@[simp] theorem Lane.fill_partner (columns : List (List Nat)) (k : Lane) : (k.fill columns).partner = k.partner := rfl

@[simp] theorem Lane.fill_context (columns : List (List Nat)) (k : Lane) : (k.fill columns).context = k.context := rfl

@[simp] theorem Lane.fill_work (columns : List (List Nat)) (k : Lane) : (k.fill columns).work = k.work := rfl

@[simp] theorem Lane.fill_nextStrip (columns : List (List Nat)) (k : Lane) : (k.fill columns).nextStrip = k.nextStrip := rfl

@[simp] theorem Lane.fill_frame (columns : List (List Nat)) (k : Lane) : (k.fill columns).frame = k.frame := rfl

@[simp] theorem Lane.fill_buffer (columns : List (List Nat)) (k : Lane) : (k.fill columns).buffer = columns := rfl

@[simp] theorem Lane.fill_composed (columns : List (List Nat)) (k : Lane) : (k.fill columns).composed = true := rfl

@[simp] theorem Lane.fill_unwritten (columns : List (List Nat)) (k : Lane) : (k.fill columns).unwritten = k.unwritten := rfl

end Sys2Proof.Machine
end

