-- ==== Sys2Proof/Laws/Ops.lean ====
section
/-! SUPPORT. What the shared operations can do, said once: tables, raised causes, swap groups, completions, draw order,
interest, replies, selections, requests, the order of entries. -/

namespace Sys2Proof.Machine

/-! ## Tables -/

theorem mapTable_get {α : Type} {n : Nat} (f : α → α) (v : Vector α n) (i : Nat) (h : i < n) :
    (mapTable f v)[i] = f v[i] := by
  simp [mapTable]

@[simp] theorem mapTable_getFin {α : Type} {n : Nat} (f : α → α) (v : Vector α n) (i : Fin n) :
    (mapTable f v)[i] = f v[i] := mapTable_get f v i.val i.isLt

theorem set_getFin {α : Type} {n : Nat} (v : Vector α n) (i j : Fin n) (x : α) :
    (v.set i x)[j] = if i = j then x else v[j] := by
  simp only [Fin.getElem_fin, Vector.getElem_set, Fin.ext_iff]

@[simp] theorem set_getFin_self {α : Type} {n : Nat} (v : Vector α n) (i : Fin n) (x : α) : (v.set i x)[i] = x := by
  rw [set_getFin, if_pos rfl]

theorem set_getFin_ne {α : Type} {n : Nat} (v : Vector α n) {i j : Fin n} (x : α) (h : i ≠ j) : (v.set i x)[j] = v[j] := by
  rw [set_getFin, if_neg h]

theorem modifyAt_getFin {α : Type} {n : Nat} (i j : Fin n) (f : α → α) (v : Vector α n) :
    (modifyAt i f v)[j] = if i = j then f v[i] else v[j] := set_getFin v i j _

@[simp] theorem modifyAt_getFin_self {α : Type} {n : Nat} (i : Fin n) (f : α → α) (v : Vector α n) :
    (modifyAt i f v)[i] = f v[i] := set_getFin_self v i _

theorem modifyAt_getFin_ne {α : Type} {n : Nat} {i j : Fin n} (f : α → α) (v : Vector α n) (h : i ≠ j) :
    (modifyAt i f v)[j] = v[j] := set_getFin_ne v _ h

/-- A record written back where it stands changes nothing. -/
theorem set_self {α : Type} {n : Nat} (v : Vector α n) (i : Fin n) : v.set i v[i] = v := Vector.set_getElem_self _

theorem index?_of_lt {n v : Nat} (h : v < n) : index? n v = some ⟨v, h⟩ := dif_pos h

theorem index?_of_le {n v : Nat} (h : n ≤ v) : index? n v = none := dif_neg (Nat.not_lt.mpr h)

@[simp] theorem index?_val {n : Nat} (i : Fin n) : index? n i.val = some i := index?_of_lt i.isLt

/-! ## A property kept along a fold -/

theorem foldl_keeps {α β : Type} (P : β → Prop) (f : β → α → β) (step : ∀ b a, P b → P (f b a)) :
    ∀ (l : List α) (b : β), P b → P (l.foldl f b)
  | [], _, h => h
  | a :: l, b, h => foldl_keeps P f step l (f b a) (step b a h)

/-! ## Raised causes (R85) -/

/-- A raised cause other than URGENT changes one panel record at most. -/
theorem raise_plain (b : Board) (cause : Cause) (d : Delivery) (p : PanelId) (h : cause ≠ .urgent) :
    d.raise b cause p = match d.works.panels[p] with
      | none => d
      | some q => d.mapWorks (Works.setPanel p (q.gain cause)) := by
  cases hp : d.works.panels[p] <;> simp only [Delivery.raise, hp, h, if_false]

/-- The delivery side but for the panel table. -/
def sameButPanels (d e : Delivery) : Prop :=
  e.groups = d.groups ∧ e.confirmations = d.confirmations ∧ e.ports = d.ports ∧ e.works.lanes = d.works.lanes ∧
    e.works.rotation = d.works.rotation ∧ e.works.links = d.works.links ∧ e.works.now = d.works.now

theorem sameButPanels_refl (d : Delivery) : sameButPanels d d := ⟨rfl, rfl, rfl, rfl, rfl, rfl, rfl⟩

theorem sameButPanels_trans {d e f : Delivery} (h : sameButPanels d e) (k : sameButPanels e f) : sameButPanels d f := by
  obtain ⟨h1, h2, h3, h4, h5, h6, h7⟩ := h
  obtain ⟨k1, k2, k3, k4, k5, k6, k7⟩ := k
  exact ⟨k1.trans h1, k2.trans h2, k3.trans h3, k4.trans h4, k5.trans h5, k6.trans h6, k7.trans h7⟩

theorem raise_frame (b : Board) (cause : Cause) (d : Delivery) (p : PanelId) (h : cause ≠ .urgent) :
    sameButPanels d (d.raise b cause p) := by
  rw [raise_plain b cause d p h]
  split
  · exact sameButPanels_refl d
  · exact ⟨rfl, rfl, rfl, rfl, rfl, rfl, rfl⟩

theorem raiseWhere_frame (b : Board) (cause : Cause) (test : Panel → Bool) (d : Delivery) (h : cause ≠ .urgent) :
    sameButPanels d (d.raiseWhere b cause test) :=
  foldl_keeps (sameButPanels d) _ (fun _ a k => sameButPanels_trans k (raise_frame b cause _ a h)) _ _
    (sameButPanels_refl d)

theorem insert_has (x : CauseSet) (c y : Cause) : (x.insert c).has y = true ↔ x.has y = true ∨ y = c := by
  cases c <;> cases y <;> simp [CauseSet.insert, CauseSet.has]

theorem setPanel_self (w : Works) (m : PanelId) (q : Panel) (h : w.panels[m] = some q) : w.setPanel m q = w := by
  have : w.panels.set m (some q) = w.panels := by rw [← h]; exact set_self _ _
  cases w; simp_all [Works.setPanel]

/-- A cause of an interest that the panel's interest does not name is dropped (R85). -/
theorem raise_filtered (b : Board) (cause : Cause) (d : Delivery) (m : PanelId) (q : Panel) (h : d.works.panels[m] = some q)
    (hc : cause.filtered = true) (hi : q.interest.has cause = false) : d.raise b cause m = d := by
  have hu : cause ≠ .urgent := by
    rintro rfl
    exact absurd hc (by decide)
  have hg : q.gain cause = q := by simp [Panel.gain, hc, hi]
  simp only [Delivery.raise, h, if_neg hu, hg, Delivery.mapWorks, setPanel_self _ _ _ h]

/-- Any other joins the wake set, in every state, and a PARKED panel turns READY (R85). -/
theorem gain_passes (cause : Cause) (q : Panel) (h : cause.filtered = false ∨ q.interest.has cause = true) :
    q.gain cause =
      { q with wake := q.wake.insert cause, state := if q.state = .parked then .ready else q.state } := by
  unfold Panel.gain
  rw [if_neg]
  rcases h with h | h <;> simp [h]

/-- The panels that a raise by a test reaches, by rising number. -/
theorem panelList_map_filter (w : Works) (test : Panel → Bool) :
    (w.panelList.filter (fun x => test x.2)).map (fun x => x.1) =
      (List.finRange 64).filter (fun m => (w.panels[m]).any test) := by
  have hz : (List.finRange 64).zip w.panels.toList = (List.finRange 64).map (fun m => (m, w.panels[m])) := by
    apply List.ext_getElem
    · simp
    · intro i h1 h2; simp
  unfold Works.panelList
  rw [hz, List.filterMap_map]
  generalize List.finRange 64 = l
  induction l with
  | nil => rfl
  | cons a l ih =>
    rw [List.filterMap_cons, List.filter_cons]
    simp only [Function.comp] at ih ⊢
    cases h : w.panels[a] with
    | none => simpa only [Option.map_none, Option.any_none, Bool.false_eq_true, if_false] using ih
    | some q =>
      simp only [Option.map_some, Option.any_some, List.filter_cons]
      by_cases ht : test q = true
      · rw [if_pos ht, if_pos ht, List.map_cons, ih]
      · rw [if_neg ht, if_neg ht, ih]

/-! ## Drop-outs, arrivals and completion of a swap (R175 to R177) -/

theorem mayDrop_iff (d : Delivery) (g : GroupId) (n : PanelId) : (d.groups[g]).mayDrop n = true ↔
    ∃ x, (d.groups[g]).swap = some x ∧ n ∈ x.expected ∧ n ∉ x.dropped := by
  unfold Group.mayDrop
  cases (d.groups[g]).swap <;> simp

/-- The lowest number that passes a test. -/
theorem find_finRange {n : Nat} (test : Fin n → Bool) (g : Fin n) (h : test g = true) (k : ∀ j < g, test j = false) :
    (List.finRange n).find? test = some g := by
  rw [List.find?_eq_some_iff_append]
  refine ⟨h, ?_⟩
  obtain ⟨as, bs, e⟩ := List.append_of_mem (List.mem_finRange g)
  refine ⟨as, bs, e, ?_⟩
  intro a ha
  have hp := List.pairwise_lt_finRange n
  rw [e, List.pairwise_append] at hp
  simp [k a (hp.2.2 a ha g (by simp))]

theorem find_finRange_none {n : Nat} (test : Fin n → Bool) (h : ∀ g, test g = false) :
    (List.finRange n).find? test = none := by
  simp [List.find?_eq_none, h]

/-- A panel that no swap awaits or holds arrived drops out of none (R176). -/
theorem dropOut_none (b : Board) (d : Delivery) (n : PanelId) (h : ∀ g : GroupId, (d.groups[g]).mayDrop n = false) :
    d.dropOut b n = d := by
  simp only [Delivery.dropOut, find_finRange_none _ h]

/-- A drop-out: the member joins the dropped set, and its group is checked (R176). -/
theorem dropOut_some (b : Board) (d : Delivery) (n : PanelId) (g : GroupId) (x : Swap)
    (e : (d.groups[g]).swap = some x) (h : n ∈ x.expected) (h' : n ∉ x.dropped)
    (k : ∀ j < g, (d.groups[j]).mayDrop n = false) :
    d.dropOut b n = ({ d with groups := d.groups.set g { d.groups[g] with swap := some (x.dropMember n) } }
      : Delivery).checkSwap b g := by
  have hm := find_finRange (fun g => (d.groups[g]).mayDrop n) g ((mayDrop_iff d g n).2 ⟨x, e, h, h'⟩) k
  simp only [Delivery.dropOut, hm, Delivery.mapGroup, modifyAt, e, Option.map_some]

theorem mem_insertNumber {n : Nat} (p m : Fin n) : ∀ l : List (Fin n), m ∈ insertNumber p l ↔ m = p ∨ m ∈ l
  | [] => by simp [insertNumber]
  | x :: xs => by
    simp only [insertNumber]
    split
    · simp
    · split
      · rename_i h
        subst h
        simp
      · simp [mem_insertNumber p m xs]
        tauto

theorem insertNumber_sorted {n : Nat} (p : Fin n) : ∀ l : List (Fin n), l.Pairwise (· < ·) →
    (insertNumber p l).Pairwise (· < ·)
  | [], _ => by simp [insertNumber]
  | x :: xs, h => by
    simp only [insertNumber]
    have ⟨h1, h2⟩ := List.pairwise_cons.1 h
    split
    · rename_i hp
      refine List.pairwise_cons.2 ⟨?_, h⟩
      intro m hm
      rcases List.mem_cons.1 hm with rfl | hm
      · exact hp
      · exact lt_trans hp (h1 m hm)
    · split
      · exact h
      · rename_i hp hq
        refine List.pairwise_cons.2 ⟨?_, insertNumber_sorted p xs h2⟩
        intro m hm
        rcases (mem_insertNumber p m xs).1 hm with rfl | hm
        · exact lt_of_le_of_ne (not_lt.1 hp) (fun e => hq e.symm)
        · exact h1 m hm

/-- A group is complete when no expected member is missing (R177). -/
theorem isComplete_iff (x : Swap) : x.isComplete = true ↔
    ∀ m ∈ x.expected, m ∈ x.dropped ∨ ∃ r ∈ x.staged, r.panel = m := by
  simp only [Swap.isComplete, List.all_eq_true, decide_eq_true_eq, Swap.arrived, List.mem_map]
  exact forall₂_congr fun _ _ => or_comm

/-- The check of an ARMED group (R177). -/
theorem checkSwap_eq (b : Board) (d : Delivery) (g : GroupId) (x : Swap) (e : (d.groups[g]).swap = some x) :
    d.checkSwap b g = if x.isComplete then (d.showSwap b x).endSwap g x else d := by
  simp only [Delivery.checkSwap, e]

/-- An arrival: the staged record stored, and the check (R175). -/
theorem arrive_eq (b : Board) (d : Delivery) (g : GroupId) (x : Swap) (r : StagedRecord) (e : (d.groups[g]).swap = some x) :
    d.arrive b g r = ({ d with groups := d.groups.set g { d.groups[g] with swap := some { x with
      staged := x.staged ++ [r] } } } : Delivery).checkSwap b g := by
  simp only [Delivery.arrive, Delivery.mapGroup, modifyAt, e, Option.map_some]

/-- The lanes as a swap ends: its staged candidates marked, each mark beside the staged candidate mark (R178). -/
theorem outlive_lanes_eq (ps : List PanelId) (w : Works) :
    (w.outlive ps).lanes = outlived (fun m => decide (m ∈ ps)) w.lanes := rfl

/-- A lane of no member is left as it is. -/
theorem Lane.outlive_other (ps : List PanelId) (n : Lane) (h : ∀ p, n.panel = some p → p ∉ ps) : n.outlive ps = n := by
  unfold Lane.outlive
  rw [if_neg]
  cases hp : n.panel with
  | none => simp
  | some p => simpa using h p hp

/-- The end of a swap of no members leaves the lanes as they are. -/
@[simp] theorem outlive_nil (w : Works) : w.outlive [] = w := by
  have h : (w.outlive []).lanes = w.lanes := by
    apply Vector.ext
    intro i hi
    rw [Works.outlive_lanes, mapTable_get]
    exact Lane.outlive_other [] _ (by simp)
  cases w
  simp_all [Works.outlive]

/-- The end of a swap: its group IDLE, the lanes as R178 leaves them, and nothing else changed (R177). -/
theorem endSwap_eq (g : GroupId) (x : Swap) (d : Delivery) : d.endSwap g x = { d with
    groups := d.groups.set g { d.groups[g] with swap := none }
    works := { d.works with
      lanes := outlived (fun m => decide (m ∈ x.expected ∧ m ∈ (d.groups[g]).members)) d.works.lanes } } := by
  have h : (fun m => decide (m ∈ x.membersLeft (d.groups[g]).members)) =
      fun m => decide (m ∈ x.expected ∧ m ∈ (d.groups[g]).members) := by
    funext m
    simp [Swap.membersLeft]
  rw [← h]
  rfl

/-- A link that returns to IDLE sends its pending SHOW, else begins its due probe (R165, R167, R169). -/
theorem toIdle_returns (l : LinkId) (w : Works) : ReturnsToIdle l w (w.toIdle l) := by
  have hp : (w.setLink l (w.links[l].clear .idle)).dueProbe l = w.dueProbe l := by
    simp [Works.dueProbe, Works.panelAt, Works.panelList, Link.clear, Works.setLink]
  unfold ReturnsToIdle Works.toIdle Works.lineFree
  refine ⟨fun h => ?_, fun h k => ?_, fun h k => ⟨fun e => ?_, fun x e => ?_⟩⟩ <;> try rw [Works.beginDueProbe, hp, e]
  all_goals simp only [Fin.getElem_fin] at *
  all_goals simp [Link.clear, Link.mayShow, Link.showing, Works.setLink, Works.beginProbe, Link.probing, Works.setPanel,
    probeMessage, *]

/-- A link that lets its frame go, whatever its state (R115, R158, R162, R164). -/
theorem dropFrame_letsGo (l : LinkId) (w : Works) : LetsFrameGo l w (w.dropFrame l) := by
  unfold LetsFrameGo Works.dropFrame
  refine ⟨fun h e => ?_, fun h e => ?_, fun h => ?_, fun h => ?_⟩
  · simp only [h, Link.abandon, e, Bool.false_eq_true, if_false, Works.setLink]
  · simp only [h]
    rw [show w.links[l].abandon = w.links[l] from if_pos e, Works.setLink, set_self]
  · rcases h with h | h <;> simp only [h] <;> exact toIdle_returns l w
  · rcases h with h | h | h <;> simp only [h]

/-- The lanes freed one by one: nothing but the lanes changes (R82, R115). -/
theorem freeLanes_frame (ls : List LaneId) (w : Works) : (ls.foldl Works.freeLane w).links = w.links ∧
    (ls.foldl Works.freeLane w).panels = w.panels ∧ (ls.foldl Works.freeLane w).rotation = w.rotation ∧
    (ls.foldl Works.freeLane w).now = w.now :=
  foldl_keeps (fun v : Works => v.links = w.links ∧ v.panels = w.panels ∧ v.rotation = w.rotation ∧ v.now = w.now)
    Works.freeLane (fun _ _ h => h) ls w ⟨rfl, rfl, rfl, rfl⟩

/-- A preempted panel: READY, its link as the frame is let go, and rotation and time as they were (R115). -/
theorem preempt_frame (w : Works) (m : PanelId) (q : Panel) (h : w.panels[m] = some q) : ∃ wake v, LetsFrameGo q.link w v ∧
    (w.preempt m).links = v.links ∧ (w.preempt m).panels = v.panels.set m (some { q with state := .ready, wake := wake }) ∧
    (w.preempt m).rotation = v.rotation ∧ (w.preempt m).now = v.now := by
  unfold Works.preempt
  simp only [h, freeLanes_frame]
  exact ⟨_, _, dropFrame_letsGo _ _, rfl, rfl, rfl, rfl⟩

/-- Two ascending lists of drops with the same members are one list. -/
theorem ascending_ext (xs ys : List Drop) (hx : xs.Pairwise (fun a b => a < b)) (hy : ys.Pairwise (fun a b => a < b))
    (h : ∀ a, a ∈ xs ↔ a ∈ ys) : xs = ys :=
  List.Perm.eq_of_pairwise (fun _ _ _ _ p q => absurd p (lt_asymm q)) hx hy
    ((List.perm_ext_iff_of_nodup (hx.imp ne_of_lt) (hy.imp ne_of_lt)).2 h)

/-- A request for SHOW leaves its link as the request asks, whatever the link's state (R169). -/
theorem requestShow_asked (l : LinkId) (asked : List Drop) (w : Works) :
    ShowAsked (fun x => x ∈ asked) w.links[l] (w.requestShow l asked).links[l] := by
  unfold ShowAsked Works.requestShow
  refine ⟨fun h => ?_, fun drops hd hm hs ha => ?_⟩
  · rw [if_pos (h.imp_right List.eq_nil_iff_forall_not_mem.2)]
  · obtain ⟨x, hx⟩ := ha
    have e : (w.links[l].addShow asked).pendingShow = drops := by
      refine ascending_ext _ _ ?_ hd (fun a => ?_)
      · exact List.Pairwise.filter _ (List.pairwise_lt_finRange 8)
      · simp [Link.addShow, hm]
    rw [if_neg (by rintro (h | h); exacts [hs h, by simp [h] at hx])]
    have k : w.links[l].addShow asked = { w.links[l] with pendingShow := drops } := by rw [← e]; rfl
    simp only [k]
    refine ⟨fun h r => ?_, fun h => ?_⟩
    · simp only [Fin.getElem_fin] at *
      simp [Link.mayShow, Works.setLink, Link.showing, h, r]
    · simp only [Fin.getElem_fin] at *
      simp only [Works.setLink, Vector.getElem_set_self]
      rw [if_neg]
      simpa [Link.mayShow, ← not_or] using not_and_or.2 (h.imp_left (fun p => by simpa [not_or] using p))

/-- A request for SHOW changes its link alone (R169). -/
theorem requestShow_frame (l : LinkId) (x : List Drop) (w : Works) : (w.requestShow l x).panels = w.panels ∧
    (w.requestShow l x).lanes = w.lanes ∧ (w.requestShow l x).rotation = w.rotation ∧ (w.requestShow l x).now = w.now := by
  unfold Works.requestShow
  simp only []
  split
  · simp
  · simp [Works.setLink]

/-- A check of the confirmations changes ports and confirmations alone (R62). -/
theorem checkConfirmations_frame (b : Board) (d : Delivery) : (d.checkConfirmations b).groups = d.groups ∧
   (d.checkConfirmations b).works = d.works := by
  unfold Delivery.checkConfirmations
  refine foldl_keeps (fun e : Delivery => e.groups = d.groups ∧ e.works = d.works) _ (fun e k h => ?_) _ _ ⟨rfl, rfl⟩
  unfold Delivery.checkConfirmation
  split <;> exact h

/-- What a request for SHOW makes of its link depends on that link alone (R169). -/
theorem requestShow_congr (l : LinkId) (x : List Drop) (v w : Works) (h : v.links[l] = w.links[l]) :
    (v.requestShow l x).links[l] = (w.requestShow l x).links[l] := by
  unfold Works.requestShow
  simp only [h]
  split
  · exact h
  · simp only [Works.setLink, set_getFin_self]

/-- A request for SHOW leaves every other link as it is (R169). -/
theorem requestShow_other (l m : LinkId) (x : List Drop) (w : Works) (h : l ≠ m) :
    (w.requestShow l x).links[m] = w.links[m] := by
  unfold Works.requestShow
  simp only []
  split
  · rfl
  · simp only [Works.setLink, set_getFin_ne _ _ h]

/-- The adoption of staged records changes neither links, groups, lanes, rotation nor time, and moves no panel (R90). -/
theorem adopts_frame (b : Board) (rs : List StagedRecord) (d : Delivery) :
    (rs.foldl (Delivery.adopt b) d).groups = d.groups ∧ (rs.foldl (Delivery.adopt b) d).works.links = d.works.links ∧
    (rs.foldl (Delivery.adopt b) d).works.rotation = d.works.rotation ∧
    (rs.foldl (Delivery.adopt b) d).works.now = d.works.now ∧
    ∀ m : PanelId, ((rs.foldl (Delivery.adopt b) d).works.panels[m]).map (fun q => (q.link, q.drop)) =
      (d.works.panels[m]).map (fun q => (q.link, q.drop)) := by
  refine foldl_keeps (fun e : Delivery => e.groups = d.groups ∧ e.works.links = d.works.links ∧
    e.works.rotation = d.works.rotation ∧ e.works.now = d.works.now ∧ ∀ m : PanelId,
      (e.works.panels[m]).map (fun q => (q.link, q.drop)) = (d.works.panels[m]).map (fun q => (q.link, q.drop))) _
    (fun e r h => ?_) rs d ⟨rfl, rfl, rfl, rfl, fun _ => rfl⟩
  unfold Delivery.adopt
  cases hp : e.works.panels[r.panel] with
  | none => exact h
  | some q =>
    simp only [checkConfirmations_frame]
    refine ⟨h.1, h.2.1, h.2.2.1, h.2.2.2.1, fun m => (Eq.trans ?_ (h.2.2.2.2 m))⟩
    simp only [Delivery.mapWorks, Works.putPanel]
    rw [set_getFin]
    split
    · rename_i e
      subst e
      rw [hp]
      simp only [Option.map_some, Panel.acknowledge]
      cases r.full <;> rfl
    · rfl

/-- The arrived images shown leave the groups as they are (R177 steps 1 and 2). -/
theorem showSwap_groups (b : Board) (d : Delivery) (x : Swap) : (d.showSwap b x).groups = d.groups := by
  simp only [Delivery.showSwap, Delivery.mapWorks]
  exact (adopts_frame b x.toShow d).1

/-- The notice of a lapsed swap leaves the groups as they are (R178 step 3). -/
theorem notifyIncomplete_groups (g : GroupId) (x : Swap) (d : Delivery) : (d.notifyIncomplete g x).groups = d.groups := by
  unfold Delivery.notifyIncomplete
  cases x.source <;> rfl

/-- A plain cause raised on panels leaves the groups as they are (R85). -/
theorem raises_groups (b : Board) (cause : Cause) (h : cause ≠ .urgent) (ps : List PanelId) (d : Delivery) :
    (ps.foldl (Delivery.raise b cause) d).groups = d.groups :=
  foldl_keeps (fun e : Delivery => e.groups = d.groups) _ (fun e p k => (raise_frame b cause e p h).1.trans k) _ _ rfl

/-- A swap that lapses: the members that it leaves are those of its group as the deadline is reached (R178). -/
theorem lapseSwap_eq (b : Board) (g : GroupId) (x : Swap) (d : Delivery) :
    let raised := x.missing.foldl (Delivery.raise b .content) ((d.showSwap b x).notifyIncomplete g x)
    d.lapseSwap b g x = { raised with
      groups := raised.groups.set g { raised.groups[g] with swap := none }
      works := { raised.works with
        lanes := outlived (fun m => decide (m ∈ x.expected ∧ m ∈ (d.groups[g]).members)) raised.works.lanes } } := by
  intro raised
  have h : raised.groups = d.groups := by
    rw [raises_groups b .content (by decide), notifyIncomplete_groups, showSwap_groups]
  rw [← h]
  exact endSwap_eq g x raised

/-- The requests for SHOW of a swap, link by link: each link is asked once, for its own drops (R177 step 2). -/
theorem requestShows_links (ps : List PanelId) (l : LinkId) : ∀ (ls : List LinkId) (w : Works), ls.Nodup →
    let v := ls.foldl (fun w l => w.requestShow l (w.dropsOn ps l)) w
    v.panels = w.panels ∧ v.links[l] = if l ∈ ls then (w.requestShow l (w.dropsOn ps l)).links[l] else w.links[l]
  | [], w, _ => by simp
  | a :: ls, w, hn => by
    have ih := requestShows_links ps l ls (w.requestShow a (w.dropsOn ps a)) (List.nodup_cons.1 hn).2
    have hp := (requestShow_frame a (w.dropsOn ps a) w).1
    simp only [List.foldl_cons]
    have hd : ∀ v : Works, v.panels = w.panels → v.dropsOn ps l = w.dropsOn ps l := fun v h => by simp only [Works.dropsOn, h]
    refine ⟨ih.1.trans hp, ih.2.trans ?_⟩
    by_cases e : l = a
    · subst e
      simp [(List.nodup_cons.1 hn).1]
    · have ho := requestShow_other a l (w.dropsOn ps a) w (Ne.symm e)
      rw [hd _ hp, requestShow_congr l _ _ w ho, ho]
      simp [e]

/-- Each link as the arrived images of a swap are shown: asked for the drops of its panels that arrived by transmission, and
of no other (R169, R177). -/
theorem showSwap_links (b : Board) (d : Delivery) (x : Swap) (l : LinkId) : ShowAsked
    (fun y => ∃ r ∈ x.toShow, ∃ q, d.works.panels[r.panel] = some q ∧ q.link = l ∧ q.drop = y)
    d.works.links[l] (d.showSwap b x).works.links[l] := by
  have ha := adopts_frame b x.toShow d
  simp only [Delivery.showSwap, Delivery.mapWorks]
  rw [(requestShows_links _ l _ _ (List.nodup_finRange 8)).2, if_pos (List.mem_finRange l), ← ha.2.1]
  have hs : (fun y => ∃ r ∈ x.toShow, ∃ q, d.works.panels[r.panel] = some q ∧ q.link = l ∧ q.drop = y) = fun y =>
      y ∈ (x.toShow.foldl (Delivery.adopt b) d).works.dropsOn (x.toShow.map (fun r => r.panel)) l := by
    funext y
    have hp := ha.2.2.2.2
    generalize (x.toShow.foldl (Delivery.adopt b) d).works = v at hp
    simp only [Works.dropsOn, List.mem_filterMap, List.mem_map, eq_iff_iff, exists_exists_and_eq_and]
    refine exists_congr fun r => and_congr_right fun _ => ?_
    have hr := hp r.panel
    cases hv : v.panels[r.panel] <;> cases hd : d.works.panels[r.panel] <;> simp_all
  rw [hs]
  exact requestShow_asked l _ _

/-! ## Completions and the response queue (R185) -/

/-- With a free slot and nothing waiting a completion joins the tail of the response queue, and its tag is free. -/
theorem offer_placed (x : Completion) (pt : Port) (h : pt.reserved = false) (hw : pt.waiting = [])
    (hr : pt.responses.length < 8) : pt.offer x = pt.place x := by
  simp [Port.offer, Port.slotFree, h, hw, hr]

/-- Without, it waits behind the others, its tag outstanding. -/
theorem offer_waits (x : Completion) (pt : Port)
    (h : pt.reserved = true ∨ pt.waiting ≠ [] ∨ 8 ≤ pt.responses.length) :
    pt.offer x = { pt with waiting := pt.waiting ++ [x], tags := pt.tags.set x.tag .ended } := by
  have hb : (pt.reserved || !pt.waiting.isEmpty || !pt.slotFree) = true := by
    rcases h with h | h | h
    · simp [h]
    · cases hw : pt.waiting with
      | nil => exact absurd hw h
      | cons => simp
    · simp only [Port.slotFree]
      have : ¬ (pt.responses.length + cond pt.reserved 1 0 < 8) := by omega
      simp [this]
  simp [Port.offer, hb]

theorem drainWaiting_eq : ∀ (ws : List Completion) (pt : Port), pt.reserved = false →
    Port.drainWaiting ws pt = { pt with
      responses := pt.responses ++ (ws.take (8 - pt.responses.length)).map Completion.frame
      waiting := ws.drop (8 - pt.responses.length)
      tags := (ws.take (8 - pt.responses.length)).foldl (fun tags x => tags.set x.tag .free) pt.tags }
  | [], pt, _ => by simp [Port.drainWaiting]
  | x :: xs, pt, h => by
    by_cases hs : pt.responses.length < 8
    · obtain ⟨k, hk⟩ : ∃ k, 8 - pt.responses.length = k + 1 := ⟨7 - pt.responses.length, by omega⟩
      have hk' : 8 - (pt.place x).responses.length = k := by simp [Port.place]; omega
      have ih := drainWaiting_eq xs (pt.place x) (by simpa [Port.place] using h)
      rw [hk'] at ih
      simp only [Port.drainWaiting, Port.slotFree, h, cond_false, Nat.add_zero, hs, decide_true, if_true, ih, hk]
      simp [Port.place, h]
    · have hk : 8 - pt.responses.length = 0 := by omega
      simp [Port.drainWaiting, Port.slotFree, h, hs, hk]

/-- The oldest waiting completions take the free slots, in order; the others go on waiting. -/
theorem drain_eq (pt : Port) (h : pt.reserved = false) : pt.drain = { pt with
    responses := pt.responses ++ (pt.waiting.take (8 - pt.responses.length)).map Completion.frame
    waiting := pt.waiting.drop (8 - pt.responses.length)
    tags := (pt.waiting.take (8 - pt.responses.length)).foldl (fun tags x => tags.set x.tag .free) pt.tags } :=
  drainWaiting_eq pt.waiting pt h

/-! ## The draw order (R47) -/

/-- A number that joins a layer stands after those of its own and of lower layers and, in a sorted order, before those of
higher ones; the others keep their order. -/
theorem joinLayer_split (b : Board) (n : PlacardId) (layer : Nat) : ∀ o : List PlacardId,
    ∃ front back, o = front ++ back ∧ b.joinLayer n layer o = front ++ n :: back ∧
      (∀ m ∈ front, b.layerOf m ≤ layer) ∧
      (o.Pairwise (fun m n => b.layerOf m ≤ b.layerOf n) → ∀ m ∈ back, layer < b.layerOf m)
  | [] => ⟨[], [], rfl, rfl, by simp, by simp⟩
  | x :: xs => by
    by_cases h : layer < b.layerOf x
    · refine ⟨[], x :: xs, rfl, by simp [Board.joinLayer, h], by simp, ?_⟩
      intro hp m hm
      rcases List.mem_cons.1 hm with rfl | hm
      · exact h
      · exact Nat.lt_of_lt_of_le h ((List.pairwise_cons.1 hp).1 m hm)
    · obtain ⟨f, k, h1, h2, h3, h4⟩ := joinLayer_split b n layer xs
      refine ⟨x :: f, k, by simp [h1], by simp [Board.joinLayer, h, h2], ?_, ?_⟩
      · intro m hm
        rcases List.mem_cons.1 hm with rfl | hm
        · exact Nat.not_lt.1 h
        · exact h3 m hm
      · intro hp
        exact h4 (List.pairwise_cons.1 hp).2

/-! ## Interest (R46, R60) -/

theorem mem_present (b : Board) (pl : Placard) : pl ∈ b.present ↔ ∃ n : PlacardId, b.placards[n] = some pl := by
  simp only [Board.present, List.mem_filterMap, id, exists_eq_right]
  rw [Vector.mem_toList_iff, Vector.mem_iff_getElem]
  constructor
  · rintro ⟨i, h, e⟩; exact ⟨⟨i, h⟩, e⟩
  · rintro ⟨n, e⟩; exact ⟨n.val, n.isLt, e⟩

/-- What a panel draws. -/
theorem drawnOn_iff (q : Panel) (pl : Placard) : pl.drawnOn q = true ↔
    q.address &&& pl.mask = pl.base &&& pl.mask ∧ pl.live = true ∧ 0 < pl.w ∧ 0 < pl.h ∧ pl.x < q.width ∧ pl.y < q.height := by
  simp [Placard.drawnOn, Placard.matchesPanel, Placard.inside, and_assoc]

/-- The causes that the interest of a panel names. -/
theorem interest_has (b : Board) (q : Panel) (cause : Cause) : (b.interestOf q).has cause = true ↔
    ∃ (n : PlacardId) (pl : Placard), b.placards[n] = some pl ∧ pl.drawnOn q = true ∧
      ((cause = .figure ∧ ∃ l i k f g, pl.content = .departures l i k f g) ∨
        (cause = .clock ∧ ∃ f, pl.content = .clock f) ∨ (cause = .blink ∧ pl.blink = true) ∨ (cause = .scroll ∧ ∃ t, pl.content = .ticker t)) := by
  have swap : ∀ P : Placard → Prop, (∃ pl ∈ b.present, P pl) ↔
      ∃ (n : PlacardId) (pl : Placard), b.placards[n] = some pl ∧ P pl := by
    intro P
    constructor
    · rintro ⟨pl, h, p⟩
      obtain ⟨n, e⟩ := (mem_present b pl).1 h
      exact ⟨n, pl, e, p⟩
    · rintro ⟨n, pl, e, p⟩
      exact ⟨pl, (mem_present b pl).2 ⟨n, e⟩, p⟩
  have dep : ∀ c : PlacardContent, c.isDepartures = true ↔ ∃ l i k f g, c = .departures l i k f g := by
    intro c
    cases c <;> simp [PlacardContent.isDepartures]
  have clk : ∀ c : PlacardContent, c.isClock = true ↔ ∃ f, c = .clock f := by
    intro c
    cases c <;> simp [PlacardContent.isClock]
  have tic : ∀ c : PlacardContent, c.isTicker = true ↔ ∃ f, c = .ticker f := by
    intro c
    cases c <;> simp [PlacardContent.isTicker]
  rw [← swap]
  cases cause <;> simp [CauseSet.has, Board.interestOf, CauseSet.none, List.any_filter, ← dep, ← clk, ← tic]

theorem draws_iff (b : Board) (test : Placard → Bool) (q : Panel) : b.draws test q = true ↔
    ∃ (n : PlacardId) (pl : Placard), b.placards[n] = some pl ∧ test pl = true ∧ pl.drawnOn q = true := by
  simp only [Board.draws, List.any_eq_true, Bool.and_eq_true, mem_present]
  constructor
  · rintro ⟨pl, ⟨n, e⟩, p⟩
    exact ⟨n, pl, e, p⟩
  · rintro ⟨n, pl, e, p⟩
    exact ⟨pl, ⟨n, e⟩, p⟩

/-! ## Eligibility (R98) -/

/-- A panel is frozen by a placard that matches it and is bound to a hold that is not EMPTY (R66). -/
theorem frozen_iff (c : Content) (q : Panel) : c.frozen q = false ↔
    ∀ (n : PlacardId) (pl : Placard) (h : HoldId), c.board.placards[n] = some pl → pl.hold = some h →
      (c.holds[h]).state ≠ .empty → q.address &&& pl.mask ≠ pl.base &&& pl.mask := by
  rw [← Bool.not_eq_true, Content.frozen, List.any_eq_true]
  constructor
  · intro a n pl h e f g k
    refine a ⟨pl, (mem_present _ _).2 ⟨n, e⟩, ?_⟩
    simp only [Content.isHeld, f, Placard.matchesPanel, Bool.and_eq_true, decide_eq_true_eq]
    exact ⟨g, k⟩
  · rintro a ⟨pl, m, k⟩
    obtain ⟨n, e⟩ := (mem_present _ _).1 m
    cases f : pl.hold with
    | none => simp [Content.isHeld, f] at k
    | some h =>
      simp only [Content.isHeld, f, Placard.matchesPanel, Bool.and_eq_true, decide_eq_true_eq] at k
      exact a n pl h e f k.1 k.2

/-- A panel is deferred as a member of an ARMED group, unless its wake set holds STAGE (R174). -/
theorem deferred_iff (gs : Vector Group 8) (p : PanelId) (q : Panel) : deferred gs p q = false ↔
    (q.wake.has .stage = true ∨ ∀ g : GroupId, (gs[g]).swap ≠ none → p ∉ (gs[g]).members) := by
  rw [← Bool.not_eq_true, deferred, Bool.and_eq_true, List.any_eq_true]
  constructor
  · intro a
    by_cases s : q.wake.has .stage = true
    · exact Or.inl s
    · refine Or.inr (fun g m k => a ⟨⟨gs[g], by simp, ?_⟩, by simpa using s⟩)
      cases x : (gs[g]).swap with
      | none => exact absurd x m
      | some y =>
        rw [Option.isSome_some, Bool.true_and]
        simpa using k
  · rintro (s | a) ⟨⟨g, m, k⟩, s'⟩
    · simp [s] at s'
    · rw [Vector.mem_toList_iff, Vector.mem_iff_getElem] at m
      obtain ⟨i, hi, rfl⟩ := m
      simp only [Bool.and_eq_true, decide_eq_true_eq] at k
      refine a ⟨i, hi⟩ (fun x => ?_) k.2
      change (gs[i]).swap = none at x
      rw [x] at k
      cases k.1

/-! ## What LRX brings (R158, R193) -/

/-- Nothing is heard while LDE is high or the link is DISABLED. -/
theorem receiveChar_deaf (b : Board) (l : LinkId) (d : Delivery) (x : RxChar)
    (h : (d.works.links[l]).line ≠ .released ∨ (d.works.links[l]).state = .disabled) : receiveChar b l d x = d := if_pos h

/-- A byte out of its range, as the last one received of a reply. -/
theorem replyBad_iff (r : List Byte) (x : Byte) : replyBad (r ++ [x]) = true ↔
    ((r ++ [x]).length = 2 ∧ 7 < x.toNat) ∨
        ((r ++ [x]).length = 4 ∧ (r ++ [x]).headD 0 = 0xC1 ∧ (x = 0 ∨ 3 < x.toNat)) ∨
        ((r ++ [x]).length = 3 ∧ (r ++ [x]).headD 0 = 0xC2 ∧ 2 < x.toNat) := by
  match r with
  | [] => simp [replyBad]
  | [a] => simp [replyBad]
  | [a, b] => simp [replyBad]
  | [a, b, c] => simp [replyBad]
  | a :: b :: c :: d :: r => cases r <;> simp [replyBad]

/-- The bytes that begin no reply. -/
theorem replyLength_isNone (k : Byte) : (replyLength k).isNone = true ↔ k ≠ 0xC0 ∧ k ≠ 0xC1 ∧ k ≠ 0xC2 := by
  unfold replyLength
  split
  · simp_all
  · split
    · simp_all
    · split <;> simp_all

/-- The reply in assembly after a character whose stop bit is high. -/
theorem assemble_eq (p : List Byte) (x : RxChar) (h : x.stopHigh = true) : assemble p x =
    let r := (if x.gapBefore then [] else p) ++ [x.byte]
    if (replyLength (r.headD 0)).isNone || replyBad r then [] else r := by
  unfold assemble
  rw [if_neg (by simp [h])]
  generalize (if x.gapBefore = true then [] else p) = p'
  cases p' <;> rfl

/-! ## Selections (R99) -/

@[simp] theorem settleDelivery_ports (c : Content) (d : Delivery) (c' : Content) (d' : Delivery) :
    (settleDelivery c d c' d').ports = d'.ports := rfl

@[simp] theorem settleDelivery_groups (c : Content) (d : Delivery) (c' : Content) (d' : Delivery) :
    (settleDelivery c d c' d').groups = d'.groups := rfl

@[simp] theorem settleDelivery_confirmations (c : Content) (d : Delivery) (c' : Content) (d' : Delivery) :
    (settleDelivery c d c' d').confirmations = d'.confirmations := rfl

theorem runSelections_none (c : Content) (gs : Vector Group 8) (fuel : Nat) (w : Works) :
    runSelections c gs fuel 0 w = w := by
  cases fuel <;> rfl

/-- The selections of a command one after the other: each serves one trigger, and calls for those it brings (R99). -/
theorem runSelections_chain (c : Content) (gs : Vector Group 8) : ∀ (fuel due : Nat) (w : Works),
    let after (k : Nat) : Works := (fun w => (w.selection c gs).1)^[k] w
    let brought (k : Nat) : Nat := cond ((after k).selection c gs).2 1 0 + (laneTriggers (after k) (after (k + 1)) +
      panelTriggers c c gs gs (after k) (after (k + 1)))
    let called (k : Nat) : Nat := due + ((List.range k).map brought).sum
    ∃ n, n ≤ fuel ∧ runSelections c gs fuel due w = after n ∧ (∀ k < n, k < called k) ∧ (n < fuel → called n = n)
  | 0, due, w => ⟨0, Nat.le_refl _, rfl, by simp, by simp⟩
  | fuel + 1, 0, w => ⟨0, by simp, rfl, by simp, by simp⟩
  | fuel + 1, due + 1, w => by
    intro after brought called
    obtain ⟨n, h1, h2, h3, h4⟩ := runSelections_chain c gs fuel
      (due + cond (w.selection c gs).2 1 0 +
        (laneTriggers w (w.selection c gs).1 + panelTriggers c c gs gs w (w.selection c gs).1))
      (w.selection c gs).1
    have hs : ∀ k, called (k + 1) = (due + cond (w.selection c gs).2 1 0 +
        (laneTriggers w (w.selection c gs).1 + panelTriggers c c gs gs w (w.selection c gs).1)) +
        ((List.range k).map (fun k => brought (k + 1))).sum + 1 := by
      intro k
      simp only [called, List.range_succ_eq_map, List.map_cons, List.sum_cons, List.map_map]
      have : brought 0 = cond (w.selection c gs).2 1 0 +
        (laneTriggers w (w.selection c gs).1 + panelTriggers c c gs gs w (w.selection c gs).1) := rfl
      have e : (brought ∘ Nat.succ) = fun k => brought (k + 1) := rfl
      rw [e]
      omega
    refine ⟨n + 1, by omega, h2, ?_, ?_⟩
    · intro k hk
      cases k with
      | zero => simp [called]
      | succ k =>
        rw [hs]
        exact Nat.succ_lt_succ (h3 k (by omega))
    · intro hn
      rw [hs]
      exact congrArg Nat.succ (h4 (by omega))

/-- The lanes that became FREE, RESIDENT or CLAIMED, counted. -/
theorem laneTriggers_eq (v w : Works) : laneTriggers v w = ((List.finRange 8).filter (fun n => decide (
    (w.lanes[n]).state ≠ (v.lanes[n]).state ∧
      ((w.lanes[n]).state = .free ∨ (w.lanes[n]).state = .resident ∨ (w.lanes[n]).state = .claimed)))).length := by
  have hz : v.lanes.toList.zip w.lanes.toList = (List.finRange 8).map (fun n => (v.lanes[n], w.lanes[n])) := by
    apply List.ext_getElem
    · simp
    · intro i h1 h2
      simp
  rw [laneTriggers, hz, List.filter_map, List.length_map]
  congr 1
  apply List.filter_congr
  intro n _
  simp only [Function.comp, LaneState.triggers]
  rw [Bool.eq_iff_iff]
  simp only [Bool.and_eq_true, decide_eq_true_eq]
  exact ⟨fun h => ⟨Ne.symm h.2, h.1⟩, fun h => ⟨h.2, Ne.symm h.1⟩⟩

/-- The panels that became eligible, or gained URGENT while eligible, counted. -/
theorem panelTriggers_eq (c c' : Content) (gs gs' : Vector Group 8) (v w : Works) : panelTriggers c c' gs gs' v w =
    ((List.finRange 64).filter (fun p => decide (eligible c' gs' w p = true ∧ (eligible c gs v p = false ∨
      ((w.panels[p]).any (fun q => q.wake.has .urgent) = true ∧
        (v.panels[p]).any (fun q => q.wake.has .urgent) = false))))).length := by
  rw [panelTriggers]
  congr 1
  apply List.filter_congr
  intro p _
  have hu : ∀ w : Works, w.urgent p = (w.panels[p]).any (fun q => q.wake.has .urgent) := by
    intro w
    unfold Works.urgent
    cases w.panels[p] <;> rfl
  rw [Bool.eq_iff_iff, hu, hu]
  simp

theorem laneTriggers_same (v w : Works) (h : w.lanes = v.lanes) : laneTriggers v w = 0 := by
  have k : ∀ l : List Lane, ((l.zip l).filter (fun x => x.2.state.triggers && decide (x.1.state ≠ x.2.state))) = [] := by
    intro l
    induction l with
    | nil => rfl
    | cons a l ih => simpa using ih
  simp only [laneTriggers, h, k, List.length_nil]

theorem panelTriggers_same (c : Content) (gs : Vector Group 8) (w : Works) : panelTriggers c c gs gs w w = 0 := by
  simp [panelTriggers]

theorem claimTriggers_same (w : Works) : claimTriggers w w = 0 := by
  unfold claimTriggers
  cases w.rotation.claim <;> simp

/-- A command that leaves content, works and groups as they were triggers no selection. -/
theorem settleDelivery_unchanged (c : Content) (d d' : Delivery) (hw : d'.works = d.works) (hg : d'.groups = d.groups) :
    settleDelivery c d c d' = d' := by
  have k : runSelections c d'.groups selectionBound (laneTriggers d.works d'.works +
      panelTriggers c c d.groups d'.groups d.works d'.works + claimTriggers d.works d'.works) d'.works = d'.works := by
    rw [hw, hg, laneTriggers_same _ _ rfl, panelTriggers_same, claimTriggers_same, Nat.add_zero, runSelections_none]
  unfold settleDelivery
  simp only [k]

/-! ## Commands -/

theorem event_leaves (f : Content → Delivery → Delivery) (s : State) :
    Leaves (event f s) s s.content (f s.content s.delivery) := rfl

theorem request_taken (p : PortId) (i : Instr) (f : Content → Delivery → Content × Delivery × Reply) (s : State)
    (h : s.canTake p i) :
    Leaves (request p i f s) s (f s.content (s.taking p)).1
      ((f s.content (s.taking p)).2.1.mapPort p (Port.finishRequest i (f s.content (s.taking p)).2.2)) := by
  unfold State.canTake at h
  simp only [Leaves, request, h, if_true, State.taking]

theorem request_left (p : PortId) (i : Instr) (f : Content → Delivery → Content × Delivery × Reply) (s : State)
    (h : ¬ s.canTake p i) : request p i f s = .next s := by
  unfold State.canTake at h
  simp only [request, h, if_neg, Bool.false_eq_true, not_false_eq_true]

/-- A query changes its own port alone. -/
theorem query_taken (p : PortId) (i : Instr) (f : Content → Delivery → Reply) (s : State) (h : s.canTake p i) :
    query p i f s =
      .next { s with delivery := (s.taking p).mapPort p (Port.finishRequest i (f s.content (s.taking p))) } := by
  have k := request_taken p i (fun c d => (c, d, f c d)) s h
  unfold Leaves at k
  rw [settleDelivery_unchanged s.content s.delivery
    ((s.taking p).mapPort p (Port.finishRequest i (f s.content (s.taking p)))) rfl rfl] at k
  exact k

theorem supervised_granted (p : PortId) (f : Content → Delivery → Content × Delivery × Reply) (c : Content) (d : Delivery)
    (h : d.ports[p].rank = .supervisor) : supervised p f c d = f c d := by
  simp only [supervised, h]

theorem supervised_denied (p : PortId) (f : Content → Delivery → Content × Delivery × Reply) (c : Content) (d : Delivery)
    (h : d.ports[p].rank = .feed) : supervised p f c d = (c, d, refuse .denied) := by
  simp only [supervised, h]

theorem taking_rank (p q : PortId) (s : State) : ((s.taking p).ports[q]).rank = (s.delivery.ports[q]).rank := by
  simp only [State.taking, Delivery.mapPort_ports, modifyAt_getFin]
  split
  · subst q; rfl
  · rfl

@[simp] theorem taking_works (p : PortId) (s : State) : (s.taking p).works = s.delivery.works := rfl
@[simp] theorem taking_groups (p : PortId) (s : State) : (s.taking p).groups = s.delivery.groups := rfl
@[simp] theorem taking_confirmations (p : PortId) (s : State) :
    (s.taking p).confirmations = s.delivery.confirmations := rfl

/-- What a request that is taken answers, from what its block does with it (R184). -/
theorem replies_of_request (p : PortId) (i : Instr) (f : Content → Delivery → Content × Delivery × Reply) (s : State)
    (c : Content) (d : Delivery) (r : Reply) (e : exec i s = request p i f s) (h : s.canTake p i)
    (k : f s.content (s.taking p) = (c, d, r)) : Replies p i r s c d := by
  have a := request_taken p i f s h
  rw [k] at a
  unfold Replies
  rw [e]
  exact a

/-- The same for a supervisor request of a SUPERVISOR port (R181). -/
theorem replies_of_supervised (p : PortId) (i : Instr) (f : Content → Delivery → Content × Delivery × Reply) (s : State)
    (c : Content) (d : Delivery) (r : Reply) (e : exec i s = request p i (supervised p f) s) (h : s.canTake p i)
    (g : s.isSupervisor p) (k : f s.content (s.taking p) = (c, d, r)) : Replies p i r s c d :=
  replies_of_request p i (supervised p f) s c d r e h
    ((supervised_granted p f s.content (s.taking p) (by rw [taking_rank]; exact g)).trans k)

/-! ## The panel table as a list -/

theorem panelClassOf_code (cls : PanelClass) : panelClassOf cls.code.toNat = some cls := by cases cls <;> rfl

theorem mem_panelList (w : Works) (m : PanelId) (q : Panel) : (m, q) ∈ w.panelList ↔ w.panels[m] = some q := by
  simp only [Works.panelList, List.mem_filterMap, Option.map_eq_some_iff, Prod.mk.injEq]
  constructor
  · rintro ⟨⟨a, b⟩, hz, q', hb, ha, hqq⟩
    subst hqq
    simp only at hb ha
    subst ha
    rw [List.mem_iff_getElem] at hz
    obtain ⟨k, hk, hz⟩ := hz
    simp only [List.getElem_zip, Prod.mk.injEq, List.getElem_finRange] at hz
    obtain ⟨hz1, hz2⟩ := hz
    rw [← hz1]
    simp at hz2 ⊢
    rw [hz2, hb]
  · intro h
    refine ⟨(m, some q), ?_, q, rfl, rfl, rfl⟩
    rw [List.mem_iff_getElem]
    refine ⟨m.val, by simp, ?_⟩
    simp
    simpa using h

/-! ## Checks of placards (R43, R44, R51) -/

theorem index?_isSome (n v : Nat) : (index? n v).isSome = true ↔ v < n := by
  unfold index?; split <;> simp_all

theorem optOk_iff (test : Nat → Bool) (o : Option Nat) : optOk test o = true ↔ ∀ v, o = some v → test v = true := by
  cases o <;> simp [optOk]

theorem windowOrdered_iff (a z : Option Nat) : windowOrdered a z = true ↔ inOrder a z := by
  cases a <;> cases z <;> simp [windowOrdered, inOrder]

theorem takenBy_iff (p : PortId) (h : Hold) : h.takenBy p = true ↔ ∃ t, h.state = .taken p t := by
  unfold Hold.takenBy
  cases h.state <;> simp

/-- The hold condition is that of R51. -/
theorem holdMet_iff (c : Content) (p : PortId) (h : Option HoldId) :
    c.holdMet p h = true ↔ holdTakenBy p c (h.map Fin.val) := by
  cases h with
  | none => simp [Content.holdMet, holdTakenBy]
  | some h =>
    simp only [Content.holdMet, holdTakenBy, takenBy_iff, Option.map_some, Option.some.injEq]
    constructor
    · intro k g e
      cases Fin.ext e
      exact k
    · intro k
      exact k h rfl

theorem textValid_iff (limit : Nat) (t : List Nat) :
    textValid limit t = true ↔ t.length ≤ limit ∧ ∀ x ∈ t, x ≤ 511 := by
  simp [textValid, Nat.lt_succ_iff]

theorem alignOf_isSome (v : Nat) : (alignOf v).isSome = true ↔ v ≤ 2 := by
  match v with
  | 0 => simp [alignOf]
  | 1 => simp [alignOf]
  | 2 => simp [alignOf]
  | n + 3 => simp [alignOf]

theorem backgroundOf_isSome (v : Nat) : (backgroundOf v).isSome = true ↔ v ≤ 4 := by
  unfold backgroundOf
  split
  · simp; omega
  · split <;> simp <;> omega

/-- A POST's kind fields make a content exactly when they lie within the ranges of R44. -/
theorem contentOf_isSome (r : ContentReq) : (contentOf r).isSome = true ↔ kindInRange r := by
  cases r with
  | text chars font align =>
    have hf := index?_isSome 4 font
    have ha := alignOf_isSome align
    simp only [contentOf, kindInRange, ← textValid_iff, ← and_assoc, ← ha, ← Nat.lt_succ_iff (n := 3), ← hf]
    cases index? 4 font <;> cases alignOf align <;> simp
  | departures list firstRow rowCount rowFont badgeFont =>
    simp only [contentOf, kindInRange, ← Nat.lt_succ_iff (n := 15), ← Nat.lt_succ_iff (n := 3), ← index?_isSome]
    cases index? 16 list <;> cases index? 4 rowFont <;> cases index? 4 badgeFont <;> simp
  | ticker t => simp only [contentOf, kindInRange, Option.isSome_map, index?_isSome, Nat.lt_succ_iff]
  | clock font => simp only [contentOf, kindInRange, Option.isSome_map, index?_isSome, Nat.lt_succ_iff]
  | glyph font g =>
    simp only [contentOf, kindInRange, ← Nat.lt_succ_iff (n := 3), ← index?_isSome]
    cases index? 4 font <;> simp [index?_isSome, Nat.lt_succ_iff]
  | unknown code rest => simp [contentOf, kindInRange]

theorem holdOf_isSome (o : Option Nat) : (holdOf o).isSome = true ↔ ∀ h, o = some h → h ≤ 31 := by
  cases o <;> simp [holdOf, index?_isSome, Nat.lt_succ_iff]

/-- A POST describes a placard exactly when every value of it lies within its range. -/
theorem postedPlacard_isSome (p : PortId) (f : PostReq) : (postedPlacard p f).isSome = true ↔ postInRange f := by
  have hc := contentOf_isSome f.content
  have hb := backgroundOf_isSome f.background
  have hh := holdOf_isSome f.hold
  unfold postInRange
  rw [← hc, ← hh, ← windowOrdered_iff]
  simp only [postedPlacard, optOk_iff, decide_eq_true_eq]
  cases h : contentOf f.content <;> cases k : backgroundOf f.background <;> cases j : holdOf f.hold <;>
    simp only [k, Option.isSome_none, Option.isSome_some] at hb ⊢ <;> (try split) <;> simp_all

/-- An AMEND passes the checks that need no placard exactly when every value it carries lies within its range. -/
theorem amendValid_iff (f : AmendReq) : amendValid f = true ↔ amendInRange f := by
  have hs (c : Change) (n : Nat) : (∀ v, changeValue? c = some v → v ≤ n) ↔ ∀ v, c = .set v → v ≤ n := by
    cases c <;> simp [changeValue?]
  unfold amendValid amendInRange
  cases f.text <;>
    simp only [Bool.and_eq_true, textValid_iff, optOk_iff, decide_eq_true_eq, hs, Nat.lt_succ_iff, and_assoc,
      Option.some.injEq, forall_eq', reduceCtorEq, false_implies, implies_true, true_and]

/-! ## Response bodies of the reads, field by field -/

theorem Entry.bytes_eq (e : Entry) : e.bytes = entryBody e := by
  obtain ⟨_, _, _, _, st, f, _⟩ := e
  rcases st with _ | q | ⟨_ | q, a⟩ | t <;> cases f <;> rfl

theorem Placard.bytes_eq (n : PlacardId) (pl : Placard) : pl.bytes n = placardBody n pl := by
  obtain ⟨_, _, _, _, _, _, _, _, content, _, background, blink, invert, _, _, _, _, live⟩ := pl
  cases content <;> cases background <;> cases blink <;> cases invert <;> cases live <;>
    simp [Placard.bytes, placardBody, PlacardContent.bytes, bText, Placard.stateCode] <;> rfl

theorem Hold.bytes_eq (now : Nat) (k : Hold) : k.bytes now = holdBody now k := by
  obtain ⟨st, _, _, g⟩ := k
  cases st <;> cases g <;>
    simp [Hold.bytes, holdBody, Hold.owner, Hold.heir, Hold.deadline, HoldState.code, bOpt, bGroup, timeLeft]

theorem Panel.bytes_eq (now : Nat) (lanes : List LaneId) (q : Panel) : q.bytes now lanes = panelBody now lanes q := by
  have ht : timeLeft now = fun t => t - now := rfl
  obtain ⟨_, _, _, _, _, _, _, _, _, _, _, inFlight, ack, fullDemand, _, _, _, _, _, _⟩ := q
  cases inFlight <;> cases ack <;> cases fullDemand <;>
    simp [Panel.bytes, panelBody, Panel.definitionBytes, ackBytes, causeBody, CauseSet.bits, bOpt, bFlag, bList, ht,
      List.flatMap_map, Bool.cond_eq_ite]

theorem Ticker.bytes_eq (now : Nat) (k : Ticker) : k.bytes now = tickerBody now k := by
  obtain ⟨_, _, _, _, _, _, _, _, _, feeder, _⟩ := k
  cases feeder <;> simp [Ticker.bytes, tickerBody, Ticker.parameterBytes, bPort] <;> rfl

theorem Link.bytes_eq (now : Nat) (k : Link) : k.bytes now = linkBody now (bitRate k.divider) k := by
  have ht : timeLeft now = fun t => t - now := rfl
  obtain ⟨_, _, _, _, _, frame, probe, _, _, _, _, outcome, _, _, _, _⟩ := k
  rcases frame with _ | ⟨_, _, _ | _⟩ <;> cases probe <;> rcases outcome with _ | ⟨_, _⟩ <;>
    simp [Link.bytes, linkBody, outcomeBytes, bOpt, bFlag, bList, ht, leBytes, List.flatMap_map, Bool.cond_eq_ite, b1]

theorem Group.bytes_eq (now : Nat) (g : Group) : g.bytes now = groupBody now g := by
  obtain ⟨_, _, swap⟩ := g
  cases swap with
  | none => simp [Group.bytes, groupBody, panelBytes, bList, Group.stateCode, List.flatMap_map]
  | some k =>
    cases h : k.source <;>
      simp [Group.bytes, groupBody, panelBytes, bList, Group.stateCode, timeLeft, List.flatMap_map, Swap.arrived,
        ArmSource.bytes, b1, leBytes, h]

/-- The reported rate of a divider is the quotient or, where that is no whole number, the next above. -/
theorem bitRate_rounded (divider : Nat) (h : divider ≠ 0) : bitRate divider = 50000000 / divider ∨
    (50000000 % divider ≠ 0 ∧ bitRate divider = 50000000 / divider + 1) := by
  unfold bitRate
  rw [if_neg h]
  cases hr : decide (50000000 % divider ≠ 0) && Config.rateRoundedUp divider
  · exact Or.inl rfl
  · exact Or.inr ⟨by simpa using (Bool.and_eq_true_iff.1 hr).1, rfl⟩

/-! ## Figures recomputed by SETTINGS -/

theorem refigureList_eq (cd : Content × Delivery) (l : ListId) :
    refigureList cd l = (cd.1.setList l ((cd.1.lists[l]).map (cd.1.refigure false none)),
      if (cd.1.lists[l]).map (cd.1.refigure false none) ≠ cd.1.lists[l] then raiseList cd.1.board .figure l cd.2
      else cd.2) := by
  simp [refigureList, raiseListChange]

/-! ## Entries in the order of their keys (R4, R5) -/

theorem Entry.before_trans {a b c : Entry} (h : a.before b = true) (k : b.before c = true) : a.before c = true := by
  simp only [Entry.before, decide_eq_true_eq] at *
  omega

theorem Entry.before_asymm {a b : Entry} (h : a.before b = true) : b.before a = false := by
  simp only [Entry.before, decide_eq_true_eq, decide_eq_false_iff_not] at *
  omega

/-- Two keys are never equal when the trips are not (R6). -/
theorem Entry.before_total {a b : Entry} (h : a.trip ≠ b.trip) (k : a.before b = false) : b.before a = true := by
  simp only [Entry.before, decide_eq_true_eq, decide_eq_false_iff_not] at *
  omega

theorem mem_placeEntry (e x : Entry) : ∀ es : List Entry, x ∈ placeEntry e es ↔ x = e ∨ x ∈ es
  | [] => by simp [placeEntry]
  | y :: ys => by
    unfold placeEntry
    split
    · simp
    · simp only [List.mem_cons, mem_placeEntry e x ys]
      exact or_left_comm

/-- An entry placed into a list in order stands where its key requires (R5, R6). -/
theorem placeEntry_ordered (e : Entry) : ∀ es : List Entry, es.Pairwise (fun a b => a.before b = true) →
    (∀ x ∈ es, x.trip ≠ e.trip) → (placeEntry e es).Pairwise (fun a b => a.before b = true)
  | [], _, _ => List.pairwise_singleton _ _
  | y :: ys, h, k => by
    obtain ⟨hy, hys⟩ := List.pairwise_cons.1 h
    unfold placeEntry
    split
    · next c =>
      refine List.pairwise_cons.2 ⟨fun x hx => ?_, h⟩
      rcases List.mem_cons.1 hx with rfl | hx
      · exact c
      · exact Entry.before_trans c (hy x hx)
    · next c =>
      refine List.pairwise_cons.2 ⟨fun x hx => ?_,
        placeEntry_ordered e ys hys (fun x hx => k x (List.mem_cons_of_mem _ hx))⟩
      rcases (mem_placeEntry e x ys).1 hx with rfl | hx
      · exact Entry.before_total (k y List.mem_cons_self).symm (Bool.eq_false_iff.2 c)
      · exact hy x hx

/-- A list in order takes an entry between two of its parts exactly when the key requires that place. -/
theorem placeEntry_between (e : Entry) (below : List Entry) : ∀ above : List Entry,
    (above ++ below).Pairwise (fun a b => a.before b = true) → (∀ x ∈ above ++ below, x.trip ≠ e.trip) →
    (tripsOf (placeEntry e (above ++ below)) = tripsOf (above ++ e :: below) ↔
      (∀ x ∈ above, e.before x = false) ∧ ∀ x ∈ below, e.before x = true)
  | [], h, k => by
    cases below with
    | nil => simp [placeEntry]
    | cons y ys =>
      obtain ⟨hy, -⟩ := List.pairwise_cons.1 h
      have key : y.trip ≠ e.trip := k y List.mem_cons_self
      simp only [List.nil_append, placeEntry]
      split
      · next c => simpa using ⟨c, fun x hx => Entry.before_trans c (hy x hx)⟩
      · next c => simp [tripsOf, key, c]
  | a :: as, h, k => by
    have key : e.trip ≠ a.trip := (k a List.mem_cons_self).symm
    have ih := placeEntry_between e below as (List.pairwise_cons.1 h).2 (fun x hx => k x (List.mem_cons_of_mem _ hx))
    simp only [List.cons_append, placeEntry]
    split
    · next c => simp [tripsOf, key, c]
    · next c =>
      simp only [tripsOf, List.map_cons, List.cons.injEq, true_and, List.forall_mem_cons, Bool.eq_false_iff.2 c] at ih ⊢
      exact ih

theorem removeTrip_split (e : Entry) (above below : List Entry)
    (h : (above ++ e :: below).Pairwise (fun a b => a.trip ≠ b.trip)) :
    removeTrip e.trip (above ++ e :: below) = above ++ below := by
  obtain ⟨-, hb, ha⟩ := List.pairwise_append.1 h
  have keepBelow : below.filter (fun x => decide (x.trip ≠ e.trip)) = below :=
    List.filter_eq_self.2 (fun x hx => decide_eq_true ((List.pairwise_cons.1 hb).1 x hx).symm)
  have keepAbove : above.filter (fun x => decide (x.trip ≠ e.trip)) = above :=
    List.filter_eq_self.2 (fun x hx => decide_eq_true (ha x hx e List.mem_cons_self))
  rw [removeTrip, List.filter_append, List.filter_cons, keepAbove, keepBelow]
  simp

/-- A key change is a reorder exactly when the entry comes to stand on the other side of another one (R5). -/
theorem moveEntry_reorders (e new : Entry) (above below : List Entry) (h : listOk (above ++ e :: below))
    (ht : new.trip = e.trip) : (moveEntry e new (above ++ e :: below)).2 = true ↔
      ∃ x ∈ above ++ below, e.before x ≠ new.before x := by
  obtain ⟨-, ordered⟩ := h
  have trips : (above ++ e :: below).Pairwise (fun a b => a.trip ≠ b.trip) := ordered.imp (fun x => x.2)
  obtain ⟨-, hb, ha⟩ := List.pairwise_append.1 ordered
  have toBelow : ∀ x ∈ below, e.before x = true ∧ e.trip ≠ x.trip := (List.pairwise_cons.1 hb).1
  have toAbove : ∀ x ∈ above, x.before e = true ∧ x.trip ≠ e.trip := fun x hx => ha x hx e List.mem_cons_self
  have rest : (above ++ below).Pairwise (fun a b => a.before b = true) :=
    (ordered.imp (fun x => x.1)).sublist ((List.sublist_cons_self e below).append_left above)
  have others : ∀ x ∈ above ++ below, x.trip ≠ new.trip := fun x hx => by
    rw [ht]
    rcases List.mem_append.1 hx with hx | hx
    · exact (toAbove x hx).2
    · exact (toBelow x hx).2.symm
  have place := placeEntry_between new below above rest others
  have same : tripsOf (above ++ new :: below) = tripsOf (above ++ e :: below) := by simp [tripsOf, ht]
  simp only [moveEntry, removeTrip_split e above below trips, decide_eq_true_eq]
  rw [← same, ne_eq, place]
  constructor
  · intro n
    by_contra none
    have stays : ∀ x ∈ above ++ below, e.before x = new.before x := fun x hx =>
      Decidable.not_not.1 (fun differ => none ⟨x, hx, differ⟩)
    refine n ⟨fun x hx => ?_, fun x hx => ?_⟩
    · rw [← stays x (List.mem_append_left _ hx), Entry.before_asymm (toAbove x hx).1]
    · rw [← stays x (List.mem_append_right _ hx), (toBelow x hx).1]
  · rintro ⟨x, hx, differ⟩ ⟨stayAbove, stayBelow⟩
    rcases List.mem_append.1 hx with hx | hx
    · exact differ (by rw [stayAbove x hx, Entry.before_asymm (toAbove x hx).1])
    · exact differ (by rw [stayBelow x hx, (toBelow x hx).1])

end Sys2Proof.Machine
end

