-- ==== Sys2Proof/Tests/Slice0.lean ====
section
/-! SUPPORT. Tests: the well-formedness checks refuse, requests as frames, one step of every command on a small state, and
for every statement of Obligations.lean states and operands that meet its hypotheses, clause by clause. -/

namespace Sys2Proof.Tests

open Sys2Proof Sys2Proof.Machine

set_option Elab.async false

/-! ## The form of a command (Sys2Proof/WellFormed.lean) -/

/-- A POST of a text, for FP0, to the panels whose address begins 1h, on every row of layer 1. -/
def aPost : PostReq :=
  ⟨0x10, 0xF0, 0, 128, 0, 8, 1, .text [1, 2] 0 0, 3, 0, 0, none, none, none⟩

/-- An AMEND that carries nothing. -/
def noAmend : AmendReq :=
  ⟨none, none, none, none, none, none, none, none, none, none, none, none, none, none, none, none, none, none, none, none,
    .keep, .keep, .keep⟩

theorem test_wellFormed_accepts : (Instr.post 0 aPost).wellFormed = true ∧ (Instr.depPut 3 15 16777215 63 127 107999).wellFormed = true ∧
    (Instr.take 0 255 31 60).wellFormed = true := by decide +kernel

theorem test_wellFormed_refuses_a_value_wider_than_its_field : (Instr.depPut 0 300 1 1 1 1).wellFormed = false ∧
    (Instr.depPut 0 0 16777216 1 1 1).wellFormed = false := by decide +kernel

theorem test_wellFormed_refuses_a_body_above_596_bytes :
    (Instr.glyphLoad 0 0 [⟨1, 1, List.replicate 592 0⟩]).wellFormed = false := by decide +kernel

theorem test_wellFormed_refuses_a_tag_above_its_byte : (Instr.take 0 256 0 0).wellFormed = false ∧
    (Instr.confirmShown 0 256 0 1).wellFormed = false := by decide +kernel

theorem test_wellFormed_refuses_an_unknown_kind_with_a_known_code_or_no_end :
    (Instr.post 0 { aPost with content := .unknown 4 [0, 0, 0, 0, 0, 0] }).wellFormed = false ∧
    (Instr.post 0 { aPost with content := .unknown 5 [0, 0, 0, 0, 0] }).wellFormed = false := by decide +kernel

theorem test_wellFormed_refuses_another_reply : (Instr.ack 0 (cleanRx [0xC1])).wellFormed = false ∧
    (Instr.nak 0 (cleanRx [0xC0])).wellFormed = false ∧ (Instr.ident 0 []).wellFormed = false := by decide +kernel

/-! ## Requests as frames (13_message_and_frame_layouts.md), bytes written out -/

/-- The heights of the four fonts after RESETn. -/
def heights : List Nat := [8, 8, 8, 8]

theorem test_frame_boardRead : judgeFrame 1 heights [0x34, 0x00, 0x01, 0x00, 0x07] = .request (.boardRead 1 7) := by
  decide +kernel

theorem test_frame_take : judgeFrame 2 heights [0x40, 0x09, 0x02, 0x00, 0x1F, 0x3C, 0xAA] = .request (.take 2 9 31 60) := by
  decide +kernel

theorem test_frame_depPut : judgeFrame 0 heights
    [0x10, 0x00, 0x09, 0x00, 0x02, 0x56, 0x34, 0x12, 0x05, 0x7F, 0x10, 0x0E, 0x00] =
    .request (.depPut 0 2 0x123456 5 127 3600) := by decide +kernel

theorem test_frame_panelDefine : judgeFrame 0 heights
    [0x50, 0x00, 0x0A, 0x00, 0x00, 0x12, 0x00, 0x03, 0x01, 0x80, 0x00, 0x10, 0x01, 0x00] =
    .request (.panelDefine 0 0 0x12 0 3 1 128 16 1 0) := by decide +kernel

theorem test_frame_ending_early_is_bad : judgeFrame 0 heights [0x34, 0x05, 0x02, 0x00, 0x07] = .badFrame 0x34 0x05 ∧
    judgeFrame 0 heights [0x34] = .badFrame 0x34 0x00 ∧ judgeFrame 0 heights [0x99, 0x01, 0x00, 0x00] = .badFrame 0x99 0x01 ∧
    judgeFrame 0 heights [0x00, 0x01] = .emptyPoll ∧ judgeFrame 0 heights [0xFF] = .emptyPoll := by decide +kernel

/-- A GLYPH_LOAD into font 4: bytes after no entries, an entry cut off, two entries of one column each at height 8. -/
theorem test_frame_glyphLoad_without_a_font_of_that_number :
    judgeFrame 0 heights [0x61, 0x00, 0x03, 0x00, 0x04, 0x00, 0x07] = .badFrame 0x61 0x00 ∧
    judgeFrame 0 heights [0x61, 0x00, 0x04, 0x00, 0x04, 0x01, 0x41, 0x00] = .badFrame 0x61 0x00 ∧
    judgeFrame 0 heights [0x61, 0x00, 0x0A, 0x00, 0x04, 0x02, 0x41, 0x00, 0x01, 0xAA, 0x42, 0x00, 0x01, 0x55] =
      .request (.glyphLoad 0 4 [⟨0x41, 1, [0xAA]⟩, ⟨0x42, 1, [0x55]⟩]) := by decide +kernel

/-- A POST of kind 5, cut off after its kind code, and with a foreground, a background, flags and three absent fields. -/
theorem test_frame_post_of_an_unknown_kind :
    judgeFrame 0 heights [0x30, 0x00, 0x0A, 0x00, 0, 0, 0, 0, 0, 0, 0, 0, 1, 5] = .badFrame 0x30 0x00 ∧
    judgeFrame 0 heights [0x30, 0x00, 0x10, 0x00, 0, 0, 0, 0, 0, 0, 0, 0, 1, 5, 3, 0, 0, 0, 0, 0] =
      .request (.post 0 ⟨0, 0, 0, 0, 0, 0, 1, .unknown 5 [3, 0, 0, 0, 0, 0], 0, 0, 0, none, none, none⟩) := by decide +kernel

/-! ## Small states -/

/-- The state a command leaves. -/
def after (i : Instr) (s : State) : State :=
  match exec i s with
  | .next t => t
  | .fault _ => s
  | .refused _ => s

/-- Status code and body of the first frame in a port's response queue. -/
def firstReply (p : PortId) (s : State) : Option (Byte × List Byte) :=
  (s.delivery.ports[p]).responses.head?.map (fun f => (f.code, f.body))

/-- The response a request gets on a state whose response queue is empty. -/
def reply (p : PortId) (i : Instr) (s : State) : Option (Byte × List Byte) := firstReply p (after i s)

/-- Only FP0 has rank SUPERVISOR. -/
abbrev base : State := State.reset

def onContent (f : Content → Content) (s : State) : State := { s with content := f s.content }
def onWorks (f : Works → Works) (s : State) : State := { s with delivery := s.delivery.mapWorks f }
def onPort (p : PortId) (f : Port → Port) (s : State) : State := { s with delivery := s.delivery.mapPort p f }
def withList (l : ListId) (es : List Entry) : State → State := onContent (Content.setList l es)
def withClock (k : Clock) : State → State := onContent (fun c => { c with clock := k })
def withHold (h : HoldId) (k : Hold) : State → State := onContent (Content.setHold h k)
def withTicker (t : TickerId) (k : Ticker) : State → State :=
  onContent (fun c => { c with tickers := c.tickers.set t k })
def withFont (f : FontId) (k : Font) : State → State :=
  onContent (fun c => { c with typeStore := { c.typeStore with fonts := c.typeStore.fonts.set f k } })
def withPanel (p : PanelId) (q : Panel) : State → State := onWorks (Works.setPanel p q)
def withLink (l : LinkId) (k : Link) : State → State := onWorks (Works.setLink l k)
def withLane (n : LaneId) (k : Lane) : State → State := onWorks (fun w => { w with lanes := w.lanes.set n k })
def withGroup (g : GroupId) (k : Group) (s : State) : State :=
  { s with delivery := { s.delivery with groups := s.delivery.groups.set g k } }
/-- The only placard. -/
def withPlacard (n : PlacardId) (pl : Placard) : State → State := onContent (fun c => { c with board :=
  ⟨c.board.placards.set n (some pl), [n], pl.content.cells, 5⟩ })
def withTag (p : PortId) (tag : Tag) (r : TagRecord) : State → State :=
  onPort p (fun pt => { pt with tags := pt.tags.set tag r })
/-- A confirmation in progress, with its tag outstanding. -/
def withConfirmation (k : Confirmation) (s : State) : State :=
  withTag k.port k.tag .confirm { s with delivery := { s.delivery with confirmations := [k] } }

/-- A PLANNED entry of line 5 to destination 1, with the figure it has while the clock is UNSET. -/
def entry (trip scheduled : Nat) : Entry :=
  ⟨trip, 5, 1, scheduled, .planned, .clock (scheduled / 3600 % 24) (scheduled % 3600 / 60), 0⟩

/-- Twelve entries, trips 1 to 12. -/
def twelve : List Entry := (List.range 12).map (fun n => entry (n + 1) (3600 + 60 * n))

/-- A CANCELLED entry. -/
def cancelledEntry : Entry := { entry 9 3600 with state := .cancelled 7200, figure := .cancelled }

/-- A TEXT placard of FP0 with two characters, generation 5. -/
def placard : Placard :=
  ⟨0, 0x10, 0xF0, 0, 128, 0, 8, 1, .text [1, 2] 0 .left, 3, some 0, false, false, none, none, none, 5, true⟩

/-- A ROWS panel, 128 by 16, at drop 3 of L0, with address 12h. -/
def panel (st : PanelState) : Panel :=
  ⟨0x12, 0, 3, .rows, 128, 16, 1, 0, st, CauseSet.none, CauseSet.none, none, none, true, 0, none, none, none, false, 8⟩

/-- A panel in SENDING with the causes of its frame in flight. -/
def sendingPanel : Panel := { panel .sending with inFlight := some ⟨true, false, false, false, false, false, false, false, false⟩ }

/-- L0 enabled at 25 Mbit/s. -/
def idleLink : Link := { Link.reset with state := .idle, divider := 2 }

/-- A frame of panel 0 whose coding has ended. -/
def frameRecord : FrameRecord := ⟨0, 3, none, [1, 2], 0x00BA, 5, true, false, true, true, false⟩

/-- L0 RESERVED for panel 0 with a frame that may start. -/
def readyLink : Link := { idleLink with state := .reserved, fifo := [0x00, 0x01], frame := some frameRecord }

/-- L0 sending frame 9 of panel 0. -/
def streamingLink : Link := { readyLink with state := .streaming, line := .frame, frame := some { frameRecord with number := some 9 } }

/-- L0 waiting for the reply to frame 9 of panel 0. -/
def waitingLink : Link := { streamingLink with state := .awaitingReply, line := .released, fifo := [], wait := some 20 }

/-- L0 probing panel 0. -/
def probingLink : Link := { idleLink with state := .probing, line := .probe, probe := some ⟨0, 3, .rows, 128, 16⟩ }

/-- Panel 0 OFFLINE with its probe due. -/
def dueState : State := withPanel 0 { panel .offline with probeDue := some 0 } (withLink 0 idleLink base)

/-- Panel 0 waiting for an IDENT. -/
def probedState : State :=
  withPanel 0 { panel .offline with probeDue := some 5000, probeMark := true }
    (withLink 0 { probingLink with line := .released, wait := some 20 } base)

/-- The context of panel 0. -/
def copy : Context := ⟨0, .rows, 128, 16, 0, 3, 2, none, true⟩

/-- Lane 0 LOADING for panel 0, with the cause CONTENT. -/
def loadingLane : Lane :=
  { Lane.free with state := .loading, panel := some 0, work := ⟨true, false, false, false, false, false, false, false, false⟩ }

/-- Lane 0 WORKING on strip 0 of panel 0. -/
def workingLane : Lane :=
  { loadingLane with state := .working, context := some copy, frame := some ⟨5, false, false, [], [], true, false⟩ }

/-- Lane 0 with both strips coded. -/
def codedLane : Lane :=
  { workingLane with nextStrip := 1, frame := some ⟨5, false, true, [1, 2], [.coded, .coded], false, false⟩ }

/-- Panel 0 LOADED with a lane, L0 reserved for it. -/
def servedState (n : Lane) : State := withPanel 0 (panel .loaded) (withLink 0
  { idleLink with state := .reserved, frame := some ⟨0, 3, none, [], 0, 0, false, false, false, false, false⟩ } (withLane 0 n base))

/-- Panel 0 SENDING frame 9, its reply awaited. -/
def repliedState : State := withPanel 0 sendingPanel (withLink 0 waitingLink base)

/-- A ticker RUNNING with two characters. -/
def runningTicker : Ticker := ⟨.running, 0, 128, 50, 1, 1, [65, 66], 0, 0, some 1, some 50⟩

/-- A swap of the members 0 and 1 armed by FP0, nothing arrived. -/
def armed : Swap := ⟨.port 0, [0, 1], [], [], 2000⟩

/-! ## One step of every command -/

theorem test_resetn : let t := after (.resetn false true false true) (withClock ⟨99, .running, 0⟩ base)
    (t.delivery.ports[(1 : PortId)]).rank = .supervisor ∧ (t.delivery.ports[(0 : PortId)]).rank = .feed ∧
      t.content.clock = ⟨0, .unset, 0⟩ := by decide +kernel

theorem test_resetnLow : (after .resetnLow base).resetIsLow = true := by decide +kernel

theorem test_transfer_receives_a_request :
    ((after (.transfer 1 ([0x34, 0x00, 0x01, 0x00, 0x07].flatMap bitsOfByte ++ [true])) base).delivery.ports[(1 : PortId)]).requests =
      [.boardRead 1 7] := by decide +kernel

theorem test_transfer_shifts_out_the_head : let s := after (.clockRead 1) base
    (((after (.transfer 1 (List.replicate 8 false)) s).delivery.ports[(1 : PortId)]).fdo = bitsOfByte 0x01) ∧
      ((after (.transfer 1 (List.replicate 200 false)) s).delivery.ports[(1 : PortId)]).responses = [] := by decide +kernel

theorem test_depPut : reply 1 (.depPut 1 2 7 5 1 3600) base = some (0x00, [0x00]) ∧
    (after (.depPut 1 2 7 5 1 3600) base).content.lists[(2 : ListId)] = [{ entry 7 3600 with source := 1 }] ∧
    reply 1 (.depPut 1 2 99 5 1 90000) (withList 2 twelve base) = some (0x0A, []) := by decide +kernel

theorem test_depPredict : (after (.depPredict 0 2 9 200000) (withList 2 [entry 9 3600] base)).content.lists[(2 : ListId)] =
    [{ entry 9 3600 with state := .tracked ⟨107999, 0⟩, figure := .clock 5 59 }] := by decide +kernel

theorem test_depArrive : (after (.depArrive 0 2 9) (withList 2 [entry 9 3600] base)).content.lists[(2 : ListId)] =
    [{ entry 9 3600 with state := .arrived none 0, figure := .atPlatform }] := by decide +kernel

theorem test_depDepart : (after (.depDepart 0 2 3) (withList 2 twelve base)).content.lists[(2 : ListId)] =
    twelve.take 2 ++ twelve.drop 3 ∧ reply 0 (.depDepart 0 2 13) (withList 2 twelve base) = some (0x08, []) := by
  decide +kernel

theorem test_depCancel : (after (.depCancel 0 2 9) (withList 2 [entry 9 3600] base)).content.lists[(2 : ListId)] =
    [{ entry 9 3600 with state := .cancelled 3720, figure := .cancelled }] := by decide +kernel

theorem test_depRead : reply 3 (.depRead 3 2) base = some (0x00, [0]) := by decide +kernel

theorem test_destSet : (after (.destSet 0 127 [1, 511]) base).content.destinations[(127 : Fin 128)] = [1, 511] ∧
    reply 0 (.destSet 0 0 [512]) base = some (0x04, []) := by decide +kernel

theorem test_clockSet : reply 1 (.clockSet 1 9000000) base = some (0x00, [0x03, 0x40, 0x54, 0x89, 0x00, 0x01]) ∧
    reply 1 (.clockSet 1 300) (withClock ⟨100, .running, 0⟩ base) = some (0x00, [0x04, 100, 0, 0, 0, 2]) := by decide +kernel

theorem test_newDay : reply 0 (.newDay 0 0) (withList 2 twelve base) = some (0x00, [0, 0, 0, 0, 1]) ∧
    reply 1 (.newDay 1 0) base = some (0x05, []) := by decide +kernel

theorem test_clockRead : reply 1 (.clockRead 1) (withClock ⟨100, .slewing, -1⟩ base) =
    some (0x00, [100, 0, 0, 0, 1, 0, 0, 2, 0xFF, 0xFF]) := by decide +kernel

theorem test_settings : reply 0 (.settings 0 [(0, 200), (4, 0)]) base = some (0x00, [2, 0, 99, 0, 4, 0, 0]) ∧
    reply 0 (.settings 0 [(0, 20), (6, 0)]) base = some (0x04, []) := by decide +kernel

/-- List 2 drawn on panel 0 while it is 01:00:00, an entry at 02:00 in clock form. -/
def settingState : State := withClock ⟨360000, .running, 0⟩ (withList 2 [entry 1 7200] (withPanel 0
  { panel .parked with interest := { CauseSet.none with figure := true } }
  (withPlacard 7 { placard with content := .departures 2 0 1 0 0 } base)))

/-- The horizon raised to an hour recomputes the figure and raises FIGURE. -/
theorem test_settings_recomputes_figures : let t := after (.settings 0 [(0, 60)]) settingState
    (t.content.lists[(2 : ListId)]).map Entry.figure = [.minutes 60] ∧
      (t.delivery.works.panels[(0 : PanelId)]).map (fun q => (q.wake, q.state)) =
        some (CauseSet.none.insert .figure, .ready) := by decide +kernel

theorem test_post : reply 0 (.post 0 aPost) base = some (0x00, [0, 0x01, 1, 0, 0, 0]) ∧
    (after (.post 0 aPost) base).content.board.placards[(0 : PlacardId)] = some { placard with generation := 1 } := by decide +kernel

theorem test_amend : let t := after (.amend 0 7 { noAmend with layer := some 2, flags := some 3 }) (withPlacard 7 placard base)
    firstReply 0 t = some (0x00, [6, 0, 0, 0, 0x01]) ∧ t.content.board.placards[(7 : PlacardId)] =
      some { placard with layer := 2, blink := true, invert := true, generation := 6 } := by decide +kernel

theorem test_textSet : let t := after (.textSet 0 7 [9]) (withPlacard 7 placard base)
    firstReply 0 t = some (0x00, [6, 0, 0, 0]) ∧ t.content.board.placards[(7 : PlacardId)] =
      some { placard with content := .text [9] 0 .left, generation := 6 } := by decide +kernel

theorem test_withdraw : (after (.withdraw 0 7) (withPlacard 7 placard base)).content.board.placards[(7 : PlacardId)] = none ∧
    reply 1 (.withdraw 1 7) (withPlacard 7 placard base) = some (0x06, []) := by decide +kernel

theorem test_boardRead : reply 0 (.boardRead 0 191) base = some (0x00, [0, 0, 0, 0, 0]) := by decide +kernel

theorem test_confirmShown : let t := after (.confirmShown 0 3 7 0) (withPlacard 7 placard base)
    (t.delivery.ports[(0 : PortId)]).responses = [⟨0x01, 0x35, 0x01, 3, [1]⟩, ⟨0x02, 0x35, 0x00, 3, [0]⟩] := by decide +kernel

theorem test_take : reply 1 (.take 1 0 2 0) base = some (0x00, [0x01]) ∧
    ((after (.take 1 0 2 0) base).content.holds[(2 : HoldId)]).state = .taken 1 20000 ∧
    reply 1 (.take 1 0 2 0) (withHold 2 ⟨.taken 0 20000, [], 20, none⟩ base) = some (0x02, [0]) := by decide +kernel

theorem test_release : reply 0 (.release 0 2) (withHold 2 ⟨.taken 0 20000, [], 20, none⟩ base) = some (0x00, [0x00, 0xFF]) ∧
    reply 1 (.release 1 2) (withHold 2 ⟨.taken 0 20000, [], 20, none⟩ base) = some (0x06, []) := by decide +kernel

theorem test_handover : let t := after (.handover 0 2 3) (withHold 2 ⟨.taken 0 20000, [], 20, none⟩ base)
    firstReply 0 t = some (0x00, [0x02, 0, 3]) ∧ (t.content.holds[(2 : HoldId)]).state = .handed 0 3 20000 := by decide +kernel

theorem test_holdSetup : reply 0 (.holdSetup 0 2 0 255) base = some (0x00, [1, 0xFF]) ∧
    reply 0 (.holdSetup 0 2 200 7) base = some (0x00, [120, 7]) := by decide +kernel

theorem test_holdRead : reply 3 (.holdRead 3 2) (withHold 2 ⟨.taken 0 20000, [⟨1, 4, 5000⟩], 20, some 7⟩ base) =
    some (0x00, [1, 1, 0, 0, 20, 1, 0x20, 0x4E, 0, 0, 7, 1, 1, 0x88, 0x13, 0, 0]) := by decide +kernel

theorem test_holdExpiry : let t := after (.holdExpiry 2) (withHold 2 ⟨.taken 0 20000, [], 20, none⟩ base)
    (t.content.holds[(2 : HoldId)]).state = .empty ∧
      (t.delivery.ports[(0 : PortId)]).notices[(2 : Fin 10)] = some ⟨.holdExpired 2, 1⟩ := by decide +kernel

/-- FP1 waits for hold 2, that FP0 owns. -/
def waitingState : State := withTag 1 4 (.take 2) (withHold 2 ⟨.taken 0 20000, [⟨1, 4, 5000⟩], 20, none⟩ base)

theorem test_waitTimeout : let t := after (.waitTimeout 2 1) waitingState
    (t.delivery.ports[(1 : PortId)]).responses = [⟨0x02, 0x40, 0x0E, 4, [2]⟩] ∧
      (t.content.holds[(2 : HoldId)]).waiters = [] := by decide +kernel

theorem test_panelDefine : let t := after (.panelDefine 0 0 0x12 0 3 1 128 16 1 0) base
    firstReply 0 t = some (0x00, [0x12, 0, 3, 1, 128, 0, 16, 1, 0]) ∧
      t.delivery.works.panels[(0 : PanelId)] = some { panel .offline with lastFrame := 0 } := by decide +kernel

theorem test_panelRemove : (after (.panelRemove 0 0) (withPanel 0 (panel .parked) base)).delivery.works.panels[(0 : PanelId)] = none := by
  decide +kernel

theorem test_panelRestore : reply 0 (.panelRestore 0 0) (withPanel 0 (panel .parked) base) = some (0x0C, []) ∧
    ((after (.panelRestore 0 0) (withPanel 0 (panel .isolated) base)).delivery.works.panels[(0 : PanelId)]).map Panel.state =
      some .offline := by decide +kernel

theorem test_panelRead : reply 1 (.panelRead 1 0) base = some (0x00, [0]) := by decide +kernel

theorem test_fontSetup : reply 0 (.fontSetup 0 3 16) base = some (0x00, [16]) ∧ reply 0 (.fontSetup 0 3 9) base = some (0x04, []) := by
  decide +kernel

theorem test_glyphLoad : let t := after (.glyphLoad 0 1 [⟨65, 2, [0xAA, 0x55]⟩]) base
    firstReply 0 t = some (0x00, [1, 0xFE, 0x3F]) ∧
      t.content.typeStore.fonts[(1 : FontId)] = ⟨8, [0xAA, 0x55], [(65, ⟨2, 0⟩)]⟩ := by decide +kernel

theorem test_tokenSet : (after (.tokenSet 0 0 [68, 85]) base).content.typeStore.tokens[(0 : FontId)] = [68, 85] := by decide +kernel

theorem test_tickerSetup : reply 0 (.tickerSetup 0 0 1 4 255 9 300) base = some (0x00, [1, 8, 0, 200, 4, 0, 0]) := by decide +kernel

theorem test_tickerFeed : let s := after (.tickerSetup 0 0 0 128 50 1 1) base
    let t := after (.tickerFeed 1 0 [65, 66]) s
    firstReply 1 t = some (0x00, [2, 2, 0]) ∧
      t.content.tickers[(0 : TickerId)] = { runningTicker with offset := -128 } := by decide +kernel

theorem test_tickerFlush : reply 1 (.tickerFlush 1 0) (withTicker 0 runningTicker base) = some (0x00, [2, 0]) ∧
    reply 1 (.tickerFlush 1 1) base = some (0x0C, []) := by decide +kernel

theorem test_tickerRead : (reply 1 (.tickerRead 1 0) (withTicker 0 runningTicker base)).map Prod.fst = some 0x00 := by decide +kernel

theorem test_scrollStep : let t := after (.scrollStep 0) (withTicker 0 runningTicker base)
    t.content.tickers[(0 : TickerId)] = { runningTicker with chars := [66], head := 1, deadline := some 100 } ∧
      (t.delivery.ports[(1 : PortId)]).notices[(8 : Fin 10)] = some ⟨.tickerLow 0, 1⟩ := by decide +kernel

theorem test_linkSetup : reply 0 (.linkSetup 0 0 5 0 100) base = some (0x00, [4, 0, 1, 64, 0]) ∧
    reply 0 (.linkSetup 0 0 5 0 100) (withLink 0 idleLink base) = some (0x0C, []) := by decide +kernel

theorem test_linkEnable : reply 0 (.linkEnable 0 0) base = some (0x0C, []) ∧
    ((after (.linkEnable 0 0) (withLink 0 { Link.reset with divider := 2 } base)).delivery.works.links[(0 : LinkId)]).state =
      .idle := by decide +kernel

theorem test_linkDisable : ((after (.linkDisable 0 0) (withLink 0 idleLink base)).delivery.works.links[(0 : LinkId)]).state =
    .disabled := by decide +kernel

theorem test_linkRead : reply 1 (.linkRead 1 0) (withLink 0 idleLink base) =
    some (0x00, [1, 2, 0, 0x40, 0x78, 0x7D, 0x01, 20, 0, 1, 0, 0, 0, 0, 0, 0, 7, 0, 0, 0]) := by decide +kernel

theorem test_groupSetup : reply 0 (.groupSetup 0 2 [5, 3] 0) base = some (0x00, [2, 3, 5, 1]) ∧
    reply 0 (.groupSetup 0 2 [64] 0) base = some (0x04, []) := by decide +kernel

theorem test_groupArm : reply 1 (.groupArm 1 2) base = some (0x0C, []) ∧
    reply 1 (.groupArm 1 2) (withPanel 5 (panel .parked) (withGroup 2 ⟨[5], 20, none⟩ base)) = some (0x00, [1, 0x01]) := by
  decide +kernel

theorem test_groupRead : (reply 1 (.groupRead 1 2) base).map Prod.fst = some 0x00 := by decide +kernel

theorem test_groupDeadline : let t := after (.groupDeadline 2) (withGroup 2 ⟨[0, 1], 20, some armed⟩ base)
    (t.delivery.groups[(2 : GroupId)]).swap = none ∧
      (t.delivery.ports[(0 : PortId)]).notices[(3 : Fin 10)] = some ⟨.swapIncomplete 2 2, 1⟩ := by decide +kernel

theorem test_cancelSplit : reply 1 (.cancelSplit 1 4) base = some (0x08, []) ∧
    reply 1 (.cancelSplit 1 4) (withTag 1 4 .ended base) = some (0x00, [0x08]) := by decide +kernel

theorem test_noticeTake : reply 1 (.noticeTake 1) base = some (0x00, [0]) ∧
    reply 1 (.noticeTake 1) (onPort 1 (Port.record (.listEvict 2 0x123456)) base) =
      some (0x00, [1, 5, 1, 2, 0x56, 0x34, 0x12]) := by decide +kernel

theorem test_noticeMask : reply 1 (.noticeMask 1 0x0400) base = some (0x04, []) ∧
    ((after (.noticeMask 1 0x03FF) base).delivery.ports[(1 : PortId)]).mask = 0x3FF := by decide +kernel

theorem test_partStatus : (reply 1 (.partStatus 1) base).map Prod.fst = some 0x00 := by decide +kernel

theorem test_boardClear : reply 0 (.boardClear 0) base = some (0x00, []) ∧ reply 1 (.boardClear 1) base = some (0x05, []) := by
  decide +kernel

theorem test_countInterval : (after .countInterval (withClock ⟨99, .running, 0⟩ base)).content.clock = ⟨100, .running, 0⟩ ∧
    (after .countInterval (withClock ⟨99, .slewing, 1⟩ base)).content.clock = ⟨101, .running, 0⟩ := by decide +kernel

/-- Trips 1 and 2, scheduled at 300 and 400 and expected at 100 and 200, their predictions made at second 0. -/
def fadingList : List Entry :=
  [{ entry 1 300 with state := .tracked ⟨100, 0⟩ }, { entry 2 400 with state := .tracked ⟨200, 0⟩ }]

/-- The two predictions go stale in one pass: trip 1 moves below trip 2, then trip 2 moves below trip 1. Each move is a
reorder (R5), though the list reads as before. -/
theorem test_moves_that_cancel_out_are_reorders : passChecks Settings.reset 2 301 fadingList = ([entry 1 300, entry 2 400], true) ∧
    (after .countInterval (withClock ⟨30099, .running, 0⟩ (withList 2 fadingList (withPanel 0 (panel .parked)
      (withPlacard 7 { placard with content := .departures 2 0 1 0 0 } base))))).delivery.works.panels[(0 : PanelId)].map
        (fun q => q.wake.content) = some true := by decide +kernel

/-- A confirmation of placard 7 by FP0, with panel 0 not confirmed. -/
def confirmingState : State := withPanel 0 (panel .ready) (withConfirmation ⟨0, 3, 7, 1000⟩ (withPlacard 7 placard base))

theorem test_confirmDeadline : let t := after (.confirmDeadline 0 3) confirmingState
    (t.delivery.ports[(0 : PortId)]).responses = [⟨0x02, 0x35, 0x0E, 3, [0, 1, 0]⟩] := by decide +kernel

theorem test_holdoffEnd : (after (.holdoffEnd 0) (withPanel 0 { panel .parked with holdoff := some 100 } base)).delivery.works.panels[(0 : PanelId)] =
    some { panel .ready with wake := CauseSet.none.insert .retry } := by decide +kernel

theorem test_refreshDeadline : (after (.refreshDeadline 0) (withPanel 0
      { panel .parked with refreshDeadline := some 100, fullDemand := false } base)).delivery.works.panels[(0 : PanelId)] =
    some { panel .ready with wake := CauseSet.none.insert .refresh } := by decide +kernel

theorem test_contextCopyComplete : (after (.contextCopyComplete 0) (servedState loadingLane)).delivery.works.lanes[(0 : LaneId)] =
    { workingLane with frame := some ⟨0, false, false, [], [], true, false⟩ } := by decide +kernel

theorem test_strip : let t := (after (.strip 0) (servedState workingLane)).delivery.works
    (t.lanes[(0 : LaneId)]).nextStrip = 1 ∧ (t.links[(0 : LinkId)]).fifo = [0x80, 0xFD, 0x00, 0xFD, 0x00] := by decide +kernel

theorem test_fifoRoom : let t := (after (.fifoRoom 0 1) (withLink 0 streamingLink
      (servedState { workingLane with unwritten := [7, 8] }))).delivery.works
    (t.links[(0 : LinkId)]).fifo = [0x01, 7, 8] ∧ (t.lanes[(0 : LaneId)]).unwritten = [] := by decide +kernel

theorem test_codingEnd : let t := (after (.codingEnd 0) (servedState codedLane)).delivery.works
    (t.lanes[(0 : LaneId)]).state = .resident ∧
      (t.panels[(0 : PanelId)]).map Panel.state = some .sending ∧
      (t.links[(0 : LinkId)]).frame = some ⟨0, 3, none, [1, 2], frameDigest [1, 2], 5, true, false, true, true, false⟩ := by decide +kernel

theorem test_frameStart : let t := (after (.frameStart 0) (withPanel 0 sendingPanel (withLink 0 readyLink base))).delivery.works
    (t.links[(0 : LinkId)]).state = .streaming ∧ (t.links[(0 : LinkId)]).sent.take 5 = [0x80, 3, 9, 0, 2] := by decide +kernel

/-- L0 streaming a frame of panel 0 whose coding goes on, with some bytes in its FIFO. -/
def unfinishedLink (fifo : List Byte) : Link :=
  { streamingLink with fifo := fifo, frame := some { frameRecord with complete := false } }

theorem test_underflow : let k (fifo : List Byte) : Link :=
      (after (.underflow 0) (withPanel 0 (panel .loaded) (withLink 0 (unfinishedLink fifo) base))).delivery.works.links[(0 : LinkId)]
    ((k []).line = .brk false ∧ (k []).abandons = 1 ∧ (k []).lastOutcome = some (.abandoned, 0)) ∧
    -- a byte written meanwhile is sent, and the frame goes on
    (k [7]).line = .frame ∧ (k [7]).fifo = [] ∧ (k [7]).sent = [7] := by decide +kernel

theorem test_ltx_levels : ({ streamingLink with sent := [0x05] } : Link).ltxLevels =
      [false, true, false, true, false, false, false, false, false, true] ∧
    ({ idleLink with line := .brk false } : Link).ltxLevels = List.replicate 20 false := by decide +kernel

theorem test_breakEnd : ((after (.breakEnd 0) (withLink 0 { streamingLink with line := .brk false } base)).delivery.works.links[(0 : LinkId)]).state = .idle ∧
    ((after (.breakEnd 0) (withLink 0 { streamingLink with line := .brk true } base)).delivery.works.links[(0 : LinkId)]).state =
      .disabled := by decide +kernel

theorem test_lastByteSent : let k := (after (.lastByteSent 0) (withPanel 0 sendingPanel (withLink 0 streamingLink base))).delivery.works.links[(0 : LinkId)]
    k.state = .awaitingReply ∧ k.wait = some 20 := by decide +kernel

theorem test_ack : let t := (after (.ack 0 (cleanRx (withCheck [0xC0, 3, 9, 0xBA, 0x00]))) repliedState).delivery.works
    (t.panels[(0 : PanelId)]).map Panel.ack = some (some ⟨[1, 2], 0x00BA, 5⟩) ∧
      (t.links[(0 : LinkId)]).lastOutcome = some (.delivered, 0) ∧ (t.links[(0 : LinkId)]).state = .idle := by decide +kernel

theorem test_nak : let t := (after (.nak 0 (cleanRx (withCheck [0xC1, 3, 9, 2]))) repliedState).delivery.works
    (t.panels[(0 : PanelId)]).map Panel.failures = some 1 ∧ (t.panels[(0 : PanelId)]).map Panel.holdoff = some (some 100) ∧
      (t.links[(0 : LinkId)]).lastOutcome = some (.nakDigest, 0) := by decide +kernel

theorem test_replyTimeout : let t := (after (.replyTimeout 0) repliedState).delivery.works
    (t.panels[(0 : PanelId)]).map Panel.holdoff = some (some 120) ∧
      (t.links[(0 : LinkId)]).lastOutcome = some (.timeout, 0) := by decide +kernel

theorem test_probeDue : let t := (after (.probeDue 0) dueState).delivery.works
    (t.links[(0 : LinkId)]).state = .probing ∧ (t.links[(0 : LinkId)]).sent.take 3 = [0x81, 3, 20] ∧
      (t.panels[(0 : PanelId)]).map Panel.probeDue = some (some 5000) := by decide +kernel

theorem test_probeSent : ((after (.probeSent 0) (withLink 0 probingLink base)).delivery.works.links[(0 : LinkId)]).wait = some 20 := by
  decide +kernel

theorem test_ident : let t := after (.ident 0 (cleanRx (withCheck [0xC2, 3, 1, 128, 0, 16]))) probedState
    (t.delivery.works.panels[(0 : PanelId)]).map Panel.online = some true ∧
      (t.delivery.ports[(1 : PortId)]).notices[(9 : Fin 10)] = some ⟨.panelOnline 0, 1⟩ := by decide +kernel

theorem test_probeTimeout : ((after (.probeTimeout 0) probedState).delivery.works.links[(0 : LinkId)]).state = .idle := by
  decide +kernel

theorem test_showEnd : ((after (.showEnd 0) (withLink 0 { idleLink with line := .show } base)).delivery.works.links[(0 : LinkId)]).line =
    .released := by decide +kernel

/-! ## Codes and digests, from the examples of chapters 9 and 13 -/

theorem test_digest : digest [0x3C, 0x42] = 0x00BA := by decide +kernel

theorem test_segmentCode : segmentCode (List.replicate 62 0x00 ++ [0x01, 0x01]) = [0xBB, 0x00, 0x01, 0x01, 0x01] ∧
    segmentCode (List.replicate 131 0x07) = [0xFF, 0x07, 0x00, 0x07] := by decide +kernel

/-! ## The hypotheses of the statements are met: helpers -/

theorem of_none {α : Type} {o : Option α} {P : α → Prop} (h : o = none) : ∀ q, o = some q → P q := by
  intro q e
  rw [h] at e
  cases e

theorem of_some {α : Type} {o : Option α} {P : α → Prop} {a : α} (h : o = some a) (k : P a) : ∀ q, o = some q → P q := by
  intro q e
  rw [h] at e
  cases e
  exact k

/-- After reset every port takes any request: the clauses on numbers out of range are met there. -/
theorem base_canTake (p : PortId) (i : Instr) : base.canTake p i := by
  have key : ∀ p : PortId, let pt := base.delivery.ports[p]
      (!pt.reserved && pt.waiting.isEmpty && pt.slotFree && pt.requests.isEmpty) = true := by decide +kernel
  have h := key p
  simp only [Bool.and_eq_true] at h
  simp only [State.canTake, Port.takes, h, Bool.true_or, Bool.and_self]

/-- A state whose first port is as after reset takes any request of it. -/
theorem canTake_of_port {s : State} {p : PortId} (h : s.delivery.ports[p] = base.delivery.ports[p]) (i : Instr) :
    s.canTake p i := by
  have k := base_canTake p i
  simp only [State.canTake, h] at k ⊢
  exact k

/-- The conditions of the clauses on numbers out of range: the first number beyond each range, from a SUPERVISOR port. -/
theorem witness_numbers_out_of_range : base.isSupervisor 0 ∧ (∀ i : Instr, base.canTake 0 i) ∧
    (15 < 16 ∧ 191 < 192 ∧ 31 < 32 ∧ 63 < 64 ∧ 7 < 8 ∧ 3 < 4 ∧ 2 < 3 ∧ 160 < (List.replicate 161 0).length) ∧
    ((15 < 16 ∨ (1 : Nat) = 0 ∨ 16777215 < 1) ∧ (15 < 0 ∨ (0 : Nat) = 0 ∨ 16777215 < 0) ∧
      (15 < 0 ∨ 16777216 = 0 ∨ 16777215 < 16777216)) ∧ (1 : Nat) ≠ 0 ∧ (0 : Nat) = 0 ∧
    ((base.delivery.ports[(0 : PortId)]).tags[(15 : Tag)] = .free) :=
  ⟨by unfold State.isSupervisor; decide +kernel, fun i => base_canTake 0 i, by decide +kernel, by decide, by decide, rfl,
    by decide +kernel⟩

/-- A PLACARD of 1,024 cells' worth is the most the pool holds: 192 placards in use, the last of layer 1. -/
def fullBoard : State := onContent (fun c => { c with board :=
  ⟨Vector.replicate 192 (some placard), List.finRange 192, 192, 4294967295⟩ }) base

/-- Panel 1, at drop 4 of L0. -/
def panelOne : Panel := { panel .ready with drop := 4, address := 0x13, wake := CauseSet.none.insert .content }

/-- The swap of `safeState`: member 0 has arrived. -/
def safeSwap : Swap := ⟨.port 0, [0, 1], [], [⟨0, [1, 2], 0x00BA, 5, true, true⟩], 2000⟩

/-- Its armed group. -/
def safeGroup : Group := ⟨[0, 1], 20, some safeSwap⟩

/-- A state in which every block holds something, with a COUNT_INTERVAL waiting. -/
def safeState : State :=
  { withList 2 twelve (withClock ⟨10799998, .running, 0⟩ (withPlacard 7 placard
      (withHold 2 ⟨.handed 0 1 20000, [⟨2, 4, 5000⟩], 20, none⟩ (withTicker 0 runningTicker
        (withFont 1 ⟨8, [0xAA, 0x55], [(65, ⟨2, 0⟩)]⟩ (onPort 1 (Port.record (.listEvict 2 7))
          (withGroup 2 safeGroup (withPanel 0 (panel .parked) (withPanel 1 panelOne (withLink 0 readyLink base)))))))))) with
    pending := [.countInterval] }

theorem safeState_steps : ∃ t, step safeState = .next t := ⟨_, rfl⟩

theorem safeState_lists : ∀ l : ListId, listOk safeState.content.lists[l] := by
  simp only [listOk]
  decide +kernel

theorem safeState_panels (p : PanelId) : safeState.delivery.works.panels[p] =
    if p = 0 then some (panel .parked) else if p = 1 then some panelOne else none := by
  revert p
  decide +kernel

theorem safeState_groups (g : GroupId) : safeState.delivery.groups[g] = if g = 2 then safeGroup else Group.reset := by
  revert g
  decide +kernel

/-! ## The hypotheses of the statements are met: the machine and its invariants -/

theorem witness_StepRunsTheFrontCommand : safeState.pending = .countInterval :: [] := rfl

/-- No command pending, no link or L0 sending its frame, at 25 Mbit/s or with the divider 0 that no run gives it. -/
theorem witness_EmptyQueueLetsOneMillisecondPass : base.pending = [] ∧ streamingLink.divider ≠ 0 ∧
    ∀ k ∈ [streamingLink, { streamingLink with divider := 0 }, { streamingLink with frame := none }],
      (withLink 0 k base).pending = [] ∧ k.state = .streaming ∧ k.line = .frame := by decide +kernel

/-- A byte whose turn comes 4,998 units on is sent within the ms, the next at its very end is not, nor one 6,000 units on. -/
theorem test_empty_queue_sends_fifo_bytes :
    let later (busy : Nat) : Option State := match step (withLink 0 { streamingLink with busy := busy } base) with
      | .next t => some t
      | .fault _ => none
      | .refused _ => none
    let left (sent fifo : List Byte) (busy : Nat) : State := onWorks (fun w => { w with now := 1 })
      (withLink 0 { streamingLink with sent := sent, fifo := fifo, busy := busy } base)
    later 4998 = some (left [0x00] [0x01] 0) ∧ later 6000 = some (left [] [0x00, 0x01] 1000) := by decide +kernel

theorem witness_StepsKeepDepartureListsInOrder :
    (∀ l : ListId, listOk safeState.content.lists[l]) ∧ safeState.content.lists[(2 : ListId)] = twelve ∧
      ∃ t, step safeState = .next t :=
  ⟨safeState_lists, by decide +kernel, safeState_steps⟩

theorem witness_StepsKeepClockAndParametersInRange :
    (clockOk safeState.content.clock ∧ settingsOk safeState.content.settings) ∧ ∃ t, step safeState = .next t := by
  refine ⟨⟨?_, ?_⟩, safeState_steps⟩
  · show 10799998 < clockLimit ∧ (0 : Int) = 0
    decide
  · simp only [settingsOk]
    decide +kernel

theorem witness_StepsKeepDrawOrderAndTextPool :
    (orderOk safeState.content.board ∧ cellsOk safeState.content.board) ∧ safeState.content.board.drawOrder = [7] ∧
      ∃ t, step safeState = .next t := by
  refine ⟨?_, by decide +kernel, safeState_steps⟩
  simp only [orderOk, cellsOk]
  decide +kernel

theorem witness_StepsKeepHoldQueues : (∀ h : HoldId, holdOk safeState.content.holds[h]) ∧ ∃ t, step safeState = .next t := by
  refine ⟨?_, safeState_steps⟩
  intro h
  have key : ∀ h : HoldId, safeState.content.holds[h] =
      if h = 2 then ⟨.handed 0 1 20000, [⟨2, 4, 5000⟩], 20, none⟩ else Hold.reset := by decide +kernel
  rw [key h]
  split
  · refine ⟨by decide, ?_⟩
    show (0 : PortId) ≠ 1 ∧ _
    decide
  · exact ⟨by decide, rfl⟩

theorem witness_StepsKeepTickers : (∀ k : TickerId, tickerOk safeState.content.tickers[k]) ∧
    (safeState.content.tickers[(0 : TickerId)]).state = .running ∧ ∃ t, step safeState = .next t := by
  refine ⟨?_, by decide +kernel, safeState_steps⟩
  simp only [tickerOk]
  decide +kernel

theorem witness_StepsKeepFontRegions : (∀ f : FontId, fontOk safeState.content.typeStore.fonts[f]) ∧
    (safeState.content.typeStore.fonts[(1 : FontId)]).directory ≠ [] ∧ ∃ t, step safeState = .next t := by
  refine ⟨?_, by decide +kernel, safeState_steps⟩
  simp only [fontOk]
  decide +kernel

theorem witness_StepsKeepPortQueues : (∀ p : PortId, portOk safeState.delivery.ports[p]) ∧ ∃ t, step safeState = .next t := by
  refine ⟨?_, safeState_steps⟩
  intro p
  have key : ∀ p : PortId, let pt := safeState.delivery.ports[p]
      (pt.requests.length ≤ 8 ∧ pt.responses.length ≤ 8 ∧ pt.reserved = false ∧ (pt.waiting ≠ [] → pt.responses.length = 8)) ∧
        ∀ k : Fin 10, (pt.notices[k]).all (fun r => decide (r.notice.kind = k ∧ 1 ≤ r.count ∧ r.count ≤ 255)) = true := by
    decide +kernel
  refine ⟨(key p).1.1, (key p).1.2.1, (key p).1.2.2.1, (key p).1.2.2.2, ?_⟩
  intro k r e
  have h := (key p).2 k
  rw [e] at h
  exact of_decide_eq_true h

theorem witness_StepsKeepPanelTableAndFifos :
    (panelsOk safeState.delivery.works ∧ fifosOk safeState.delivery.works) ∧ ∃ t, step safeState = .next t := by
  refine ⟨⟨⟨?_, ?_⟩, ?_⟩, safeState_steps⟩
  · intro p q a b hp hq hl hd
    have key : ∀ p q : PanelId, (safeState.delivery.works.panels[p]).all (fun a =>
        (safeState.delivery.works.panels[q]).all (fun b => decide (a.link = b.link → a.drop = b.drop → p = q))) = true := by
      decide +kernel
    have h := key p q
    rw [hp, hq] at h
    exact of_decide_eq_true h hl hd
  · intro p a hp
    rw [safeState_panels] at hp
    split at hp
    · cases hp
      decide
    · split at hp <;> cases hp
      decide
  · simp only [fifosOk]
    decide +kernel

theorem witness_StepsKeepSwapGroups : groupsOk safeState.delivery.groups ∧ ∃ t, step safeState = .next t := by
  refine ⟨⟨by decide +kernel, ?_⟩, safeState_steps⟩
  intro g
  rw [safeState_groups]
  split
  · refine ⟨by decide, by decide, by decide, by decide, ?_⟩
    exact of_some (a := safeSwap) rfl ⟨by decide, by decide, by decide, by decide⟩
  · exact ⟨by decide, by decide, by decide, by decide, of_none rfl⟩

theorem witness_GenerationAndRanksBetweenResets : (∀ rk0 rk1 rk2 rk3, Instr.withdraw 0 7 ≠ .resetn rk0 rk1 rk2 rk3) ∧
    fullBoard.content.board.generation = 4294967295 ∧ fullBoard.content.board.generation ≤ 4294967295 ∧
      ∃ t, exec (.withdraw 0 7) fullBoard = .next t :=
  ⟨by decide, by decide +kernel, by decide +kernel, ⟨_, rfl⟩⟩

/-! ## The hypotheses of the statements are met: feed ports -/

/-- FP1 with eight requests waiting and eight responses not yet collected. -/
def fullPort : State := onPort 1 (fun pt => { pt with
  requests := List.replicate 8 (.clockRead 1), responses := List.replicate 8 ⟨0x01, 0x22, 0, 0, []⟩ }) base

/-- FP1 whose oldest request is a BOARD_READ. -/
def queuedPort : State := onPort 1 (fun pt => { pt with requests := [.boardRead 1 7, .clockRead 1] }) base

theorem witness_PortTakesItsOldestRequest : requestPort (.boardRead 1 7) = some 1 ∧ queuedPort.canTake 1 (.boardRead 1 7) ∧
    base.canTake 1 (.boardRead 1 7) ∧ ¬ queuedPort.canTake 1 (.clockRead 1) ∧ ¬ fullPort.canTake 1 (.clockRead 1) := by
  simp only [State.canTake]
  decide +kernel

theorem witness_EveryRequestTakenIsAnsweredOnce : requestPort (.boardRead 1 7) = some 1 ∧
    queuedPort.canTake 1 (.boardRead 1 7) := by
  simp only [State.canTake]
  decide +kernel

theorem witness_SupervisorRequestFromFeedPortIsDenied : requestPort (.boardClear 1) = some 1 ∧
    supervisorOnly (.boardClear 1) = true ∧ (base.delivery.ports[(1 : PortId)]).rank = .feed ∧
      base.canTake 1 (.boardClear 1) := by
  simp only [State.canTake]
  decide +kernel

theorem witness_TransferShiftsTheHeadAndJudgesTheFrame : fullPort.resetIsLow = false ∧
    wholeBytes (List.replicate 7 false) = [] ∧ wholeBytes (List.replicate 48 false) ≠ [] ∧
    (fullPort.delivery.ports[(1 : PortId)]).responses ≠ [] ∧
    8 * (fullPort.delivery.ports[(1 : PortId)]).headBytes.length = 48 ∧
    judgeFrame 1 heights [0x00] = .emptyPoll ∧ judgeFrame 1 heights [0x34] = .badFrame 0x34 0 ∧
    judgeFrame 1 heights [0xA3, 0, 0, 0] = .request (.partStatus 1) ∧
    (fullPort.delivery.ports[(1 : PortId)]).requests.length = 8 := by decide +kernel

theorem witness_TransferShiftsTheHeadAndJudgesTheFrame_lengths : ([] : List Byte).length < 2 ∧
    (∀ kind : Byte, kind = 0x34 → kind ≠ 0x00 ∧ kind ≠ 0xFF) ∧
    (let after : List Byte := [7]; after.length < (0x02 : Byte).toNat + 256 * (0x00 : Byte).toNat) ∧
    596 < (0x55 : Byte).toNat + 256 * (0x02 : Byte).toNat ∧ (0x54 : Byte).toNat + 256 * (0x02 : Byte).toNat = 596 ∧
    judgeFrame 1 heights ([0x16, 0, 0x54, 0x02] ++ List.replicate 595 0) = .badFrame 0x16 0 := by decide +kernel

theorem witness_TransferShiftsTheHeadAndJudgesTheFrame_fixed :
    (∀ heights, bodyAccounted heights 0x10 (List.replicate 9 0)) ∧ (∀ heights, bodyAccounted heights 0xA4 []) ∧
    (∀ heights, ¬ bodyAccounted heights 0x10 (List.replicate 8 0)) ∧ (∀ heights, ¬ bodyAccounted heights 0xA5 []) :=
  ⟨fun _ => rfl, fun _ => rfl, fun _ (h : some 9 = some 8) => (by cases h), fun _ (h : none = some 0) => (by cases h)⟩

theorem witness_TransferShiftsTheHeadAndJudgesTheFrame_counts (heights : List Nat) :
    bodyAccounted heights 0x16 [127, 1, 65, 0] ∧ ¬ bodyAccounted heights 0x16 [127, 1, 65] ∧
    bodyAccounted heights 0x23 [1, 0, 30, 0] ∧ bodyAccounted heights 0x90 [7, 2, 0, 63, 20] := by
  refine ⟨⟨127, [1, 65, 0], rfl, 1, [65, 0], rfl, rfl⟩, ?_, ⟨1, [0, 30, 0], rfl, rfl⟩, ⟨7, 2, [0, 63, 20], rfl, rfl⟩⟩
  rintro ⟨n, text, h, m, chars, e, l⟩
  cases h
  cases e
  cases l

theorem witness_TransferShiftsTheHeadAndJudgesTheFrame_marks (hs : List Nat) :
    bodyAccounted heights 0x61 [0, 1, 65, 0, 1, 0xAA] ∧ bodyAccounted heights 0x61 [255, 1, 65, 0, 1, 0xAA, 0x55] ∧
    bodyAccounted hs 0x30 (List.replicate 9 0 ++ [4, 0, 65, 0, 3, 0, 0, 0, 1, 1, 2, 3, 0]) ∧
    bodyAccounted hs 0x30 (List.replicate 9 0 ++ [255, 77, 3, 0, 0, 0, 0, 0]) ∧
    bodyAccounted hs 0x31 (7 :: (List.replicate 20 0 ++ [2, 0, 1, 31])) := by
  have keep (w : Nat) : markedField w [0] := .inl rfl
  refine ⟨⟨0, 1, [[65, 0, 1, 0xAA]], rfl, rfl, 8, ?_, rfl⟩, ⟨255, 1, [[65, 0, 1, 0xAA, 0x55]], rfl, rfl, 16, ?_, .inr rfl⟩,
    ⟨List.replicate 9 0, 4, [0, 65, 0], [3, 0, 0], [0], [1, 1, 2, 3], [0], rfl, rfl, rfl, rfl, .inl rfl,
      .inr ⟨[1, 2, 3], rfl, rfl⟩, .inl rfl⟩,
    ⟨List.replicate 9 0, 255, [77], [3, 0, 0], [0], [0], [0], rfl, rfl, rfl, trivial, .inl rfl, .inl rfl, .inl rfl⟩,
    ⟨7, List.replicate 7 [0], [0], List.replicate 12 [0], [[2], [0], [1, 31]], rfl, ?_, .inl rfl, ?_, ?_⟩⟩
  · intro e he
    cases List.mem_singleton.mp he
    exact ⟨65, 0, 1, [0xAA], rfl, rfl⟩
  · intro e he
    cases List.mem_singleton.mp he
    exact ⟨65, 0, 1, [0xAA, 0x55], rfl, rfl⟩
  · repeat' constructor
  · repeat' constructor
  · exact .cons (.inl rfl) (.cons (.inr (keep 3)) (.cons (.inr (.inr ⟨[31], rfl, rfl⟩)) .nil))

theorem witness_RequestFramesAreReadBack : requestPort (.glyphLoad 0 1 [⟨511, 16, List.replicate 16 0xFF⟩]) = some 0 ∧
    (Instr.glyphLoad 0 1 [⟨511, 16, List.replicate 16 0xFF⟩]).wellFormed = true ∧ heights.length = 4 ∧
    (∀ q font es, Instr.glyphLoad 0 1 [⟨511, 16, List.replicate 16 0xFF⟩] = .glyphLoad q font es →
      (4 ≤ font → ∀ e ∈ es, e.bitmap.length = e.width) ∧
        ∀ h, heights[font]? = some h → ∀ e ∈ es, e.bitmap.length = e.width * h / 8) ∧
    (∀ q f code rest, Instr.glyphLoad 0 1 [⟨511, 16, List.replicate 16 0xFF⟩] = .post q f → f.content = .unknown code rest →
      f.foreground = 0 ∧ f.background = 0 ∧ f.flags = 0 ∧ f.windowStart = none ∧ f.windowEnd = none ∧ f.hold = none) := by
  refine ⟨by decide +kernel, by decide +kernel, by decide, ?_, by nofun⟩
  intro q font es e
  cases e
  refine ⟨by decide, of_some rfl ?_⟩
  decide +kernel

theorem witness_RequestFramesAreReadBack_no_such_font : let i := Instr.glyphLoad 0 255 [⟨511, 16, List.replicate 16 0xFF⟩]
    requestPort i = some 0 ∧ i.wellFormed = true ∧
    (∀ q font es, i = .glyphLoad q font es → (4 ≤ font → ∀ e ∈ es, e.bitmap.length = e.width) ∧
      ∀ h, heights[font]? = some h → ∀ e ∈ es, e.bitmap.length = e.width * h / 8) := by
  refine ⟨by decide +kernel, by decide +kernel, ?_⟩
  intro q font es e
  cases e
  exact ⟨by decide +kernel, of_none rfl⟩

theorem witness_RequestFramesAreReadBack_unknown_kind : let rest : List Byte := [0xAA, 3, 4, 3, 0, 1, 7, 0, 0, 0]
    let f : PostReq := ⟨0, 0, 0, 0, 0, 0, 1, .unknown 5 rest, 0, 0, 0, none, none, none⟩
    requestPort (.post 0 f) = some 0 ∧ (Instr.post 0 f).wellFormed = true ∧ f.content = .unknown 5 rest ∧
      f.foreground = 0 ∧ f.background = 0 ∧ f.flags = 0 ∧ f.windowStart = none ∧ f.windowEnd = none ∧ f.hold = none ∧
      judgeFrame 0 heights ((Instr.post 0 f).frameBytes ++ [0x77]) = .request (.post 0 f) := by decide +kernel

theorem witness_BytesSurviveTheShift : (List.replicate 7 true).length < 8 := by decide

/-- FP1 with two notices pending, PANEL_ISOLATED masked, LIST_EVICT counted 255 times. -/
def noticedPort : State := onPort 1 (fun pt => { pt with
  notices := (pt.notices.set 0 (some ⟨.panelIsolated 63, 1⟩)).set 4 (some ⟨.listEvict 2 7, 255⟩), mask := 1 }) base

theorem witness_NoticesMergeAndAreTakenByPriority :
    (base.delivery.ports[(1 : PortId)]).notices[(Notice.listEvict 2 7).kind] = none ∧
    (noticedPort.delivery.ports[(1 : PortId)]).notices[(Notice.listEvict 2 8).kind] = some ⟨.listEvict 2 7, 255⟩ ∧
    noticedPort.resetIsLow = false ∧ noticedPort.fntc 1 = true ∧ base.fntc 1 = false ∧
    base.canTake 1 (.noticeTake 1) ∧ (∀ k, (base.delivery.ports[(1 : PortId)]).unmasked k = false) ∧
    noticedPort.canTake 1 (.noticeTake 1) ∧ (noticedPort.delivery.ports[(1 : PortId)]).unmasked 4 = true ∧
    (∀ j < 4, (noticedPort.delivery.ports[(1 : PortId)]).unmasked j = false) ∧
    base.canTake 1 (.noticeMask 1 1023) ∧ (1023 : BitVec 16).toNat < 1024 ∧
    base.canTake 1 (.noticeMask 1 1024) ∧ 1024 ≤ (1024 : BitVec 16).toNat := by
  simp only [State.canTake]
  decide +kernel

theorem witness_CancelSplitEndsTheTag :
    (base.canTake 1 (.cancelSplit 1 15) ∧ (base.delivery.ports[(1 : PortId)]).tags[(15 : Tag)] = .free) ∧
    ((withTag 1 4 .ended base).canTake 1 (.cancelSplit 1 4) ∧
      ((withTag 1 4 .ended base).delivery.ports[(1 : PortId)]).tags[(4 : Tag)] = .ended) ∧
    (waitingState.canTake 1 (.cancelSplit 1 4) ∧ (waitingState.delivery.ports[(1 : PortId)]).tags[(4 : Tag)] = .take 2 ∧
      (waitingState.content.holds[(2 : HoldId)]).waiterOf 1 = some ⟨1, 4, 5000⟩) ∧
    confirmingState.canTake 0 (.cancelSplit 0 3) ∧ (confirmingState.delivery.ports[(0 : PortId)]).tags[(3 : Tag)] = .confirm ∧
      confirmingState.delivery.confirmationOf 0 3 = some ⟨0, 3, 7, 1000⟩ := by
  simp only [State.canTake]
  decide +kernel

/-- One slot free; none free, a completion waiting, a request being executed; completions for one free slot. -/
theorem witness_CancelSplitEndsTheTag_places : let full := (fullPort.delivery.ports[(1 : PortId)]).responses
    let x : Completion := ⟨4, 0x40, .ok, []⟩
    let pt (n : Nat) : Port := { base.delivery.ports[(1 : PortId)] with responses := full.take n }
    ((pt 7).reserved = false ∧ (pt 7).waiting = [] ∧ (pt 7).responses.length < 8) ∧
    (8 ≤ (pt 8).responses.length ∧ ({ pt 7 with waiting := [x] } : Port).waiting ≠ [] ∧
      ({ pt 7 with reserved := true } : Port).reserved = true) ∧
    (({ pt 7 with waiting := [x, { x with tag := 5 }] } : Port).reserved = false ∧
      (({ pt 7 with waiting := [x, { x with tag := 5 }] } : Port).drain.waiting = [{ x with tag := 5 }])) := by decide +kernel

/-- The bit rates of R158's table; the last one is no whole number. -/
theorem test_bitRate : bitRate 2 = 25000000 ∧ bitRate 200 = 250000 ∧ bitRate 500 = 100000 ∧
    (bitRate 65534 = 762 ∨ bitRate 65534 = 763) :=
  ⟨rfl, rfl, rfl, (bitRate_rounded 65534 (by decide)).imp id And.right⟩

theorem witness_ReadsReturnTheStateAndChangeNothing :
    safeState.canTake 2 (.depRead 2 15) ∧ safeState.canTake 2 (.clockRead 2) ∧ safeState.canTake 2 (.boardRead 2 7) ∧
    safeState.content.board.placards[(7 : PlacardId)] = some placard ∧ safeState.canTake 2 (.boardRead 2 191) ∧
    safeState.content.board.placards[(191 : PlacardId)] = none ∧ safeState.canTake 2 (.holdRead 2 31) ∧
    safeState.canTake 2 (.panelRead 2 0) ∧ safeState.delivery.works.panels[(0 : PanelId)] = some (panel .parked) ∧
    safeState.canTake 2 (.panelRead 2 63) ∧ safeState.delivery.works.panels[(63 : PanelId)] = none ∧
    safeState.canTake 2 (.tickerRead 2 7) ∧ safeState.canTake 2 (.linkRead 2 7) ∧ safeState.canTake 2 (.groupRead 2 7) ∧
    safeState.canTake 2 (.partStatus 2) ∧
    ((safeState.delivery.works.links[(0 : LinkId)]).divider ≠ 0 ∧ (65534 : Nat) ≠ 0 ∧ 50000000 % 65534 ≠ 0) := by
  simp only [State.canTake]
  decide +kernel

/-! ## The hypotheses of the statements are met: departure lists, figures, clock -/

theorem witness_DepPutInsertsOrUpdates_ranges :
    let inRange (list trip line destination scheduled : Nat) : Prop :=
      list ≤ 15 ∧ 1 ≤ trip ∧ trip ≤ 16777215 ∧ line ≤ 63 ∧ destination ≤ 127 ∧ scheduled ≤ 107999
    inRange 15 1 0 0 0 ∧ inRange 0 16777215 63 127 107999 ∧ ¬ inRange 16 1 0 0 0 ∧ ¬ inRange 0 0 0 0 0 ∧
      ¬ inRange 0 16777216 0 0 0 ∧ ¬ inRange 0 1 64 0 0 ∧ ¬ inRange 0 1 0 128 0 ∧ ¬ inRange 0 1 0 0 108000 := by decide

theorem witness_DepPutInsertsOrUpdates_insert : let s := withList 2 twelve.tail base
    let e : Entry := ⟨16777215, 63, 127, 107999, .planned, .clock 5 59, 0⟩
    s.canTake 0 (.depPut 0 2 16777215 63 127 107999) ∧ findTrip 16777215 s.content.lists[(2 : ListId)] = none ∧
      e.figure = computeFigure s.content.clock s.content.settings false none none e ∧
      (s.content.lists[(2 : ListId)]).length = 11 := by
  simp only [State.canTake]
  decide +kernel

theorem witness_DepPutInsertsOrUpdates_full : let s := withList 2 twelve base
    let late : Entry := ⟨16777215, 63, 127, 107999, .planned, .clock 5 59, 0⟩
    let soon : Entry := ⟨13, 0, 0, 0, .planned, .clock 0 0, 0⟩
    s.canTake 0 (.depPut 0 2 16777215 63 127 107999) ∧ s.canTake 0 (.depPut 0 2 13 0 0 0) ∧
      findTrip 16777215 s.content.lists[(2 : ListId)] = none ∧ findTrip 13 s.content.lists[(2 : ListId)] = none ∧
      late.figure = computeFigure s.content.clock s.content.settings false none none late ∧
      soon.figure = computeFigure s.content.clock s.content.settings false none none soon ∧
      (s.content.lists[(2 : ListId)]).length = 12 ∧ (s.content.lists[(2 : ListId)]).getLast? = some (entry 12 4260) ∧
      late.before (entry 12 4260) = false ∧ soon.before (entry 12 4260) = true := by
  simp only [State.canTake]
  decide +kernel

theorem witness_DepPutInsertsOrUpdates_present : let s := withList 2 twelve base
    let s' := withList 2 [cancelledEntry] base
    s.canTake 0 (.depPut 0 2 1 0 0 0) ∧ findTrip 1 s.content.lists[(2 : ListId)] = some (entry 1 3600) ∧
      (entry 1 3600).state = .planned ∧ s'.canTake 0 (.depPut 0 2 9 0 0 0) ∧
      findTrip 9 s'.content.lists[(2 : ListId)] = some cancelledEntry ∧ cancelledEntry.state = .cancelled 7200 := by
  simp only [State.canTake]
  decide +kernel

theorem witness_EntryEventsMoveTheEntryState : let with_ (st : EntryState) := withList 2 [{ entry 9 3600 with state := st }] base
    ∀ st ∈ [EntryState.planned, .tracked ⟨3700, 5⟩, .arrived none 9, .arrived (some ⟨3700, 5⟩) 9, .cancelled 7200],
      (with_ st).canTake 0 (.depPredict 0 2 9 107999) ∧ (with_ st).canTake 0 (.depArrive 0 2 9) ∧
      (with_ st).canTake 0 (.depCancel 0 2 9) ∧
      findTrip 9 (with_ st).content.lists[(2 : ListId)] = some { entry 9 3600 with state := st } ∧
      findTrip 16777215 (with_ st).content.lists[(2 : ListId)] = none ∧
      (with_ st).canTake 0 (.depPredict 0 2 16777215 0) ∧ (with_ st).canTake 0 (.depArrive 0 2 16777215) ∧
      (with_ st).canTake 0 (.depCancel 0 2 16777215) := by
  simp only [State.canTake]
  decide +kernel

theorem witness_DepDepartRemovesTheEntry : let s := withList 2 twelve base
    s.canTake 0 (.depDepart 0 2 12) ∧ s.canTake 0 (.depDepart 0 2 16777215) ∧ listOk s.content.lists[(2 : ListId)] ∧
      findTrip 16777215 s.content.lists[(2 : ListId)] = none ∧
      findTrip 12 s.content.lists[(2 : ListId)] = some (entry 12 4260) := by
  simp only [State.canTake, listOk]
  decide +kernel

theorem witness_DestSetReplacesTheName : base.canTake 0 (.destSet 0 128 []) ∧
    base.canTake 0 (.destSet 0 127 (List.replicate 25 0)) ∧ 24 < (List.replicate 25 0).length ∧
    base.canTake 0 (.destSet 0 127 [512]) ∧ (∃ c ∈ [512], 512 ≤ c) ∧
    base.canTake 0 (.destSet 0 127 (List.replicate 24 511)) ∧ (List.replicate 24 511).length ≤ 24 ∧
    (∀ c ∈ List.replicate 24 511, c < 512) ∧
    base.content.destinations[(127 : Fin 128)] ≠ List.replicate 24 511 ∧
    base.canTake 0 (.destSet 0 127 []) ∧ base.content.destinations[(127 : Fin 128)] = [] := by
  simp only [State.canTake]
  decide +kernel

theorem witness_ClockFormTruncatesAndWraps : (3600 : Nat) / 60 = 3659 / 60 ∧
    computeFigure Clock.reset Settings.reset false none none (entry 9 90000) = .clock 1 0 ∧
    (⟨9000000, .running, 0⟩ : Clock).state ≠ .unset ∧ (⟨10799999, .limit, 0⟩ : Clock).state ≠ .unset := by
  decide +kernel

theorem witness_FiguresFollowTheirStages : cancelledEntry.state = .cancelled 7200 ∧
    ({ entry 9 3600 with state := .arrived none 9 } : Entry).state = .arrived none 9 ∧
    (entry 9 3600).rank = 1 ∧ (∀ t, (entry 9 3600).state ≠ .cancelled t) ∧ Clock.reset.state = .unset ∧
    -- 31 minutes are beyond the horizon of 30, 30 are not
    ((entry 9 3600).effective - (⟨177000, .running, 0⟩ : Clock).second + 30) / 60 = 31 ∧
    ((entry 9 3600).effective - (⟨177100, .running, 0⟩ : Clock).second + 30) / 60 = 30 ∧
    -- DUE held against 1 minute, 1 minute held against 2
    ((entry 9 3600).effective - (⟨351100, .running, 0⟩ : Clock).second + 30) / 60 = 1 ∧
    ((entry 9 3600).effective - (⟨350000, .running, 0⟩ : Clock).second + 30) / 60 = 2 := by
  refine ⟨rfl, rfl, by decide +kernel, by nofun, rfl, ?_⟩
  decide +kernel

theorem witness_ClockSetStartsSlewsStepsOrHolds :
    base.canTake 1 (.clockSet 1 10800000) ∧ base.canTake 1 (.clockSet 1 10799999) ∧ base.content.clock.state = .unset ∧
    (∀ t ∈ [299, 300, 301, 500, 700, 701], (withClock ⟨500, .running, 0⟩ base).canTake 1 (.clockSet 1 t)) ∧
    (withClock ⟨500, .running, 0⟩ base).content.clock.state = .running ∧
    (withClock ⟨10799999, .slewing, -1⟩ base).canTake 1 (.clockSet 1 10799999) ∧
    (withClock ⟨10799999, .slewing, -1⟩ base).content.clock.state = .slewing ∧
    (∀ t ∈ [10799798, 10799799, 10799999], (withClock ⟨10799999, .limit, 0⟩ base).canTake 1 (.clockSet 1 t)) ∧
    (withClock ⟨10799999, .limit, 0⟩ base).content.clock.state = .limit := by
  simp only [State.canTake]
  decide +kernel

/-- The entry of trip 9 in a state. -/
def entryIn (st : EntryState) : Entry := { entry 9 3600 with state := st }

theorem witness_ClockSetStartsSlewsStepsOrHolds_restamp :
    (entryIn .planned).state = .planned ∧ (entryIn (.cancelled 7200)).state = .cancelled 7200 ∧
    (entryIn (.tracked ⟨3700, 5⟩)).state = .tracked ⟨3700, 5⟩ ∧
    (entryIn (.arrived (some ⟨3700, 5⟩) 9)).state = .arrived (some ⟨3700, 5⟩) 9 := ⟨rfl, rfl, rfl, rfl⟩

/-- Placard 7 with a window that opens at 10 s. -/
def windowed (live : Bool) : State := withClock ⟨1000, .running, 0⟩
  (withPlacard 7 { placard with windowStart := some 10, live := live } base)

theorem witness_NewDayEmptiesListsAndSetsTheClock_windows :
    ({ placard with windowStart := some 10, windowEnd := some 11 } : Placard).liveAt .running 10 = true ∧
    ({ placard with windowStart := some 10, windowEnd := some 11 } : Placard).liveAt .running 11 = false ∧
    ({ placard with windowStart := some 10 } : Placard).liveAt .unset 10 = false ∧ placard.liveAt .unset 0 = true ∧
    -- a transition, a window that stays as it is, no window
    ((windowed false).content.board.placards[(7 : PlacardId)]).any (fun pl =>
      pl.windowStart.isSome && (pl.liveAt (windowed false).content.clock.state 10 != pl.live)) = true ∧
    ((windowed true).content.board.placards[(7 : PlacardId)]).any (fun pl =>
      pl.windowStart.isSome && (pl.liveAt (windowed true).content.clock.state 10 == pl.live)) = true ∧
    ((withPlacard 7 placard base).content.board.placards[(7 : PlacardId)]).any (fun pl =>
      pl.windowStart.isNone && pl.windowEnd.isNone) = true := by decide +kernel

/-- The moments at which each entry state passes, and the last at which it does not, with the parameters after reset. -/
theorem witness_CountIntervalAdvancesTheClock_pass : let x := Settings.reset
    let q : Prediction := ⟨4000, 5⟩
    ((entryIn .planned).scheduled + x.overdue < 4201 ∧ 4200 ≤ (entryIn .planned).scheduled + x.overdue) ∧
    (q.stamp + x.staleness < 306 ∧ 305 ≤ q.stamp + x.staleness ∧
      (entryIn (.tracked q)).scheduled + x.overdue < 4201 ∧ 306 ≤ (entryIn (.tracked q)).scheduled + x.overdue ∧
      (⟨4000, 4500⟩ : Prediction).stamp + x.staleness ≥ 4601 ∧ (⟨4000, 4500⟩ : Prediction).time + x.overdue < 4601) ∧
    (9 + x.arrivalLinger < 190 ∧ 189 ≤ 9 + x.arrivalLinger) ∧ (7200 < 7201 ∧ 7200 ≤ 7200) := by decide +kernel

theorem witness_CountIntervalAdvancesTheClock_list : listOk twelve ∧
    ((entry 1 3600).pass Settings.reset 2 4201).1 = none ∧
    ((entry 2 3660).pass Settings.reset 2 4201).1 = some (entry 2 3660) := by
  simp only [listOk]
  decide +kernel

/-- An entry above and an entry below on whose other side an entry is placed, a figure that differs, and a list in which a
prediction goes stale without a move. -/
theorem witness_CountIntervalAdvancesTheClock_moves : let set := Settings.reset
    let first : Entry := { entry 1 300 with state := .tracked ⟨100, 0⟩ }
    let second : Entry := { entry 2 400 with state := .tracked ⟨200, 0⟩ }
    listOk [first, second] ∧ (first.pass set 2 301).1 = some (entry 1 300) ∧ (second.pass set 2 301).1 = some (entry 2 400) ∧
    first.before second ≠ (entry 1 300).before second ∧ second.before (entry 1 300) ≠ (entry 2 400).before (entry 1 300) ∧
    computeFigure ⟨30100, .running, 0⟩ set true none (some first.figure) (entry 1 300) ≠ first.figure ∧
    listOk [first] ∧ (passChecks set 2 301 [first]).2 = false := by
  simp only [listOk]
  decide +kernel

theorem witness_NewDayEmptiesListsAndSetsTheClock : base.canTake 0 (.newDay 0 10800000) ∧ base.canTake 0 (.newDay 0 10799999) ∧
    base.isSupervisor 0 := by
  simp only [State.canTake, State.isSupervisor]
  decide +kernel

theorem witness_CountIntervalAdvancesTheClock : let k (x : Clock) := (withClock x base).content.clock
    (k Clock.reset).state = .unset ∧ (k ⟨10799999, .limit, 0⟩).state = .limit ∧
    ((k ⟨10799997, .running, 0⟩).state = .running ∧ (k ⟨10799997, .running, 0⟩).value + 1 < 10799999) ∧
    (10799999 ≤ (k ⟨10799998, .running, 0⟩).value + 1) ∧
    ((k ⟨10799996, .slewing, 1⟩).state = .slewing ∧ (k ⟨10799996, .slewing, 1⟩).value + 2 < 10799999) ∧
    ((k ⟨10799997, .slewing, 200⟩).value < 10799999 ∧ 10799999 ≤ (k ⟨10799997, .slewing, 200⟩).value + 2) ∧
    (k ⟨0, .slewing, -2⟩).slew < -1 ∧ (k ⟨0, .slewing, -1⟩).slew = -1 ∧ (k ⟨0, .slewing, -1⟩).value ≠ 10799999 ∧
    (k ⟨10799999, .slewing, -1⟩).slew = -1 ∧ (k ⟨10799999, .slewing, -1⟩).value = 10799999 := by decide +kernel

theorem witness_SettingsClampAndStoreInOrder : base.isSupervisor 0 ∧ base.canTake 0 (.settings 0 []) ∧
    (∀ pairs ∈ [List.replicate 16 (5, 65535), [(0, 30), (6, 0)], [(0, 30), (1, 45)]], base.canTake 0 (.settings 0 pairs) ∧
      pairs.length ≤ 16 ∧ pairs ≠ []) ∧
    (∃ q ∈ [(0, 30), (6, 0)], 6 ≤ q.1) ∧ (∀ q ∈ List.replicate 16 (5, 65535), q.1 < 6) ∧
    (∀ q ∈ [(0, 30), (1, 45)], q.1 < 6) ∧
    (16 < (List.replicate 17 (0, 30)).length ∧ base.canTake 0 (.settings 0 (List.replicate 17 (0, 30)))) ∧
    (base.canTake 0 (.settings 0 [(0, 99)]) ∧ max (settingRange 0).1 (min (settingRange 0).2 99) ≠ base.content.settings.horizon) := by
  simp only [State.canTake, State.isSupervisor]
  decide +kernel

/-! ## The hypotheses of the statements are met: the board -/

/-- A board whose last number alone is FREE, with room for one cell. -/
def nearlyFull : State := onContent (fun c => { c with board :=
  ⟨(Vector.replicate 192 (some placard)).set 191 none, List.finRange 191 |>.map (Fin.castLE (by decide)), 1023, 5⟩ }) base

theorem witness_MatchingComparesTheMaskedBits : placard.matchesPanel (panel .ready) = true ∧
    ({ placard with mask := 0xFF } : Placard).matchesPanel (panel .ready) = false ∧
    (∀ k < 8, placard.mask.getLsbD k = true → (0x1F : Byte).getLsbD k = placard.base.getLsbD k) ∧
    (postedPlacard 0 aPost).isSome = true ∧ base.delivery.works.panels[(63 : PanelId)] = none := by decide +kernel

/-- A POST with every value at the upper limit of its range, and its kind. -/
def widePost (content : ContentReq) : PostReq :=
  { aPost with content := content, layer := 3, background := 4, flags := 3, windowStart := some 107998
               windowEnd := some 107999, hold := some 31 }

theorem witness_PostCreatesAPlacard_values :
    (∀ c ∈ [ContentReq.text (List.replicate 160 511) 3 2, .departures 15 11 12 3 3, .ticker 7, .clock 3, .glyph 3 511],
      (postedPlacard 0 (widePost c)).isSome = true) ∧
    postInRange aPost ∧ ¬ postInRange { aPost with content := .unknown 5 [] } ∧ ¬ postInRange { aPost with layer := 4 } ∧
    ¬ postInRange { aPost with foreground := 0 } ∧ ¬ postInRange { aPost with background := 5 } ∧
    ¬ postInRange { aPost with flags := 4 } ∧ ¬ postInRange { aPost with windowStart := some 108000 } ∧
    ¬ postInRange { aPost with windowStart := some 9, windowEnd := some 9 } ∧ ¬ postInRange { aPost with hold := some 32 } := by
  refine ⟨by decide +kernel, ⟨⟨by decide, by decide, by decide, by decide⟩, by decide, by decide, by decide, by decide,
    by decide, by nofun, by nofun, by nofun, by nofun⟩, fun h => h.1, fun h => absurd h.2.1 (by decide),
    fun h => absurd h.2.2.1 (by decide), fun h => absurd h.2.2.2.2.1 (by decide), fun h => absurd h.2.2.2.2.2.1 (by decide),
    fun h => absurd (h.2.2.2.2.2.2.1 _ rfl) (by decide), fun h => absurd (h.2.2.2.2.2.2.2.2.1 _ _ rfl rfl) (by decide),
    fun h => absurd (h.2.2.2.2.2.2.2.2.2 _ rfl) (by decide)⟩

theorem witness_postInRange_departures_at_its_limits : postInRange (widePost (.departures 15 11 12 3 3)) := by
  refine ⟨by simp [widePost, kindInRange], by decide, by decide, by decide, by decide, by decide, ?_, ?_, ?_, ?_⟩ <;>
    simp [widePost, inOrder]

/-- FP0 owns hold 2. -/
def holding : State := withHold 2 ⟨.taken 0 20000, [], 20, none⟩ base

theorem holding_two : holdTakenBy 0 holding.content (some 2) := by
  intro h e
  obtain rfl : h = 2 := Fin.ext (by simpa using e.symm)
  exact ⟨20000, by decide +kernel⟩

theorem not_holding_two : ¬ holdTakenBy 0 base.content (some 2) := fun h => by
  obtain ⟨t, e⟩ := h 2 rfl
  have key : (base.content.holds[(2 : HoldId)]).state = .empty := by decide +kernel
  rw [key] at e
  cases e

theorem witness_PostCreatesAPlacard_rights : let onThree : PostReq := { aPost with layer := 3 }
    let bound : PostReq := { aPost with hold := some 2 }
    (postInRange onThree ∧ onThree.layer = 3 ∧ (base.delivery.ports[(1 : PortId)]).rank = .feed ∧ base.isSupervisor 0) ∧
    (postInRange bound ∧ bound.layer ≠ 3 ∧ holdTakenBy 0 holding.content bound.hold ∧
      ¬ holdTakenBy 0 base.content bound.hold) ∧
    holdTakenBy 0 base.content aPost.hold ∧ aPost.layer ≠ 3 :=
  ⟨⟨⟨⟨by decide, by decide, by decide, by decide⟩, by decide, by decide, by decide, by decide, by decide, by nofun, by nofun,
      by nofun, by nofun⟩, rfl, by decide +kernel, by unfold State.isSupervisor; decide +kernel⟩,
    ⟨⟨⟨by decide, by decide, by decide, by decide⟩, by decide, by decide, by decide, by decide, by decide, by nofun, by nofun,
      by nofun, of_some rfl (by decide)⟩, by decide, holding_two, not_holding_two⟩, by nofun, by decide⟩

theorem witness_PostCreatesAPlacard_room : (fullBoard.canTake 0 (.post 0 aPost) ∧
      ∀ n : PlacardId, fullBoard.content.board.placards[n] ≠ none) ∧
    (nearlyFull.canTake 0 (.post 0 aPost) ∧ nearlyFull.content.board.placards[(191 : PlacardId)] = none ∧
      (∀ m : PlacardId, m < 191 → nearlyFull.content.board.placards[m] ≠ none) ∧
      nearlyFull.content.board.cellsUsed + placard.content.cells = 1024) ∧
    1024 < nearlyFull.content.board.cellsUsed + (PlacardContent.text (List.replicate 17 0) 0 .left).cells := by
  simp only [State.canTake]
  decide +kernel

/-- A placard of each of the layers 0, 1 and 2, the middle one twice, in draw order. -/
def layered : State := onContent (fun c => { c with board :=
  { c.board with
    placards := (((c.board.placards.set 0 (some { placard with layer := 0 })).set 9 (some placard)).set 7 (some placard)).set 2
      (some { placard with layer := 2 })
    drawOrder := [0, 9, 7, 2], cellsUsed := 4 } }) base

theorem layered_orderOk : orderOk layered.content.board := by
  unfold orderOk
  decide +kernel

/-- A POST to layer 1 stands after all of layers 0 and 1 and before layer 2, and so does a placard moved from layer 0 to 1. -/
theorem test_draw_order_of_a_layer :
    (after (.post 0 { aPost with layer := 1 }) layered).content.board.drawOrder = [0, 9, 7, 1, 2] ∧
    (after (.amend 0 0 { noAmend with layer := some 1 }) layered).content.board.drawOrder = [9, 7, 0, 2] := by decide +kernel

theorem witness_PostCreatesAPlacard_order : orderOk layered.content.board ∧ layered.canTake 0 (.post 0 { aPost with layer := 1 }) ∧
    layered.content.board.placards[(1 : PlacardId)] = none ∧ layered.content.board.placards[(0 : PlacardId)] ≠ none ∧
    layered.content.board.cellsUsed + placard.content.cells ≤ 1024 := by
  refine ⟨layered_orderOk, ?_⟩
  simp only [State.canTake]
  decide +kernel

theorem witness_AmendAndTextSetChangeThePlacard_order : orderOk layered.content.board ∧
    layered.canTake 0 (.amend 0 0 { noAmend with layer := some 1 }) ∧
    layered.content.board.placards[(0 : PlacardId)] = some { placard with layer := 0 } ∧
    layered.content.board.drawOrder.filter (fun m => decide (m ≠ 0)) = [9, 7] ++ [2] := by
  refine ⟨layered_orderOk, ?_⟩
  simp only [State.canTake]
  decide +kernel

theorem witness_AmendAndTextSetChangeThePlacard_values :
    amendInRange noAmend ∧ ¬ amendInRange { noAmend with layer := some 4 } ∧ ¬ amendInRange { noAmend with rowCount := some 0 } ∧
    ¬ amendInRange { noAmend with text := some (List.replicate 161 0) } ∧ ¬ amendInRange { noAmend with hold := .set 32 } ∧
    amendValid { noAmend with layer := some 3, text := some (List.replicate 160 511), font := some 3, align := some 2, background := some 4
                              flags := some 3, windowStart := .set 107999, hold := .set 31 } = true ∧
    base.content.board.placards[(191 : PlacardId)] = none :=
  ⟨by simp [amendInRange, noAmend], fun h => absurd (h.1 _ rfl) (by decide),
    fun h => absurd (h.2.2.2.2.2.2.1 _ rfl) (by decide), fun h => absurd (h.2.1 _ rfl).1 (by decide +kernel),
    fun h => absurd (h.2.2.2.2.2.2.2.2.2.2.2.2.2.2.2.2 _ rfl) (by decide), by decide +kernel, by decide +kernel⟩

/-- Placard 7 bound to hold 2, that FP0 owns, with a window that ends at 20. -/
def boundPlacard : Placard := { placard with hold := some 2, windowEnd := some 20 }

theorem witness_AmendAndTextSetChangeThePlacard_fits :
    let fits (f : AmendReq) (pl : Placard) : Prop :=
      amendFitsKind f pl.content ∧ inOrder (amendedField f.windowStart pl.windowStart) (amendedField f.windowEnd pl.windowEnd)
    let full : AmendReq := { noAmend with layer := some 2, text := some (List.replicate 160 511), windowStart := .set 19 }
    amendInRange full ∧ fits full boundPlacard ∧ fits { noAmend with windowStart := .set 20, windowEnd := .remove } boundPlacard ∧
    ¬ fits { noAmend with ticker := some 0 } boundPlacard ∧ ¬ fits { noAmend with windowStart := .set 20 } boundPlacard ∧
    fits { noAmend with list := some 0 } { placard with content := .departures 0 0 1 0 0 } ∧
    fits { noAmend with ticker := some 0 } { placard with content := .ticker 7 } ∧
    fits { noAmend with font := some 0 } { placard with content := .clock 3 } ∧
    fits { noAmend with glyph := some 511 } { placard with content := .glyph 3 0 } :=
  ⟨by simp [amendInRange, noAmend, -List.reduceReplicate],
    by simp [amendFitsKind, noAmend, boundPlacard, placard, inOrder, amendedField],
    by simp [amendFitsKind, noAmend, boundPlacard, placard, inOrder, amendedField],
    by simp [amendFitsKind, noAmend, boundPlacard, placard],
    fun h => absurd (h.2 20 20 rfl rfl) (by decide), by simp [amendFitsKind, noAmend, placard, inOrder, amendedField],
    by simp [amendFitsKind, noAmend, placard, inOrder, amendedField],
    by simp [amendFitsKind, noAmend, placard, inOrder, amendedField],
    by simp [amendFitsKind, noAmend, placard, inOrder, amendedField]⟩

theorem witness_AmendAndTextSetChangeThePlacard_rights : let s := withPlacard 7 boundPlacard holding
    let onThree : AmendReq := { noAmend with layer := some 3 }
    (s.content.board.placards[(7 : PlacardId)] = some boundPlacard ∧ boundPlacard.owner = 0 ∧ boundPlacard.owner ≠ 1 ∧
      onThree.layer.getD boundPlacard.layer = 3 ∧ boundPlacard.layer ≠ 3 ∧ (s.delivery.ports[(1 : PortId)]).rank = .feed ∧
      s.isSupervisor 0) ∧
    -- the hold condition met before the change, and after it when the hold is kept or removed, but not when another is named
    (holdTakenBy 0 s.content (boundPlacard.hold.map Fin.val) ∧
      holdTakenBy 0 s.content (amendedField .keep (boundPlacard.hold.map Fin.val)) ∧
      holdTakenBy 0 s.content (amendedField .remove (boundPlacard.hold.map Fin.val)) ∧
      ¬ holdTakenBy 0 s.content (amendedField (.set 3) (boundPlacard.hold.map Fin.val))) ∧
    ¬ holdTakenBy 0 base.content (boundPlacard.hold.map Fin.val) := by
  refine ⟨⟨by decide +kernel, rfl, by decide, rfl, by decide, by decide +kernel, by unfold State.isSupervisor; decide +kernel⟩,
    ⟨holding_two, holding_two, by nofun, fun h => ?_⟩, not_holding_two⟩
  obtain ⟨t, e⟩ := h 3 rfl
  have key : ((withPlacard 7 boundPlacard holding).content.holds[(3 : HoldId)]).state = .empty := by decide +kernel
  rw [key] at e
  cases e

theorem witness_AmendAndTextSetChangeThePlacard_room :
    let s (used : Nat) := onContent (fun c => { c with board := { c.board with cellsUsed := used } }) (withPlacard 7 placard base)
    let cells (used : Nat) : Nat := (s used).content.board.cellsUsed - textCells [1, 2] + textCells (List.replicate 160 511)
    (s 1015).content.board.placards[(7 : PlacardId)] = some placard ∧ placard.content = .text [1, 2] 0 .left ∧
      cells 1015 = 1024 ∧ cells 1016 = 1025 ∧ (s 1015).canTake 0 (.textSet 0 7 []) ∧ (s 1016).canTake 0 (.amend 0 7 noAmend) := by
  simp only [State.canTake]
  decide +kernel

theorem witness_AmendAndTextSetChangeThePlacard_textSet : let s := withPlacard 7 placard base
    let clock : Placard := { placard with content := .clock 0 }
    let text := List.replicate 160 511
    (s.canTake 0 (.textSet 0 7 text) ∧ s.canTake 1 (.textSet 1 7 text) ∧ text.length ≤ 160 ∧ (∀ x ∈ text, x ≤ 511) ∧
      clock.content.isText = false ∧ (withPlacard 7 clock base).content.board.placards[(7 : PlacardId)] = some clock ∧
      (withPlacard 7 clock base).canTake 0 (.textSet 0 7 text) ∧ (∃ x ∈ [512], 511 < x)) ∧
    holdTakenBy 0 s.content (placard.hold.map Fin.val) := by
  simp only [State.canTake]
  exact ⟨by decide +kernel, by nofun⟩

theorem witness_WithdrawFreesThePlacard : let s := withPlacard 7 boundPlacard holding
    let other := withPlacard 7 { placard with owner := 1 } base
    (s.canTake 0 (.withdraw 0 191) ∧ s.content.board.placards[(191 : PlacardId)] = none) ∧
    (s.canTake 2 (.withdraw 2 7) ∧ (s.delivery.ports[(2 : PortId)]).rank = .feed ∧ boundPlacard.owner ≠ 2 ∧
      s.content.board.placards[(7 : PlacardId)] = some boundPlacard) ∧
    (other.canTake 0 (.withdraw 0 7) ∧ other.isSupervisor 0 ∧ other.canTake 1 (.withdraw 1 7) ∧
      (other.delivery.ports[(1 : PortId)]).rank = .feed ∧
      other.content.board.placards[(7 : PlacardId)] = some { placard with owner := 1 }) := by
  simp only [State.canTake, State.isSupervisor]
  decide +kernel

theorem witness_WithdrawFreesThePlacard_hold : let feeds : Placard := { boundPlacard with owner := 1 }
    holdTakenBy 1 base.content (placard.hold.map Fin.val) ∧ holdTakenBy 0 holding.content (boundPlacard.hold.map Fin.val) ∧
    feeds.owner = 1 ∧ ¬ holdTakenBy 1 holding.content (feeds.hold.map Fin.val) := by
  refine ⟨by nofun, holding_two, rfl, fun h => ?_⟩
  obtain ⟨t, e⟩ := h 2 rfl
  have key : (holding.content.holds[(2 : HoldId)]).state = .taken 0 20000 := by decide +kernel
  rw [key] at e
  cases e

/-- Panel 0, matched by the placard, whose acknowledged generation is just the placard's. -/
def confirmedPanel : Panel := { panel .parked with ack := some ⟨[1, 2], 3, 5⟩ }

theorem witness_ConfirmationsOpenSucceedAndLapse_open :
    let s := withPanel 0 confirmedPanel (withPlacard 7 placard base)
    let s' := withPanel 1 panelOne s
    let counted (s : State) := s.delivery.works.panelList.filter (fun x => placard.matchesPanel x.2 && x.2.online)
    (s.canTake 0 (.confirmShown 0 15 7 61) ∧ (s.delivery.ports[(0 : PortId)]).tags[(15 : Tag)] = .free ∧
      s.content.board.placards[(7 : PlacardId)] = some placard ∧ counted s = [(0, confirmedPanel)] ∧
      ∀ x ∈ [((0 : PanelId), confirmedPanel)], ∃ r, x.2.ack = some r ∧ placard.generation ≤ r.generation) ∧
    s'.canTake 0 (.confirmShown 0 15 7 0) ∧ (s'.delivery.ports[(0 : PortId)]).tags[(15 : Tag)] = .free ∧
      s'.content.board.placards[(7 : PlacardId)] = some placard ∧ counted s' = [(0, confirmedPanel), (1, panelOne)] ∧
      ∃ x ∈ [((0 : PanelId), confirmedPanel), (1, panelOne)], ∀ r, x.2.ack = some r → r.generation < placard.generation := by
  simp only [State.canTake]
  refine ⟨⟨by decide +kernel, by decide +kernel, by decide +kernel, by decide +kernel, ?_⟩, by decide +kernel,
    by decide +kernel, by decide +kernel, by decide +kernel, ?_⟩
  · intro x hx
    cases List.mem_singleton.mp hx
    exact ⟨_, rfl, by decide⟩
  · exact ⟨_, List.mem_cons_of_mem _ (List.mem_singleton.mpr rfl), of_none rfl⟩

theorem witness_ConfirmationsOpenSucceedAndLapse_checks :
    (confirmingState.canTake 0 (.confirmShown 0 3 7 0) ∧ (confirmingState.delivery.ports[(0 : PortId)]).tags[(3 : Tag)] ≠ .free) ∧
    base.canTake 0 (.confirmShown 0 15 192 0) ∧ (base.delivery.ports[(0 : PortId)]).tags[(15 : Tag)] = .free ∧
      base.canTake 0 (.confirmShown 0 15 191 0) ∧ base.content.board.placards[(191 : PlacardId)] = none := by
  simp only [State.canTake]
  decide +kernel

theorem witness_ConfirmationsOpenSucceedAndLapse_lapse :
    confirmingState.delivery.confirmationOf 0 3 = some ⟨0, 3, 7, 1000⟩ ∧
      confirmingState.content.board.placards[(7 : PlacardId)] = some placard := by decide +kernel

/-! ## The hypotheses of the statements are met: holds -/

/-- Hold 2 in a state, with FP3 waiting under tag 4. -/
def heldState (st : HoldState) : State := withTag 3 4 (.take 2) (withHold 2 ⟨st, [⟨3, 4, 5000⟩], 120, none⟩ base)

theorem witness_TakeGrantsRefusesOrQueues :
    (base.canTake 1 (.take 1 15 2 60) ∧ (base.delivery.ports[(1 : PortId)]).tags[(15 : Tag)] = .free ∧
      (base.content.holds[(2 : HoldId)]).state = .empty) ∧
    ((heldState (.taken 1 9)).canTake 3 (.take 3 4 2 1) ∧
      ((heldState (.taken 1 9)).delivery.ports[(3 : PortId)]).tags[(4 : Tag)] ≠ .free) ∧
    ((heldState (.taken 1 9)).canTake 1 (.take 1 0 2 0) ∧
      ((heldState (.taken 1 9)).content.holds[(2 : HoldId)]).state = .taken 1 9) ∧
    ((heldState (.taken 1 9)).canTake 2 (.take 2 0 2 0) ∧ (heldState (.taken 1 9)).canTake 2 (.take 2 0 2 61) ∧
      ∀ x ∈ ((heldState (.taken 1 9)).content.holds[(2 : HoldId)]).waiters, x.port ≠ 2) ∧
    ((heldState (.taken 1 9)).canTake 3 (.take 3 5 2 1) ∧
      ((heldState (.taken 1 9)).delivery.ports[(3 : PortId)]).tags[(5 : Tag)] = .free ∧
      ∃ x ∈ ((heldState (.taken 1 9)).content.holds[(2 : HoldId)]).waiters, x.port = 3) ∧
    (heldState (.handed 0 1 9)).canTake 0 (.take 0 0 2 0) ∧ (heldState (.handed 0 1 9)).canTake 1 (.take 1 0 2 0) ∧
      (heldState (.handed 0 1 9)).canTake 2 (.take 2 0 2 1) ∧
      ((heldState (.handed 0 1 9)).content.holds[(2 : HoldId)]).state = .handed 0 1 9 := by
  simp only [State.canTake]
  decide +kernel

theorem witness_ReleaseAndExpiryServeTheQueue : let alone := withHold 2 ⟨.taken 0 20000, [], 20, none⟩ base
    let s := heldState (.handed 0 1 9)
    (s.canTake 1 (.release 1 2) ∧ (s.content.holds[(2 : HoldId)]).owner ≠ some 1) ∧
    (alone.canTake 0 (.release 0 2) ∧ (alone.content.holds[(2 : HoldId)]).owner = some 0 ∧
      (alone.content.holds[(2 : HoldId)]).waiters = [] ∧ (alone.content.holds[(2 : HoldId)]).deadline = some 20000) ∧
    s.canTake 0 (.release 0 2) ∧ (s.content.holds[(2 : HoldId)]).owner = some 0 ∧
      (s.content.holds[(2 : HoldId)]).waiters = [⟨3, 4, 5000⟩] ∧ (s.content.holds[(2 : HoldId)]).deadline = some 9 := by
  simp only [State.canTake]
  decide +kernel

/-- FP0 owns hold 2, bound to group 2, with a placard bound to it on an online member and one offline. -/
def boundHold : State := withGroup 2 ⟨[0, 1], 20, none⟩ (withPanel 0 (panel .parked) (withPanel 1 { panelOne with state := .offline }
  (withPlacard 7 { placard with hold := some 2 } (withHold 2 ⟨.taken 0 20000, [], 20, some 2⟩ base))))

theorem witness_ReleaseAndExpiryServeTheQueue_group : let k := boundHold.content.holds[(2 : HoldId)]
    (boundHold.canTake 0 (.release 0 2) ∧ k.owner = some 0 ∧ k.waiters = [] ∧ k.deadline = some 20000 ∧ k.group = some 2 ∧
      (boundHold.delivery.groups[(2 : GroupId)]).swap = none ∧
      ((boundHold.delivery.groups[(2 : GroupId)]).members).filter
        (fun m => (boundHold.delivery.works.panels[m]).any Panel.online) = [0]) ∧
    boundHold.content.board.present.any (fun pl => decide (pl.hold = some 2) && pl.matchesPanel (panel .parked)) = true := by
  simp only [State.canTake]
  decide +kernel

/-- The release arms the group, raises STAGE on its online member, and CONTENT on the panels the hold froze. -/
theorem test_release_arms_the_bound_group : let t := after (.release 0 2) boundHold
    (t.delivery.groups[(2 : GroupId)]).swap = some ⟨.hold, [0], [], [], 2000⟩ ∧
      (t.delivery.works.panels[(0 : PanelId)]).map Panel.wake =
        some ((CauseSet.none.insert .stage).insert .content) := by decide +kernel

theorem witness_HandoverAndWaitTimeout : let s := heldState (.taken 0 9)
    (s.canTake 1 (.handover 1 2 0) ∧ (s.content.holds[(2 : HoldId)]).owner ≠ some 1) ∧
    (s.canTake 0 (.handover 0 2 0) ∧ s.canTake 0 (.handover 0 2 1) ∧ s.canTake 0 (.handover 0 2 3) ∧
      (s.content.holds[(2 : HoldId)]).owner = some 0) ∧
    (s.content.holds[(2 : HoldId)]).waiterOf 1 = none ∧ (s.content.holds[(2 : HoldId)]).waiterOf 3 = some ⟨3, 4, 5000⟩ := by
  simp only [State.canTake]
  decide +kernel

theorem witness_HoldSetupStoresLimitAndGroup : base.isSupervisor 0 ∧ base.canTake 0 (.holdSetup 0 2 0 8) ∧
    base.canTake 0 (.holdSetup 0 2 255 255) ∧ base.canTake 0 (.holdSetup 0 2 20 7) ∧
    (base.content.holds[(2 : HoldId)]).state = .empty ∧ (heldState (.taken 0 9)).canTake 0 (.holdSetup 0 2 20 7) ∧
    (heldState (.taken 0 9)).isSupervisor 0 ∧ ((heldState (.taken 0 9)).content.holds[(2 : HoldId)]).state ≠ .empty := by
  simp only [State.canTake, State.isSupervisor]
  decide +kernel

/-! ## The hypotheses of the statements are met: panels -/

theorem witness_PanelDefineSetsTheRecord_fits : base.isSupervisor 0 ∧
    -- the limits of each class, and one beyond
    base.canTake 0 (.panelDefine 0 63 0 7 7 PanelClass.line.code.toNat 64 8 1 0) ∧
    (64 ≤ 64 ∧ 64 ≤ 256 ∧ 64 % 8 = 0 ∧ 8 ≤ 8 ∧ 8 ≤ 32 ∧ 8 % 8 = 0) ∧
    base.canTake 0 (.panelDefine 0 63 0 7 7 PanelClass.rows.code.toNat 256 96 2 61) ∧
    (64 ≤ 256 ∧ 256 ≤ 256 ∧ 256 % 8 = 0 ∧ 16 ≤ 96 ∧ 96 ≤ 96 ∧ 96 % 8 = 0) ∧
    base.canTake 0 (.panelDefine 0 63 0 7 7 PanelClass.wide.code.toNat 272 32 2 60) ∧
    (264 ≤ 272 ∧ 272 ≤ 512 ∧ 272 % 16 = 0 ∧ 8 ≤ 32 ∧ 32 ≤ 32 ∧ 32 % 8 = 0) ∧
    base.canTake 0 (.panelDefine 0 63 0 7 7 PanelClass.wide.code.toNat 264 32 1 0) ∧ ¬ (264 % 16 = 0) ∧
    base.canTake 0 (.panelDefine 0 63 0 7 7 PanelClass.line.code.toNat 64 8 3 0) ∧ ¬ (3 = 1 ∨ 3 = 2) := by
  simp only [State.canTake, State.isSupervisor]
  decide +kernel

theorem witness_PanelDefineSetsTheRecord_state_and_place : let ready := withPanel 0 (panel .ready) base
    let offline := withPanel 0 (panel .offline) base
    (ready.canTake 0 (.panelDefine 0 0 0x12 0 3 PanelClass.rows.code.toNat 128 16 1 0) ∧ ready.isSupervisor 0 ∧
      ∃ q, ready.delivery.works.panels[(0 : PanelId)] = some q ∧ q.state ≠ .offline) ∧
    (offline.canTake 0 (.panelDefine 0 1 0x12 0 3 PanelClass.rows.code.toNat 128 16 1 0) ∧ offline.isSupervisor 0 ∧
      (∀ q, offline.delivery.works.panels[(1 : PanelId)] = some q → q.state = .offline) ∧
      ∃ m q, m ≠ (1 : PanelId) ∧ offline.delivery.works.panels[m] = some q ∧ q.link = 0 ∧ q.drop = 3) ∧
    offline.canTake 0 (.panelDefine 0 0 0x12 0 3 PanelClass.rows.code.toNat 128 16 1 0) ∧
      (∀ q, offline.delivery.works.panels[(0 : PanelId)] = some q → q.state = .offline) ∧
      ∀ m q, m ≠ (0 : PanelId) → offline.delivery.works.panels[m] = some q → q.link = 0 → q.drop ≠ 3 := by
  simp only [State.canTake, State.isSupervisor]
  refine ⟨⟨by decide +kernel, by decide +kernel, panel .ready, by decide +kernel, by decide⟩, ⟨by decide +kernel,
    by decide +kernel, of_none (by decide +kernel), 0, panel .offline, by decide, by decide +kernel, rfl, rfl⟩,
    by decide +kernel, of_some (a := panel .offline) (by decide +kernel) rfl, ?_⟩
  intro m q hm hq
  have none_ : ∀ m : PanelId, m ≠ 0 → (withPanel 0 (panel .offline) base).delivery.works.panels[m] = none := by decide +kernel
  rw [none_ m hm] at hq
  cases hq

theorem witness_PanelRemoveAndRestore_remove : base.isSupervisor 0 ∧ base.canTake 0 (.panelRemove 0 0) ∧
    base.delivery.works.panels[(0 : PanelId)] = none ∧
    (∀ k ∈ [streamingLink, { streamingLink with line := .brk false }, readyLink, { readyLink with line := .show },
        { readyLink with pendingShow := [1] }, waitingLink, idleLink, probingLink, Link.reset],
      let s := withPanel 0 sendingPanel (withLink 0 k base)
      s.isSupervisor 0 ∧ s.canTake 0 (.panelRemove 0 0) ∧
        s.delivery.works.panels[(0 : PanelId)] = some sendingPanel ∧ sendingPanel.state = .sending) ∧
    (servedState workingLane).canTake 0 (.panelRemove 0 0) ∧ (servedState workingLane).isSupervisor 0 ∧
      (servedState workingLane).delivery.works.panels[(0 : PanelId)] = some (panel .loaded) ∧
      (servedState workingLane).delivery.works.lanesServing 0 = [0] := by
  simp only [State.canTake, State.isSupervisor]
  decide +kernel

theorem witness_PanelRemoveAndRestore_restore : let isolated := withPanel 0 (panel .isolated) (withLink 0 idleLink base)
    let parked := withPanel 0 (panel .parked) base
    (isolated.isSupervisor 0 ∧ isolated.canTake 0 (.panelRestore 0 0) ∧
      isolated.delivery.works.panels[(0 : PanelId)] = some (panel .isolated)) ∧
    parked.isSupervisor 0 ∧ parked.canTake 0 (.panelRestore 0 0) ∧
      ∀ q, parked.delivery.works.panels[(0 : PanelId)] = some q → q.state ≠ .isolated := by
  simp only [State.canTake, State.isSupervisor]
  exact ⟨by decide +kernel, by decide +kernel, by decide +kernel, of_some (a := panel .parked) (by decide +kernel) (by decide)⟩

/-- A confirmation whose one counted panel is removed ends OK with no panel counted. -/
theorem test_panelRemove_checks_confirmations : let t := after (.panelRemove 0 0) confirmingState
    t.delivery.confirmations = [] ∧ (t.delivery.ports[(0 : PortId)]).responses.map Frame.bytes =
      [[0x01, 0x51, 0x00, 0x00, 0, 0], [0x02, 0x35, 0x00, 0x03, 1, 0, 0]] := by decide +kernel

theorem witness_HoldoffAndRefreshDeadlinesRaiseTheirCauses :
    let q : Panel := { panel .parked with holdoff := some 100, refreshDeadline := some 60000 }
    (withPanel 0 q base).delivery.works.panels[(0 : PanelId)] = some q ∧ q.holdoff = some 100 ∧
      q.refreshDeadline = some 60000 := by decide +kernel

/-- A cause of an interest named and not named by it, one of no interest, URGENT, and an UNDEFINED record. -/
theorem witness_HoldoffAndRefreshDeadlinesRaiseTheirCauses_raised :
    let q : Panel := { panel .offline with interest := CauseSet.none.insert .scroll }
    let w := (withPanel 0 q base).delivery.works
    w.panels[(0 : PanelId)] = some q ∧ q.interest.has .figure = false ∧ q.interest.has .scroll = true ∧
      w.panels[(63 : PanelId)] = none ∧ (Cause.content ≠ .urgent ∧ Cause.scroll ≠ .urgent) := by decide +kernel

/-- An OFFLINE panel gains a cause of its interest and no other, and stays OFFLINE. -/
theorem test_raise_on_an_offline_panel : let q : Panel := { panel .offline with interest := CauseSet.none.insert .scroll }
    let d := (withPanel 0 q base).delivery
    ((d.raise base.content.board .scroll 0).works.panels[(0 : PanelId)] = some { q with wake := CauseSet.none.insert .scroll }) ∧
    ((d.raise base.content.board .figure 0).works.panels[(0 : PanelId)] = some q) := by decide +kernel

/-- A panel draws a blinking CLOCK placard, and no other. -/
theorem test_interest_of_a_panel : let s := withPlacard 7 { placard with content := .clock 0, blink := true } base
    s.content.board.interestOf (panel .ready) = (CauseSet.none.insert .clock).insert .blink := by decide +kernel

/-! ## The hypotheses of the statements are met: lanes -/

/-- A WIDE panel of one strip at drop 3 of L0, LOADED. -/
def widePanel : Panel := { panel .loaded with cls := .wide, width := 272, height := 8 }

/-- Its context. -/
def wideCopy : Context := ⟨0, .wide, 272, 8, 0, 3, 1, none, true⟩

/-- The WIDE panel with lanes 0 and 1. -/
def pairState (even odd : Lane) : State := withPanel 0 widePanel (withLink 0
  { idleLink with state := .reserved, frame := some ⟨0, 3, none, [], 0, 0, false, false, false, false, false⟩ }
  (withLane 0 even (withLane 1 odd base)))

def evenLoading : Lane := { loadingLane with partner := some 1 }
def oddLoading : Lane := { loadingLane with partner := some 0, work := CauseSet.none }
def copied (n : Lane) : Lane := { n with context := some wideCopy }
def evenWorking : Lane := { copied evenLoading with state := .working, frame := some ⟨5, false, false, [], [], true, false⟩ }
def oddWorking : Lane := { copied oddLoading with state := .working }

theorem witness_ContextCopyStartsTheLane_single : let w := (servedState loadingLane).delivery.works
    (w.lanes[(0 : LaneId)]).state = .loading ∧ (w.lanes[(0 : LaneId)]).panel = some 0 ∧
      w.panels[(0 : PanelId)] = some (panel .loaded) ∧ (w.lanes[(0 : LaneId)]).partner = none ∧
      w.lanesServing 0 = [0] := by decide +kernel

theorem witness_ContextCopyStartsTheLane_pair : ∀ s ∈ [pairState evenLoading oddLoading, pairState evenLoading (copied oddLoading),
      pairState (copied evenLoading) oddLoading], let w := s.delivery.works
    (w.lanes[evenLane 0]).state = .loading ∧ (w.lanes[oddLane 0]).state = .loading ∧ (w.lanes[evenLane 0]).panel = some 0 ∧
      (w.lanes[oddLane 0]).panel = some 0 ∧ w.panels[(0 : PanelId)] = some widePanel ∧
      w.lanesServing 0 = [evenLane 0, oddLane 0] ∧ (w.lanes[evenLane 0]).partner = some (oddLane 0) ∧
      (w.lanes[oddLane 0]).partner = some (evenLane 0) := by decide +kernel

theorem witness_ContextCopyStartsTheLane_pair_contexts :
    ((pairState evenLoading oddLoading).delivery.works.lanes[oddLane 0]).context = none ∧
    ((pairState evenLoading oddLoading).delivery.works.lanes[evenLane 0]).context = none ∧
    ((pairState evenLoading (copied oddLoading)).delivery.works.lanes[oddLane 0]).context.isSome = true ∧
    ((pairState (copied evenLoading) oddLoading).delivery.works.lanes[evenLane 0]).context.isSome = true := by decide +kernel

/-- Lane 0 on the last strip of panel 0, which holds an empty picture. -/
def knownLane : Lane := { workingLane with
  context := some { copy with ack := some ⟨[1, digest (List.replicate 256 0)], 3, 5⟩, fullDemand := false }
  nextStrip := 1
  frame := some ⟨5, true, false, [1], [.keep], true, false⟩ }

/-- The empty picture of a strip of panel 0. -/
def emptyStrip : List (List Nat) := List.replicate 128 (List.replicate 8 0)

theorem witness_StripIsComposedDecidedAndWritten_coded : let s := servedState workingLane
    let k := s.delivery.works.lanes[(0 : LaneId)]
    (k.state = .working ∧ k.partner = none ∧ k.context = some copy ∧ k.frame = some ⟨5, false, false, [], [], true, false⟩ ∧
      s.delivery.works.panels[copy.panel] = some (panel .loaded) ∧ s.delivery.works.lanesServing copy.panel = [0] ∧
      k.composed = false ∧ k.unwritten = [] ∧ k.nextStrip = 0 ∧ 0 < copy.strips) ∧
    composeColumns s.content (panel .loaded) 0 0 copy.width = emptyStrip ∧
    (false = true ↔ copy.fullDemand = false ∧ k.work.has .refresh = false ∧
      ∃ r, copy.ack = some r ∧ r.strips[0]? = some (digest (stripBytes copy.cls emptyStrip))) :=
  ⟨by decide +kernel, by decide +kernel, nofun, fun h => absurd h.1 (by decide)⟩

theorem witness_StripIsComposedDecidedAndWritten_kept : let s := servedState knownLane
    let k := s.delivery.works.lanes[(0 : LaneId)]
    let x : Context := { copy with ack := some ⟨[1, digest (List.replicate 256 0)], 3, 5⟩, fullDemand := false }
    (k.state = .working ∧ k.partner = none ∧ k.context = some x ∧ k.frame = some ⟨5, true, false, [1], [.keep], true, false⟩ ∧
      s.delivery.works.panels[x.panel] = some (panel .loaded) ∧ s.delivery.works.lanesServing x.panel = [0] ∧
      k.composed = false ∧ k.unwritten = [] ∧ k.nextStrip = 1 ∧ 1 < x.strips) ∧
    composeColumns s.content (panel .loaded) 1 0 x.width = emptyStrip ∧
    (true = true ↔ x.fullDemand = false ∧ k.work.has .refresh = false ∧
      ∃ r, x.ack = some r ∧ r.strips[1]? = some (digest (stripBytes x.cls emptyStrip))) :=
  ⟨by decide +kernel, by decide +kernel, fun _ => ⟨rfl, by decide +kernel, _, rfl, by decide +kernel⟩, fun _ => rfl⟩

/-- A board of one placard that draws glyph 65 of font 1, two columns of eight rows, inverted, at column 3 of panel 0. -/
def drawnState : State := withFont 1 ⟨8, [0xAA, 0x55], [(65, ⟨2, 0⟩)]⟩ (withPlacard 7
  { placard with x := 3, w := 4, content := .glyph 1 65, background := some 1, invert := true } base)

/-- The placards that have a content pixel at each pixel of the strip, as a test: the clause on drawing asks for one. -/
theorem witness_StripIsComposedDecidedAndWritten_drawing (column row : Int) :
    ∃ isContent : Placard → Bool, ∀ pl, isContent pl = true ↔ contentAt drawnState.content pl column row := by
  classical
  exact ⟨fun pl => decide (contentAt drawnState.content pl column row), fun pl => decide_eq_true_iff⟩

/-- The pixels of that strip: the fill at the placard's edge, content and fill exchanged by invert, and outside it level 0. -/
theorem test_strip_draws_the_glyph : (composeColumns drawnState.content (panel .ready) 0 0 8).take 6 =
    [List.replicate 8 0, List.replicate 8 0, List.replicate 8 0, [3, 1, 3, 1, 3, 1, 3, 1], [1, 3, 1, 3, 1, 3, 1, 3],
      List.replicate 8 3] := by decide +kernel

theorem witness_StripIsComposedDecidedAndWritten_glyphs : let f := drawnState.content.typeStore.fonts[(1 : FontId)]
    f.glyph? 65 = some ⟨2, 0⟩ ∧ f.glyph? 66 = none ∧ f.drawn 66 = none ∧ f.region[0 + 1 * (8 / 8) + 7 / 8]? = some 0x55 := by
  decide +kernel

theorem witness_PairStripWaitsForBothHalves : let half : List (List Nat) := List.replicate 136 (List.replicate 8 0)
    ∀ s ∈ [pairState evenWorking oddWorking, pairState { evenWorking with buffer := half, composed := true } oddWorking,
      pairState evenWorking { oddWorking with buffer := half, composed := true }], let w := s.delivery.works
    let e := w.lanes[evenLane 0]
    let o := w.lanes[oddLane 0]
    (e.state = .working ∧ o.state = .working ∧ e.partner = some (oddLane 0) ∧ o.partner = some (evenLane 0) ∧
      e.context = some wideCopy ∧ o.context = some wideCopy ∧ e.frame = some ⟨5, false, false, [], [], true, false⟩ ∧
      w.panels[wideCopy.panel] = some widePanel ∧ w.lanesServing wideCopy.panel = [evenLane 0, oddLane 0] ∧
      wideCopy.cls = .wide) ∧
    e.unwritten = [] ∧ o.unwritten = [] ∧ e.nextStrip = 0 ∧ o.nextStrip = 0 ∧ 0 < wideCopy.strips ∧
      ¬ (wideCopy.fullDemand = false) ∧ (e.composed = false ∨ o.composed = false) ∧
      half = composeColumns s.content widePanel 0 0 (wideCopy.width / 2) ∧
      half = composeColumns s.content widePanel 0 (wideCopy.width / 2) (wideCopy.width / 2) := by
  decide +kernel

/-- The states in which a lane of the pair waits: the even one, or the odd one, with code still to write. -/
theorem witness_PairStripWaitsForBothHalves_waits : ∀ s ∈ [pairState { evenWorking with unwritten := [7] } oddWorking,
      pairState evenWorking { oddWorking with unwritten := [7] }], let w := s.delivery.works
    (w.lanes[evenLane 0]).unwritten ≠ [] ∨ (w.lanes[oddLane 0]).unwritten ≠ [] := by decide +kernel

/-- Neither half of the next strip is composed while the other lane has code of this one to write. -/
theorem test_strip_waits_for_the_other_half :
    ((after (.strip 0) (pairState evenWorking { oddWorking with unwritten := [7] })).delivery.works.lanes[(0 : LaneId)]).composed =
      false := by decide +kernel

/-- Lane 0 with two strips kept, the frame a staged candidate or not, of an ended swap or not. -/
def keptStrips (staged ended : Bool) : Lane :=
  { knownLane with frame := some ⟨5, staged, false, [1, 2], [.keep, .keep], true, ended⟩ }

theorem witness_LaneResumesAndEndsCoding_fifoRoom :
    let s := withLink 0 streamingLink (servedState { workingLane with unwritten := [7, 8] })
    let w := s.delivery.works
    let k := w.lanes[(0 : LaneId)]
    k.state = .working ∧ k.partner = none ∧ k.context = some copy ∧ k.frame = some ⟨5, false, false, [], [], true, false⟩ ∧
      w.lanesServing copy.panel = [0] ∧ (w.links[copy.link]).state = .streaming ∧ (w.links[copy.link]).line = .frame ∧
      (w.links[copy.link]).frame = some { frameRecord with number := some 9 } ∧ frameRecord.panel = copy.panel := by
  decide +kernel

/-- The pair with code to write, its frame on the line. -/
def pairStreaming : State := withLink 0 streamingLink (pairState { evenWorking with unwritten := [7] } { oddWorking with unwritten := [8] })

theorem witness_LaneResumesAndEndsCoding_fifoRoom_pair : let w := pairStreaming.delivery.works
    let e := w.lanes[evenLane 0]
    let o := w.lanes[oddLane 0]
    e.partner = some (oddLane 0) ∧ o.partner = some (evenLane 0) ∧ e.context = some wideCopy ∧ o.context = some wideCopy ∧
      e.frame = some ⟨5, false, false, [], [], true, false⟩ ∧ w.lanesServing wideCopy.panel = [evenLane 0, oddLane 0] ∧
      (w.links[wideCopy.link]).state = .streaming ∧ (w.links[wideCopy.link]).line = .frame ∧
      (w.links[wideCopy.link]).frame = some { frameRecord with number := some 9 } ∧ frameRecord.panel = wideCopy.panel := by
  decide +kernel

theorem test_fifoRoom_of_a_pair : let t := (after (.fifoRoom 1 1) pairStreaming).delivery.works
    (t.links[(0 : LinkId)]).fifo = [0x01, 7, 8] ∧ (t.links[(0 : LinkId)]).sent = [0x00] := by decide +kernel

/-- The pair with its one strip decided and written: CODED, or kept. -/
def pairDecided (committed : Bool) (kind : StripKind) : State := withPanel 0 { widePanel with ack := some ⟨[1], 3, 4⟩ }
  (pairState { evenWorking with frame := some ⟨5, false, committed, [1], [kind], false, false⟩ } oddWorking)

theorem witness_LaneResumesAndEndsCoding_codingEnd_pair : ∀ x ∈ [(true, StripKind.coded), (false, .keep)],
    let w := (pairDecided x.1 x.2).delivery.works
    (w.lanes[evenLane 0]).partner = some (oddLane 0) ∧ (w.lanes[oddLane 0]).partner = some (evenLane 0) ∧
      w.lanesServing wideCopy.panel = [evenLane 0, oddLane 0] ∧ (w.lanes[evenLane 0]).state = .working ∧
      (w.lanes[oddLane 0]).state = .working ∧ (w.lanes[evenLane 0]).context = some wideCopy ∧
      (w.lanes[evenLane 0]).frame = some ⟨5, false, x.1, [1], [x.2], false, false⟩ ∧
      (∀ m ∈ [evenLane 0, oddLane 0], (w.lanes[m]).unwritten = []) ∧ [x.2].length = wideCopy.strips ∧
      (w.panels[wideCopy.panel]).map Panel.state = some .loaded ∧ widePanel.link = wideCopy.link := by decide +kernel

theorem test_codingEnd_of_a_pair : let t := (after (.codingEnd 1) (pairDecided true .coded)).delivery.works
    (t.lanes[(0 : LaneId)]).state = .resident ∧ (t.lanes[(1 : LaneId)]).state = .resident ∧
      (t.panels[(0 : PanelId)]).map Panel.state = some .sending := by decide +kernel

theorem witness_LaneResumesAndEndsCoding_codingEnd : let w := (servedState codedLane).delivery.works
    let k := w.lanes[(0 : LaneId)]
    k.state = .working ∧ k.partner = none ∧ k.context = some copy ∧
      k.frame = some ⟨5, false, true, [1, 2], [.coded, .coded], false, false⟩ ∧ w.lanesServing copy.panel = [0] ∧
      w.panels[copy.panel] = some (panel .loaded) ∧ (panel .loaded).link = copy.link ∧
      [StripKind.coded, .coded].length = copy.strips ∧ k.unwritten = [] := by decide +kernel

/-- Panel 0 with two strips kept and group 2 armed, the candidate one of this swap or of an ended one. -/
def nullState (staged ended : Bool) : State := withGroup 2 ⟨[0, 1], 20, some armed⟩
  (withPanel 0 { panel .loaded with ack := some ⟨[1, 2], 3, 4⟩ } (servedState (keptStrips staged ended)))

theorem witness_LaneResumesAndEndsCoding_nullFrame : ∀ x ∈ [(false, false), (true, false), (true, true)],
    let s := nullState x.1 x.2
    let k := s.delivery.works.lanes[(0 : LaneId)]
    k.state = .working ∧ k.partner = none ∧ k.frame = some ⟨5, x.1, false, [1, 2], [.keep, .keep], true, x.2⟩ ∧
      k.context = knownLane.context ∧ s.delivery.works.lanesServing 0 = [0] ∧ k.unwritten = [] ∧
      s.delivery.works.panels[(0 : PanelId)] = some { panel .loaded with ack := some ⟨[1, 2], 3, 4⟩ } ∧
      awaitingGroup s.delivery.groups 0 = some 2 := by decide +kernel

/-- The panels that have arrived in group 2. -/
def arrivedIn2 (s : State) : Option (List PanelId) := (s.delivery.groups[(2 : GroupId)]).swap.map Swap.arrived

/-- Panel 0 as in `nullState`, a candidate of group 2, and expected and dropped in group 1 too, of which PANEL_REMOVE took it
out. -/
def formerMember : State :=
  withGroup 1 ⟨[3], 20, some ⟨.port 0, [0, 3], [0], [], 1000⟩⟩ (nullState true false)

/-- The end of the group that panel 0 has left marks no candidate of its new group, whose swap still takes it (R175, R178). -/
theorem test_a_former_member_is_still_awaited : let t := after (.groupDeadline 1) formerMember
    (t.delivery.groups[(1 : GroupId)]).swap = none ∧
      (t.delivery.works.lanes[(0 : LaneId)]).frame.map FrameBuild.swapEnded = some false ∧
      arrivedIn2 (after (.codingEnd 0) t) = some [0] := by decide +kernel

/-- A null candidate of the swap in progress is an arrival of it, one of an ended swap is none (R175, R178). -/
theorem test_codingEnd_of_an_ended_swap : arrivedIn2 (after (.codingEnd 0) (nullState true false)) = some [0] ∧
    arrivedIn2 (after (.codingEnd 0) (nullState true true)) = some [] := by decide +kernel

/-- The deadline and BOARD_CLEAR mark the staged candidate in a lane of an expected member, and no other frame (R178). -/
theorem test_the_end_of_a_swap_marks_its_candidates :
    let mark (i : Instr) (s : State) : Option (Bool × Bool) :=
      ((after i s).delivery.works.lanes[(0 : LaneId)]).frame.map (fun f => (f.stagedCandidate, f.swapEnded))
    ∀ i ∈ [Instr.groupDeadline 2, .boardClear 0], mark i (nullState true false) = some (true, true) ∧
      mark i (nullState false false) = some (false, false) := by decide +kernel

/-- Panel 0 READY, its link IDLE. -/
def readyState : State :=
  withPanel 0 { panel .ready with wake := CauseSet.none.insert .content } (withLink 0 idleLink base)

theorem witness_SelectionServesOneReadyPanel :
    (readyState.delivery.works.selection readyState.content readyState.delivery.groups =
      ((readyState.delivery.works.selection readyState.content readyState.delivery.groups).1, true)) ∧
    (base.delivery.works.selection base.content base.delivery.groups =
      ((base.delivery.works.selection base.content base.delivery.groups).1, false)) :=
  ⟨Prod.ext rfl (by decide +kernel), Prod.ext rfl (by decide +kernel)⟩

/-- A lane that serves panel 5 without URGENT, in one of the states that serve. -/
def plainLane (st : LaneState) : Lane := { loadingLane with state := st, panel := some 5 }

/-- The lanes as given, and panel 0 READY. -/
def withLanes (lanes : Vector Lane 8) : State := onWorks (fun w => { w with lanes := lanes }) readyState

theorem witness_SelectionServesOneReadyPanel_choices :
    let w (lanes : Vector Lane 8) := (withLanes lanes).delivery.works
    let busy : Vector Lane 8 := Vector.replicate 8 (plainLane .working)
    let own : Lane := { Lane.free with state := .resident, panel := some 0, context := some copy }
    let other : Lane := { own with panel := some 5 }
    ((w ((busy.set 2 own).set 5 Lane.free)).chooseLane 0 = some 2 ∧ (w ((busy.set 2 other).set 5 Lane.free)).chooseLane 0 = some 5 ∧
      (w (busy.set 2 other)).chooseLane 0 = some 2 ∧ (w busy).chooseLane 0 = none) ∧
    ((w ((busy.set 4 own).set 5 own)).choosePair 0 = some 2 ∧ (w ((busy.set 4 Lane.free).set 5 Lane.free)).choosePair 0 = some 2 ∧
      (w ((busy.set 4 Lane.free).set 5 other)).choosePair 0 = some 2 ∧ (w busy).choosePair 0 = none) ∧
    ((w (busy.set 3 (plainLane .loading))).targetLane = some 3 ∧ (w busy).targetLane = some 0 ∧
      (w (Vector.replicate 8 Lane.claimed)).targetLane = none) ∧
    (w ((busy.set 2 (plainLane .loading)).set 3 Lane.free)).targetPair = some 1 ∧ (w busy).targetPair = some 0 ∧
      (w (Vector.replicate 8 Lane.claimed)).targetPair = none := by decide +kernel

/-- Panel 0, WIDE and READY, its link IDLE, with pass count 3. -/
def wideReady : State := withPanel 0 { widePanel with state := .ready, wake := CauseSet.none.insert .content }
  (onWorks (fun w => { w with rotation := { w.rotation with passes := w.rotation.passes.set 0 3 } }) (withLink 0 idleLink base))

/-- A claim of panel 0 on pair 1, both lanes CLAIMED. -/
def claimState : State := onWorks (fun w => { w with
  lanes := (w.lanes.set 2 Lane.claimed).set 3 Lane.claimed, rotation := { w.rotation with claim := some ⟨0, 1⟩ } }) wideReady

theorem witness_SelectionServesOneReadyPanel_claim : let w := claimState.delivery.works
    w.rotation.claim = some ⟨0, 1⟩ ∧ (w.lanes[evenLane 1]).state = .claimed ∧ (w.lanes[oddLane 1]).state = .claimed ∧
      eligible claimState.content claimState.delivery.groups w 0 = true ∧
      w.panels[(0 : PanelId)] = some { widePanel with state := .ready, wake := CauseSet.none.insert .content } := by
  decide +kernel

/-- Panel 0 urgent, LINE or ROWS or WIDE, with lanes to choose or only lanes to preempt. -/
def urgentState (cls : PanelClass) (lanes : Vector Lane 8) : State := withPanel 0
  { panel .ready with cls := cls, wake := CauseSet.none.insert .urgent } (withLanes lanes)

theorem witness_SelectionServesOneReadyPanel_urgent : let busy : Vector Lane 8 := Vector.replicate 8 (plainLane .working)
    let free : Vector Lane 8 := Vector.replicate 8 Lane.free
    let met (s : State) : Bool := let w := s.delivery.works
      w.rotation.claim.isNone && w.urgent 0 && eligible s.content s.delivery.groups w 0 &&
        decide (cycleFrom 64 (w.rotation.urgent.val + 1) = [] ++ (0 : PanelId) :: (List.finRange 64).tail)
    (met (urgentState .rows free) = true ∧ (urgentState .rows free).delivery.works.chooseLane 0 = some 0) ∧
    (met (urgentState .wide free) = true ∧ (urgentState .wide free).delivery.works.choosePair 0 = some 0) ∧
    (met (urgentState .rows busy) = true ∧ (urgentState .rows busy).delivery.works.chooseLane 0 = none ∧
      (urgentState .rows busy).delivery.works.targetLane = some 0 ∧
      ((urgentState .rows busy).delivery.works.lanes[(0 : LaneId)]).panel = some 5) ∧
    (met (urgentState .wide busy) = true ∧ (urgentState .wide busy).delivery.works.choosePair 0 = none ∧
      (urgentState .wide busy).delivery.works.targetPair = some 0) := by decide +kernel

/-- A panel to preempt on a link in each state that tells how its frame is let go. -/
theorem witness_SelectionServesOneReadyPanel_preempt :
    (∀ k ∈ [streamingLink, { streamingLink with line := .brk false }, readyLink, waitingLink, idleLink, probingLink, Link.reset],
      (withLink 0 k (servedState workingLane)).delivery.works.panels[(0 : PanelId)] = some (panel .loaded) ∧
        ((withLink 0 k (servedState workingLane)).delivery.works.links[(0 : LinkId)]) = k) ∧
    (streamingLink.state = .streaming ∧ streamingLink.breaking = false ∧ readyLink.state = .reserved ∧
      waitingLink.state = .awaitingReply ∧ ({ streamingLink with line := .brk false } : Link).breaking = true) ∧
    (({ readyLink with line := .show } : Link).line = .show ∧ readyLink.line ≠ .show ∧ readyLink.pendingShow = [] ∧
      ({ readyLink with pendingShow := [1] } : Link).pendingShow ≠ []) := by decide +kernel

/-- A preempted panel whose frame is on the line: one break, counted once (R115, R158, R164). -/
theorem test_preempt_breaks_the_frame : let t := (withLink 0 streamingLink (servedState workingLane)).delivery.works.preempt 0
    (t.links[(0 : LinkId)]).line = .brk false ∧ (t.links[(0 : LinkId)]).abandons = 1 ∧ (t.preempt 0).links = t.links ∧
      (t.panels[(0 : PanelId)]).map Panel.state = some .ready ∧ t.lanes[(0 : LaneId)] = Lane.free := by decide +kernel

/-- Panel 0, WIDE, has no pair; panel 1, behind it in the walk, finds a lane, or none is open. -/
def walkState (lanes : Vector Lane 8) : State :=
  withPanel 1 { panelOne with link := 1 } (withLink 1 idleLink (onWorks (fun w => { w with lanes := lanes }) wideReady))

theorem witness_SelectionServesOneReadyPanel_rotation : let busy : Vector Lane 8 := Vector.replicate 8 (plainLane .working)
    let one := walkState (busy.set 2 Lane.free)
    let alone := withPanel 1 { panelOne with state := .parked, link := 1 } one
    let c := one.content
    let gs := one.delivery.groups
    let w := one.delivery.works
    ((∀ n : LaneId, ((walkState busy).delivery.works.lanes[n]).open = false) ∧
      (List.finRange 64).all (fun p => !w.urgent p) = true ∧ w.rotation.claim = none) ∧
    -- panel 0 is passed over and keeps its place, panel 1 is served
    (walkOrder w = [(.panel 0, 0)] ++ (.panel 1, 1) :: [] ∧ servedHere c gs w 0 = false ∧ keepsPlace c gs w 0 = true ∧
      servedHere c gs (goPast c gs w (.panel 0, 0)) 1 = true ∧ (goPast c gs w (.panel 0, 0)).chooseLane 1 = some 2 ∧
      keptPlaces c gs [(.panel 0, 0)] w = [(.panel 0, 0)]) ∧
    -- panel 0 finds a pair
    (
      let free := wideReady.delivery.works
      walkOrder free = [] ++ (.panel 0, 0) :: [] ∧ servedHere c gs free 0 = true ∧ free.choosePair 0 = some 0) ∧
    -- a lane is open, and nothing is served
    (walkOrder alone.delivery.works = [(.panel 0, 0), (.panel 1, 1)] ∧ (alone.delivery.works.lanes[(2 : LaneId)]).open = true ∧
      servedHere alone.content gs alone.delivery.works 0 = false ∧
      servedHere alone.content gs (goPast alone.content gs alone.delivery.works (.panel 0, 0)) 1 = false) := by decide +kernel

theorem witness_SelectionServesOneReadyPanel_passes : let w := wideReady.delivery.works
    let counts (v : Nat) := (onWorks (fun w => { w with rotation := { w.rotation with passes := w.rotation.passes.set 0 v } })
      wideReady).delivery.works
    min 4 ((counts 2).rotation.passes[(0 : PanelId)] + 1) < 4 ∧ claimState.delivery.works.rotation.claim ≠ none ∧
    (min 4 (w.rotation.passes[(0 : PanelId)] + 1) = 4 ∧ w.rotation.claim = none ∧
      w.servesUrgent (evenLane 0) = false ∧ w.servesUrgent (oddLane 0) = false) ∧
    (∀ k : Fin 4, ((withLanes (Vector.replicate 8 { plainLane .working with work := CauseSet.none.insert .urgent })
      ).delivery.works.servesUrgent (evenLane k)) = true) ∧
    w.panels[(0 : PanelId)] ≠ none := by decide +kernel

/-- The removal of the claim's panel ends the claim and frees both lanes; a lane RESIDENT with another panel is kept. -/
theorem test_panelRemove_ends_the_claim : let kept : Lane := { plainLane .resident with work := CauseSet.none }
    let t := after (.panelRemove 0 0) (withLane 7 kept claimState)
    t.delivery.works.rotation.claim = none ∧ (t.delivery.works.rotation.passes[(0 : PanelId)]) = 0 ∧
      t.delivery.works.lanes[(2 : LaneId)] = Lane.free ∧ t.delivery.works.lanes[(3 : LaneId)] = Lane.free ∧
      t.delivery.works.lanes[(7 : LaneId)] = kept := by decide +kernel

/-- A lane, or both lanes of pair 2, RESIDENT with panel 0, or one of them alone; a claim of panel 0 on another pair. -/
theorem witness_SelectionServesOneReadyPanel_service : let busy : Vector Lane 8 := Vector.replicate 8 (plainLane .working)
    let own : Lane := { Lane.free with state := .resident, panel := some 0, context := some copy }
    let w (lanes : Vector Lane 8) := (withLanes lanes).delivery.works
    let owned (lanes : Vector Lane 8) (n : LaneId) : Bool :=
      decide (((w lanes).lanes[n]).state = .resident ∧ ((w lanes).lanes[n]).panel = some 0)
    (owned (busy.set 7 own) 7 = true ∧ owned busy 7 = false) ∧
    (owned ((busy.set 4 own).set 5 own) (evenLane 2) = true ∧ owned ((busy.set 4 own).set 5 own) (oddLane 2) = true) ∧
    (owned (busy.set 4 own) (evenLane 2) = true ∧ owned (busy.set 4 own) (oddLane 2) = false) ∧
    claimState.delivery.works.rotation.claim.any (fun x => decide (x.panel = 0)) = true := by decide +kernel

/-- A command that triggers nothing, and one that makes a panel eligible and so has it served. -/
theorem witness_SelectionsKeepAllButSchedulingState : let w := readyState.delivery.works
    let eligibleNow (s : State) (p : PanelId) : Bool := eligible s.content s.delivery.groups s.delivery.works p
    ((∀ n : LaneId, (w.lanes[n]).state = (w.lanes[n]).state) ∧
      (∀ p : PanelId, ¬ (eligibleNow readyState p = true ∧ (eligibleNow readyState p = false ∨ (w.urgent p = true ∧ w.urgent p = false)))) ∧
      ¬ (w.rotation.claim ≠ none ∧ w.rotation.claim = none)) ∧
    (eligibleNow readyState 0 = true ∧ eligibleNow base 0 = false) := by decide +kernel

theorem test_a_trigger_serves_the_panel :
    ((settleDelivery base.content base.delivery readyState.content readyState.delivery).works.panels[(0 : PanelId)]).map
      Panel.state = some .loaded ∧
    ((settleDelivery readyState.content readyState.delivery readyState.content readyState.delivery).works.panels[(0 : PanelId)]).map
      Panel.state = some .ready := by decide +kernel

/-! ## The hypotheses of the statements are met: display links and delivery -/

theorem base_groupsOk : groupsOk base.delivery.groups := by
  have key : ∀ g : GroupId, base.delivery.groups[g] = Group.reset := by decide +kernel
  refine ⟨fun g h p e => ?_, fun g => ?_⟩
  · rw [key] at e
    cases e
  · rw [key]
    exact ⟨by decide, by decide, by decide, by decide, of_none rfl⟩

theorem witness_LinkSetupEnableAndDisable : let ready := withLink 0 { Link.reset with divider := 2 } base
    let idle := withLink 0 idleLink base
    (base.isSupervisor 0 ∧ base.canTake 0 (.linkSetup 0 0 65535 256 1025) ∧
      (base.delivery.works.links[(0 : LinkId)]).state = .disabled) ∧
    (idle.isSupervisor 0 ∧ idle.canTake 0 (.linkSetup 0 0 0 0 0) ∧ idle.canTake 0 (.linkEnable 0 0) ∧
      (idle.delivery.works.links[(0 : LinkId)]).state ≠ .disabled) ∧
    (base.canTake 0 (.linkEnable 0 0) ∧ (base.delivery.works.links[(0 : LinkId)]).divider = 0) ∧
    (ready.isSupervisor 0 ∧ ready.canTake 0 (.linkEnable 0 0) ∧ (ready.delivery.works.links[(0 : LinkId)]).state = .disabled ∧
      (ready.delivery.works.links[(0 : LinkId)]).divider ≠ 0) ∧
    base.canTake 0 (.linkDisable 0 0) ∧
    ∀ k ∈ [idleLink, waitingLink, streamingLink, probingLink, { idleLink with line := .show },
        { idleLink with line := .brk false }, { idleLink with line := .brk true }],
      let s := withPanel 0 sendingPanel (withPanel 1 { panelOne with link := 1 } (withLink 0 k base))
      s.isSupervisor 0 ∧ s.canTake 0 (.linkDisable 0 0) ∧ (s.delivery.works.links[(0 : LinkId)]).state ≠ .disabled ∧
        s.delivery.works.panels[(0 : PanelId)] = some sendingPanel ∧
        s.delivery.works.panels[(1 : PanelId)] = some { panelOne with link := 1 } := by
  simp only [State.canTake, State.isSupervisor]
  decide +kernel

/-- L0 disabled with both members of a swap on it, one arrived. -/
def swappingLink : State := withGroup 2 safeGroup (withPanel 0 (panel .parked) (withPanel 1 panelOne (withLink 0 idleLink base)))

/-- Both members leave the swap before it is checked: nothing of it is adopted or shown. -/
theorem test_linkDisable_drops_every_member_out : let t := after (.linkDisable 0 0) swappingLink
    (t.delivery.groups[(2 : GroupId)]).swap = none ∧
      (t.delivery.works.panels[(0 : PanelId)]).map Panel.ack = some none ∧
      (t.delivery.works.links[(0 : LinkId)]).state = .disabled := by decide +kernel

theorem witness_PanelRemoveAndRestore_drop_out :
    (swappingLink.isSupervisor 0 ∧ swappingLink.canTake 0 (.panelRemove 0 0) ∧
      (swappingLink.delivery.works.panels[(0 : PanelId)]).isSome = true ∧
      (swappingLink.delivery.groups[(2 : GroupId)]).swap = some safeSwap ∧ 0 ∈ safeSwap.expected ∧ 0 ∉ safeSwap.dropped ∧
      ∀ h : GroupId, h < 2 → (swappingLink.delivery.groups[h]).swap = none) ∧
    ∀ g : GroupId, (confirmingState.delivery.groups[g]).swap = none := by
  simp only [State.canTake, State.isSupervisor]
  decide +kernel

/-- A confirmation whose one counted panel goes OFFLINE with its link ends OK with no panel counted. -/
theorem test_linkDisable_checks_confirmations : let t := after (.linkDisable 0 0) (withLink 0 idleLink confirmingState)
    t.delivery.confirmations = [] ∧ (t.delivery.ports[(0 : PortId)]).responses.map Frame.bytes =
      [[0x01, 0x82, 0x00, 0x00, 0, 0], [0x02, 0x35, 0x00, 0x03, 1, 0, 0]] := by decide +kernel

theorem witness_LinkSetupEnableAndDisable_drop_out : swappingLink.isSupervisor 0 ∧ swappingLink.canTake 0 (.linkDisable 0 0) ∧
    (swappingLink.delivery.works.links[(0 : LinkId)]).state ≠ .disabled ∧
    (swappingLink.delivery.works.panels[(0 : PanelId)]).map Panel.link = some 0 ∧
    (swappingLink.delivery.works.panels[(1 : PanelId)]).map Panel.link = some 0 ∧
    swappingLink.delivery.works.panels[(63 : PanelId)] = none := by
  simp only [State.canTake, State.isSupervisor]
  decide +kernel

theorem witness_LinkSetupEnableAndDisable_groups :
    groupsOk (withPanel 0 sendingPanel (withLink 0 streamingLink base)).delivery.groups := base_groupsOk

/-- L0 reserved with a committed frame whose coding goes on, and `n` bytes in its FIFO. -/
def fillingLink (n : Nat) : Link :=
  { readyLink with fifo := List.replicate n 0, frame := some { frameRecord with complete := false } }

theorem witness_FramesStartEndAndBreak_start :
    (∀ k ∈ [readyLink, fillingLink 256, fillingLink 255], let w := (withPanel 0 sendingPanel (withLink 0 k base)).delivery.works
      (w.links[(0 : LinkId)]).state = .reserved ∧ (w.links[(0 : LinkId)]).line = .released ∧
        (w.links[(0 : LinkId)]).frame.map FrameRecord.committed = some true ∧
        w.panels[(0 : PanelId)] = some sendingPanel ∧ w.waitsForRoom 0 = false) ∧
    readyLink.frame.map FrameRecord.complete = some true ∧ (fillingLink 256).startLevel ≤ (fillingLink 256).fifo.length ∧
    ((fillingLink 255).fifo.length < (fillingLink 255).startLevel ∧
      (fillingLink 255).frame.map FrameRecord.complete = some false) ∧
    ((withLink 0 (fillingLink 0) (servedState { workingLane with unwritten := [7] })).delivery.works.waitsForRoom 0 = true) ∧
    { frameRecord with committed := false }.committed = false := by decide +kernel

theorem witness_FramesStartEndAndBreak_end : let unfinished : FrameRecord := { frameRecord with number := some 9, complete := false }
    (streamingLink.frame = some { frameRecord with number := some 9 } ∧ streamingLink.state = .streaming ∧
      streamingLink.line = .frame ∧ frameRecord.complete = true ∧ ({ streamingLink with fifo := [] } : Link).fifo = [] ∧
      streamingLink.fifo = 0x00 :: [0x01]) ∧
    ((unfinishedLink []).frame.map FrameRecord.complete = some false ∧ (unfinishedLink []).state = .streaming ∧
      (unfinishedLink []).line = .frame ∧ (unfinishedLink []).fifo = []) ∧
    ((servedState workingLane).delivery.works.panels[unfinished.panel] = some (panel .loaded) ∧
      (withPanel 0 sendingPanel base).delivery.works.panels[unfinished.panel] = some sendingPanel) ∧
    ({ streamingLink with line := .brk false } : Link).line = .brk false ∧
    ({ streamingLink with line := .brk true } : Link).line = .brk true ∧
    (idleLink.line = .released ∧ probingLink.line = .probe ∧ ({ idleLink with line := .show } : Link).line = .show) := by
  decide +kernel

theorem witness_RepliesAndTimeoutsConcludeTheFrame : let w := repliedState.delivery.works
    let k := w.links[(0 : LinkId)]
    let f : FrameRecord := { frameRecord with number := some 9 }
    (k.state = .awaitingReply ∧ k.line = .released ∧ k.frame = some f ∧ f.number = some 9 ∧ k.wait = some 20 ∧
      k.rx = [] ∧ w.panels[f.panel] = some sendingPanel ∧ sendingPanel.state = .sending ∧ f.staged = false) ∧
    (0x00BB : Digest) ≠ f.expected ∧ ((4 : Drop) ≠ f.drop ∧ BitVec.ofNat 8 (4 : Drop).val ≠ BitVec.ofNat 8 f.drop.val) ∧
      (10 : Byte) ≠ 9 := by decide +kernel

theorem witness_RepliesAndTimeoutsConcludeTheFrame_staged_and_eighth_failure :
    let f : FrameRecord := { frameRecord with number := some 9, staged := true }
    let s := withGroup 2 ⟨[0, 1], 20, some armed⟩ (withPanel 0 { sendingPanel with failures := 7 }
      (withLink 0 { waitingLink with frame := some f } base))
    let k := s.delivery.works.links[(0 : LinkId)]
    k.state = .awaitingReply ∧ k.line = .released ∧ k.frame = some f ∧ k.wait = some 20 ∧ k.rx = [] ∧
      s.delivery.works.panels[f.panel] = some { sendingPanel with failures := 7 } ∧ f.staged = true ∧
      ((s.delivery.groups[(2 : GroupId)]).swap = some armed ∧ f.panel ∈ armed.expected ∧ f.panel ∉ armed.dropped ∧
        (∀ r ∈ armed.staged, r.panel ≠ f.panel)) ∧
      (∀ h : GroupId, h < 2 → (s.delivery.groups[h]).swap = none) ∧
      (∀ h : GroupId, (repliedState.delivery.groups[h]).swap = none) ∧
      f.swapEnded = false ∧ ({ f with swapEnded := true } : FrameRecord).swapEnded = true := by decide +kernel

/-- The delivery of a staged frame is an arrival of the swap that awaits its panel, unless its own swap ended while it was
in its lane (R178). -/
theorem test_ack_of_a_frame_of_an_ended_swap : let f (ended : Bool) : FrameRecord :=
      { frameRecord with number := some 9, staged := true, swapEnded := ended }
    let waiting (ended : Bool) : State := withGroup 2 ⟨[0, 1], 20, some armed⟩
      (withPanel 0 sendingPanel (withLink 0 { waitingLink with frame := some (f ended) } base))
    let acked := Instr.ack 0 (cleanRx (withCheck [0xC0, 3, 9, 0xBA, 0x00]))
    arrivedIn2 (after acked (waiting false)) = some [0] ∧ arrivedIn2 (after acked (waiting true)) = some [] := by
  decide +kernel

/-- A character with its stop bit low; one that begins no reply, a drop, a reason and a class out of range; a byte in the
midst of a reply and after a gap; a wrong check, and a right one on a reply that nobody awaits. -/
theorem witness_RepliesAndTimeoutsConcludeTheFrame_characters :
    let whole : List Byte := withCheck [0xC0, 4, 9, 0xBA, 0x00]
    let f : FrameRecord := { frameRecord with number := some 9 }
    (∀ k ∈ [streamingLink, probingLink, { idleLink with line := .brk false }], k.line ≠ .released) ∧
      Link.reset.state = .disabled ∧
    (waitingLink.line = .released ∧ waitingLink.state = .awaitingReply ∧ waitingLink.frame = some f ∧
      (⟨0xC0, false, false⟩ : RxChar).stopHigh = false) ∧
    ((0xBF : Byte) ≠ 0xC0 ∧ (0xC3 : Byte) ≠ 0xC2 ∧ 7 < (8 : Byte).toNat ∧ 3 < (4 : Byte).toNat ∧ 2 < (3 : Byte).toNat) ∧
    ((⟨0xC1, true, true⟩ : RxChar).gapBefore = true ∧ ([] ++ [(0xC1 : Byte)]).length ≠ 6) ∧
    (whole.length = 7 ∧ whole.take 6 ++ [0] ≠ withCheck (whole.take 5) ∧ whole = withCheck (whole.take (7 - 2)) ∧
      (whole.drop 1).take 2 ≠ [BitVec.ofNat 8 f.drop.val, 9]) := by decide +kernel

/-- The fourth byte of a NAK with its stop bit low discards the reply, and the rest of it begins no other. -/
theorem test_a_low_stop_bit_discards_the_reply : let whole := cleanRx (withCheck [0xC1, 3, 9, 1])
    let t := after (.nak 0 (whole.set 3 ⟨1, false, false⟩)) repliedState
    (t.delivery.works.links[(0 : LinkId)]).state = .awaitingReply ∧ (t.delivery.works.links[(0 : LinkId)]).wait = some 20 ∧
      ((after (.nak 0 whole) repliedState).delivery.works.links[(0 : LinkId)]).state = .idle := by decide +kernel

theorem witness_RepliesAndTimeoutsConcludeTheFrame_ident : ((0 : Byte).toNat ≤ 2 ∧ (2 : Byte).toNat ≤ 2) ∧
    (repliedState.delivery.works.links[(0 : LinkId)]).rx = [] ∧
    (after (.ident 0 (cleanRx (withCheck [0xC2, 3, 1, 128, 0, 16]))) repliedState).delivery.works = repliedState.delivery.works := by
  decide +kernel

/-- The wait for an IDENT of drop 3 goes on after one of drop 4, an ACK and a NAK. -/
theorem witness_ProbesAndShowTakeTheirCourse_ignored : (4 : Drop) ≠ 3 ∧
    ∀ i ∈ [Instr.ident 0 (cleanRx (withCheck [0xC2, 4, 1, 128, 0, 16])), .ack 0 (cleanRx (withCheck [0xC0, 3, 8, 0, 0])),
        .nak 0 (cleanRx (withCheck [0xC1, 3, 8, 2]))],
      (after i probedState).delivery.works = probedState.delivery.works := by decide +kernel

theorem dueState_panelsOk : panelsOk dueState.delivery.works := by
  have key : ∀ p : PanelId, dueState.delivery.works.panels[p] =
      if p = 0 then some { panel .offline with probeDue := some 0 } else none := by decide +kernel
  refine ⟨fun p q a b hp hq _ _ => ?_, fun p a hp => ?_⟩
  · rw [key] at hp hq
    split at hp
    · split at hq
      · simp_all
      · cases hq
    · cases hp
  · rw [key] at hp
    split at hp <;> cases hp
    decide

theorem witness_ProbesAndShowTakeTheirCourse_due : let w := dueState.delivery.works
    let q : Panel := { panel .offline with probeDue := some 0 }
    (w.panels[(0 : PanelId)] = some q ∧ q.probeDue = some 0 ∧ q.state = .offline ∧ q.link = 0 ∧
      (w.links[(0 : LinkId)]).state = .idle ∧ (w.links[(0 : LinkId)]).line = .released ∧ panelsOk w) ∧
    (withPanel 0 q (withLink 0 readyLink base)).delivery.works.panels[(0 : PanelId)] = some q ∧
      ((withPanel 0 q (withLink 0 readyLink base)).delivery.works.links[(0 : LinkId)]).state ≠ .idle := by
  exact ⟨⟨by decide +kernel, rfl, rfl, rfl, by decide +kernel, by decide +kernel, dueState_panelsOk⟩, by decide +kernel,
    by decide +kernel⟩

theorem witness_ProbesAndShowTakeTheirCourse_probe : let w := probedState.delivery.works
    let k := w.links[(0 : LinkId)]
    (probingLink.state = .probing ∧ probingLink.line = .probe) ∧
    (k.state = .probing ∧ k.line = .released ∧ k.wait = some 20 ∧ k.probe = some ⟨0, 3, .rows, 128, 16⟩ ∧ k.rx = [] ∧
      (w.panels[(0 : PanelId)]).map Panel.state = some .offline ∧ (w.panels[(0 : PanelId)]).map Panel.probeMark = some true) ∧
    -- the recorded class, width and height, and another height
    ((1 : Byte) = PanelClass.rows.code ∧ (2 : Byte).toNat ≤ 2 ∧ (65535 : Nat) < 65536 ∧ (255 : Nat) ≠ 16) := by decide +kernel

/-- What drops an IDENT: no record, a record that is not OFFLINE, one on another link, one whose mark is clear. -/
theorem witness_ProbesAndShowTakeTheirCourse_dropped : let at_ (q : Panel) := withPanel 0 q probedState
    ∀ s ∈ [withLink 0 { probingLink with line := .released, wait := some 20 } base, at_ (panel .ready),
        at_ { panel .offline with link := 1, probeMark := true }, at_ { panel .offline with probeMark := false }],
      let k := s.delivery.works.links[(0 : LinkId)]
      k.state = .probing ∧ k.line = .released ∧ k.wait = some 20 ∧ k.probe = some ⟨0, 3, .rows, 128, 16⟩ ∧ k.rx = [] ∧
        (s.delivery.works.panels[(0 : PanelId)]).all
          (fun q => decide (q.state ≠ .offline ∨ q.link ≠ 0 ∨ q.probeMark = false)) = true := by decide +kernel

/-- A panel defined anew on L1 and probed there leaves the IDENT that still comes on L0 without effect. -/
theorem test_ident_of_an_earlier_definition :
    ((after (.ident 0 (cleanRx (withCheck [0xC2, 3, 1, 128, 0, 16])))
      (withPanel 0 { panel .offline with link := 1, probeMark := true } probedState)).delivery.works.panels[(0 : PanelId)]).map
        Panel.state = some .offline := by decide +kernel

theorem witness_ProbesAndShowTakeTheirCourse_show : let shown (k : Link) : State := withLink 0 { k with line := .show } base
    let free := shown idleLink
    let due := withPanel 0 { panel .offline with probeDue := some 0 } free
    let more := shown { readyLink with pendingShow := [7] }
    ((free.delivery.works.links[(0 : LinkId)]).line = .show ∧ (free.delivery.works.links[(0 : LinkId)]).state = .idle ∧
      (free.delivery.works.links[(0 : LinkId)]).pendingShow = [] ∧ free.delivery.works.dueProbe 0 = none) ∧
    (due.delivery.works.dueProbe 0 = some (0, { panel .offline with probeDue := some 0 })) ∧
    ((shown readyLink).delivery.works.links[(0 : LinkId)]).state = .reserved ∧
      ((more.delivery.works.links[(0 : LinkId)]).pendingShow ≠ []) := by decide +kernel

/-! ## The hypotheses of the statements are met: swap groups -/

theorem witness_SwapGroupsArmCompleteAndLapse_setup : base.isSupervisor 0 ∧ base.canTake 0 (.groupSetup 0 0 [64] 1) ∧
    base.canTake 0 (.groupSetup 0 0 (List.range 17) 0) ∧ 16 < (List.range 17).length ∧
    base.canTake 0 (.groupSetup 0 0 (63 :: List.range 15) 101) ∧ (63 :: List.range 15).length ≤ 16 ∧
    (∀ v ∈ 63 :: List.range 15, v < 64) ∧ (base.delivery.groups[(0 : GroupId)]).swap = none ∧
    ∀ (h : GroupId) (m : PanelId), m ∉ (base.delivery.groups[h]).members := by
  simp only [State.canTake, State.isSupervisor]
  decide +kernel

theorem witness_SwapGroupsArmCompleteAndLapse_setup_refused : let s := withGroup 2 ⟨[0, 1], 20, some armed⟩ base
    s.canTake 0 (.groupSetup 0 2 [] 1) ∧ s.isSupervisor 0 ∧ (s.delivery.groups[(2 : GroupId)]).swap = some armed ∧
    s.canTake 0 (.groupSetup 0 0 [1] 1) ∧ (s.delivery.groups[(0 : GroupId)]).swap = none ∧
    (1 : PanelId) ∈ (s.delivery.groups[(2 : GroupId)]).members := by
  simp only [State.canTake, State.isSupervisor]
  decide +kernel

theorem witness_SwapGroupsArmCompleteAndLapse_arm : let idle := withGroup 2 ⟨[0, 1], 20, none⟩ base
    let online := withPanel 0 (panel .parked) idle
    let swapping := withGroup 2 ⟨[0, 1], 20, some armed⟩ base
    let expected (s : State) := (s.delivery.groups[(2 : GroupId)]).members.filter
      (fun m => (s.delivery.works.panels[m]).any Panel.online)
    (base.canTake 1 (.groupArm 1 2) ∧ (base.delivery.groups[(2 : GroupId)]).members = []) ∧
    (swapping.canTake 1 (.groupArm 1 2) ∧ (swapping.delivery.groups[(2 : GroupId)]).swap = some armed) ∧
    (idle.canTake 1 (.groupArm 1 2) ∧ (idle.delivery.groups[(2 : GroupId)]).swap = none ∧ expected idle = []) ∧
    online.canTake 1 (.groupArm 1 2) ∧ (online.delivery.groups[(2 : GroupId)]).swap = none ∧ expected online = [0] := by
  simp only [State.canTake]
  decide +kernel

/-- An expected member with a candidate in a lane as its swap ends, and one that is a member no more. -/
theorem witness_SwapGroupsArmCompleteAndLapse_marks : let s := formerMember.delivery
    (0 ∈ armed.expected ∧ 0 ∈ (s.groups[(2 : GroupId)]).members) ∧
    ((s.groups[(1 : GroupId)]).swap = some ⟨.port 0, [0, 3], [0], [], 1000⟩ ∧ 0 ∉ (s.groups[(1 : GroupId)]).members) ∧
    (s.works.lanes[(0 : LaneId)]).panel = some 0 := by decide +kernel

/-- A swap whose member 0 has arrived by transmission, member 1 by a NULL_FRAME, and member 2 has dropped out. -/
def fullSwap : Swap :=
  ⟨.hold, [0, 1, 2], [2], [⟨0, [1, 2], 3, 5, true, true⟩, ⟨1, [1], 3, 5, false, false⟩], 2000⟩

theorem witness_SwapGroupsArmCompleteAndLapse_complete :
    let s := withGroup 2 ⟨[0, 1, 2], 20, some fullSwap⟩ (withPanel 0 (panel .parked) (withLink 0 { idleLink with pendingShow := [1] } base))
    (s.delivery.groups[(2 : GroupId)]).swap = some fullSwap ∧ (fullSwap.staged.map (fun r => r.panel)).Nodup ∧
      (∀ m ∈ fullSwap.expected, m ∈ fullSwap.staged.map (fun r => r.panel) ∨ m ∈ fullSwap.dropped) ∧
      (⟨0, [1, 2], 3, 5, true, true⟩ : StagedRecord) ∈ fullSwap.staged ∧
      s.delivery.works.panels[(0 : PanelId)] = some (panel .parked) ∧
      [(1 : Drop), 3].Pairwise (fun x y => x < y) ∧ (panel .parked).link = 0 ∧ (panel .parked).drop = 3 ∧
      (∀ x : Drop, x ∈ [(1 : Drop), 3] ↔ x ∈ ({ idleLink with pendingShow := [1] } : Link).pendingShow ∨ x = 3) ∧
      (∀ k ∈ [streamingLink, waitingLink, probingLink], k.state ≠ .disabled ∧ k.state ≠ .idle ∧ k.state ≠ .reserved) ∧
      (({ readyLink with line := .show } : Link).line ≠ .released ∧ readyLink.state = .reserved ∧ readyLink.line = .released) ∧
      (s.delivery.works.links[(0 : LinkId)]).state = .idle ∧ (s.delivery.works.links[(0 : LinkId)]).line = .released ∧
      (s.delivery.works.links[(1 : LinkId)]).state = .disabled := by decide +kernel

/-- Member 1 of `safeSwap` may drop out and is the one missing; of `fullSwap` none is, and panel 3 is no member of it. -/
theorem witness_SwapGroupsArmCompleteAndLapse_arrival_and_drop_out :
    let s := withGroup 2 ⟨[0, 1, 2], 20, some fullSwap⟩ base
    ((swappingLink.delivery.groups[(2 : GroupId)]).swap = some safeSwap ∧ 1 ∈ safeSwap.expected ∧ 1 ∉ safeSwap.dropped ∧
      (∀ h : GroupId, h < 2 → (swappingLink.delivery.groups[h]).swap = none) ∧ ∀ r ∈ safeSwap.staged, r.panel ≠ 1) ∧
    ((s.delivery.groups[(2 : GroupId)]).swap = some fullSwap ∧ fullSwap.dropped.Pairwise (· < ·) ∧
      (∀ m ∈ fullSwap.expected, m ∈ fullSwap.dropped ∨ ∃ r ∈ fullSwap.staged, r.panel = m) ∧ 3 ∉ fullSwap.expected ∧
      ∀ h : GroupId, h ≠ 2 → (s.delivery.groups[h]).swap = none) := by decide +kernel

/-! ## The hypotheses of the statements are met: type store, tickers, board clear -/

theorem witness_TypeStoreRequests : base.isSupervisor 0 ∧ base.canTake 0 (.fontSetup 0 3 8) ∧
    base.canTake 0 (.fontSetup 0 3 16) ∧ base.canTake 0 (.fontSetup 0 3 9) ∧
    base.canTake 0 (.glyphLoad 0 3 [⟨512, 0, []⟩]) ∧ ¬ (512 ≤ 511) ∧
    base.canTake 0 (.tokenSet 0 3 (List.replicate 13 0)) ∧ 12 < (List.replicate 13 0).length ∧
    base.canTake 0 (.tokenSet 0 3 [512]) ∧ (∃ x ∈ [512], 511 < x) ∧ base.canTake 0 (.tokenSet 0 3 []) ∧
    base.content.typeStore.tokens[(3 : FontId)] = [] ∧ base.canTake 0 (.tokenSet 0 3 (List.replicate 12 511)) ∧
    (List.replicate 12 511).length ≤ 12 ∧ (∀ x ∈ List.replicate 12 511, x ≤ 511) := by
  simp only [State.canTake, State.isSupervisor]
  decide +kernel

/-- Font 3 with 16,382 bytes of its region used. -/
def fullFont : State := withFont 3 ⟨8, List.replicate 16382 0, []⟩ base

theorem witness_TypeStoreRequests_load : let entries : List GlyphEntry := [⟨511, 2, [1, 2]⟩, ⟨0, 0, []⟩, ⟨5, 1, [7]⟩]
    fullFont.isSupervisor 0 ∧ fullFont.canTake 0 (.glyphLoad 0 3 entries) ∧
    (∀ e ∈ entries, e.glyph ≤ 511 ∧ e.width ≤ 16 ∧ e.bitmap.length = e.width * 8 / 8) ∧
    (fullFont.content.typeStore.fonts[(3 : FontId)]).region.length = 16382 ∧
    entries = [⟨511, 2, [1, 2]⟩, ⟨0, 0, []⟩] ++ [⟨5, 1, [7]⟩] ∧ 16382 + (2 + 0) ≤ 16384 ∧ 16384 < 16382 + (2 + 0) + 1 := by
  simp only [State.canTake, State.isSupervisor]
  decide +kernel

theorem witness_TickersFollowTheirRules_requests : let running := withTicker 7 runningTicker base
    let idle := withTicker 7 { runningTicker with state := .idle, chars := [], deadline := none } base
    let full := withTicker 7 { runningTicker with chars := List.replicate 256 65 } base
    let chars := List.replicate 64 511
    (base.isSupervisor 0 ∧ base.canTake 0 (.tickerSetup 0 7 3 7 201 0 255) ∧ base.canTake 0 (.tickerSetup 0 7 3 513 19 5 256)) ∧
    (base.canTake 1 (.tickerFeed 1 7 []) ∧ base.canTake 1 (.tickerFeed 1 7 (List.replicate 65 0)) ∧
      base.canTake 1 (.tickerFeed 1 7 [512]) ∧ 64 < (List.replicate 65 0).length) ∧
    (chars ≠ [] ∧ chars.length ≤ 64 ∧ (∀ x ∈ chars, x ≤ 511)) ∧
    (base.canTake 1 (.tickerFeed 1 7 chars) ∧ (base.content.tickers[(7 : TickerId)]).state = .undefined) ∧
    (running.canTake 1 (.tickerFeed 1 7 chars) ∧ (running.content.tickers[(7 : TickerId)]).state = .running) ∧
    (idle.canTake 1 (.tickerFeed 1 7 chars) ∧ (idle.content.tickers[(7 : TickerId)]).state = .idle) ∧
    (full.canTake 1 (.tickerFeed 1 7 chars) ∧ (full.content.tickers[(7 : TickerId)]).state ≠ .undefined ∧
      256 ≤ (full.content.tickers[(7 : TickerId)]).chars.length) ∧
    base.canTake 1 (.tickerFlush 1 7) ∧ running.canTake 1 (.tickerFlush 1 7) ∧ idle.canTake 1 (.tickerFlush 1 7) := by
  simp only [State.canTake, State.isSupervisor]
  decide +kernel

theorem witness_TickersFollowTheirRules_scroll : let s := withTicker 7 runningTicker base
    let f := s.content.typeStore.fonts[runningTicker.font]
    let sum (gs : List Nat) : Int := ((gs.map (fun g => f.drawnWidth g + 1)).sum : Nat)
    s.content.tickers[(7 : TickerId)] = runningTicker ∧ runningTicker.deadline = some 50 ∧
    -- one character scrolls out, one stays
    (runningTicker.chars = [65] ++ [66] ∧ sum [65] ≤ runningTicker.offset + 1 ∧ runningTicker.offset + 1 < sum ([65] ++ [66])) ∧
    -- in the lead-in nothing is removed
    (
      let lead : Ticker := { runningTicker with offset := -128 }
      (withTicker 7 lead base).content.tickers[(7 : TickerId)] = lead ∧ lead.chars = [] ++ [65, 66] ∧
        ¬ sum [] ≤ lead.offset + 1 ∧ lead.offset + 1 < sum [65]) ∧
    -- the last character scrolls out
    (
      let last : Ticker := { runningTicker with chars := [66] }
      (withTicker 7 last base).content.tickers[(7 : TickerId)] = last ∧ last.chars = [66] ++ [] ∧
        sum [66] ≤ last.offset + 1) := by decide +kernel

theorem witness_BoardClearEmptiesEveryBlock : safeState.canTake 0 (.boardClear 0) ∧ safeState.isSupervisor 0 := by
  simp only [State.canTake, State.isSupervisor]
  decide +kernel

end Sys2Proof.Tests
end

section
/-! What a command leaves of the content blocks, said once for every command: the proofs that every step keeps an
invariant of the content go through `effect`, and do not open `exec` again. -/

namespace Sys2Proof.Machine

/-! ## Requests and events that leave the content alone -/

theorem setupLink_content (link divider timeout startLevel : Nat) (c : Content) (d : Delivery) :
    (setupLink link divider timeout startLevel c d).1 = c := by
  unfold setupLink
  split
  · rfl
  · split <;> rfl

theorem enableLink_content (link : Nat) (c : Content) (d : Delivery) : (enableLink link c d).1 = c := by
  unfold enableLink
  split
  · rfl
  · simp only []
    split <;> rfl

theorem disableLink_content (link : Nat) (c : Content) (d : Delivery) : (disableLink link c d).1 = c := by
  unfold disableLink
  split
  · rfl
  · split <;> rfl

theorem setupGroup_content (group : Nat) (members : List Nat) (deadline : Nat) (c : Content) (d : Delivery) :
    (setupGroup group members deadline c d).1 = c := by
  unfold setupGroup
  split
  · split
    · rfl
    · split
      · rfl
      · split <;> rfl
  · rfl

theorem armRequest_content (p : PortId) (group : Nat) (c : Content) (d : Delivery) : (armRequest p group c d).1 = c := by
  unfold armRequest
  split
  · rfl
  · split
    · rfl
    · split <;> rfl

theorem defineRequest_content (panel : Nat) (address : Byte) (link drop cls width height level refresh : Nat)
    (c : Content) (d : Delivery) : (defineRequest panel address link drop cls width height level refresh c d).1 = c := by
  unfold defineRequest definePanel
  split
  · split
    · split
      · rfl
      · split <;> rfl
    · rfl
  · rfl

theorem removeRequest_content (panel : Nat) (c : Content) (d : Delivery) : (removeRequest panel c d).1 = c := by
  unfold removeRequest
  split
  · rfl
  · split <;> rfl

theorem restoreRequest_content (panel : Nat) (c : Content) (d : Delivery) : (restoreRequest panel c d).1 = c := by
  unfold restoreRequest
  split
  · rfl
  · split
    · rfl
    · split <;> rfl

theorem takeNotice_content (p : PortId) (c : Content) (d : Delivery) : (takeNotice p c d).1 = c := by
  unfold takeNotice
  split
  · rfl
  · split <;> rfl

theorem maskNotices_content (p : PortId) (kinds : BitVec 16) (c : Content) (d : Delivery) :
    (maskNotices p kinds c d).1 = c := by
  unfold maskNotices
  split <;> rfl

/-- A request for a placard leaves what its own part leaves, or is refused (R51). -/
theorem placardRequest_content (number : Nat) (valid : Bool)
    (f : PlacardId → Placard → Content → Delivery → Content × Delivery × Reply) (c : Content) (d : Delivery) :
    (placardRequest number valid f c d).1 = c ∨
      ∃ n pl, c.board.placards[n] = some pl ∧ (placardRequest number valid f c d).1 = (f n pl c d).1 := by
  unfold placardRequest
  split
  · exact .inl rfl
  · next n _ =>
    split
    · exact .inl rfl
    · split
      · exact .inl rfl
      · next pl h => exact .inr ⟨n, pl, h, rfl⟩

/-- A split request leaves what its own part leaves, or is refused (R185). -/
theorem taggedRequest_content (p : PortId) (tag : Nat) (f : Tag → Content → Delivery → Content × Delivery × Reply)
    (c : Content) (d : Delivery) :
    (taggedRequest p tag f c d).1 = c ∨ ∃ t, (taggedRequest p tag f c d).1 = (f t c d).1 := by
  unfold taggedRequest
  split
  · exact .inl rfl
  · next t _ =>
    split
    · exact .inr ⟨t, rfl⟩
    · exact .inl rfl

/-- A CONFIRM_SHOWN opens a confirmation, which is no part of the content (R61). -/
theorem confirmRequest_content (p : PortId) (tag number timeout : Nat) (c : Content) (d : Delivery) :
    (taggedRequest p tag (fun t => placardRequest number true (openConfirmation p timeout t)) c d).1 = c := by
  rcases taggedRequest_content p tag (fun t => placardRequest number true (openConfirmation p timeout t)) c d
    with h | ⟨t, h⟩
  · exact h
  · rcases placardRequest_content number true (openConfirmation p timeout t) c d with k | ⟨n, pl, _, k⟩
    · exact h.trans k
    · exact h.trans (k.trans rfl)

/-! ## The effect of a command on the content -/

/-- The content after a command that its port takes and grants, from the content and the delivery side that its block
finds. A command that is not named leaves the content alone. -/
def effect (i : Instr) (c : Content) (d : Delivery) : Content :=
  match i with
  | .resetn _ _ _ _ => Content.reset
  | .depPut p list trip line destination scheduled =>
    (listRequest list trip (decide (line ≤ 63 ∧ destination ≤ 127 ∧ scheduled ≤ 107999))
      (putTrip p trip line destination scheduled) c d).1
  | .depPredict p list trip predicted => (entryRequest list trip (predictTrip p predicted) c d).1
  | .depArrive p list trip => (entryRequest list trip (arriveTrip p) c d).1
  | .depDepart _ list trip => (entryRequest list trip departTrip c d).1
  | .depCancel p list trip => (entryRequest list trip (cancelTrip p) c d).1
  | .destSet _ index text => (setDestination index text c d).1
  | .clockSet _ t => (setClock t c d).1
  | .newDay _ t => (newDay t c d).1
  | .settings _ pairs => (changeSettings pairs c d).1
  | .post p fields => (postPlacard p fields c d).1
  | .amend p number fields => (placardRequest number (amendValid fields) (amendPlacard p fields) c d).1
  | .textSet p number text => (placardRequest number (textValid 160 text) (setText p text) c d).1
  | .withdraw p number => (placardRequest number true (withdrawPlacard p) c d).1
  | .take p tag hold wait => (takeRequest p tag hold wait c d).1
  | .release p hold => (releaseRequest p hold c d).1
  | .handover p hold heir => (handoverRequest p hold heir c d).1
  | .holdSetup _ hold limit group => (setupHold hold limit group c d).1
  | .holdExpiry hold => (expireHold hold c d).1
  | .waitTimeout hold port =>
    (match c.holds[hold].waiterOf port with
    | none => (c, d)
    | some x => endWait hold x .timeout (b1 hold.val) c (d.reach x.deadline)).1
  | .fontSetup _ font height => (setupFont font height c d).1
  | .glyphLoad _ font entries => (loadGlyphs font entries c d).1
  | .tokenSet _ token text => (setToken token text c d).1
  | .tickerSetup _ ticker font window period columns lowWater =>
    (setupTicker ticker font window period columns lowWater c d).1
  | .tickerFeed p ticker chars => (feedTicker p ticker chars c d).1
  | .tickerFlush _ ticker => (flushTicker ticker c d).1
  | .scrollStep ticker => (scrollTicker ticker c d).1
  | .cancelSplit p tag => (cancelSplit p tag c d).1
  | .boardClear _ => (clearAll c d).1
  | .countInterval => (countClock c d).1
  | _ => c

/-- The content `t` is as it was in `s`, or as the command's effect leaves it. -/
def EffectOf (i : Instr) (s t : State) : Prop := t.content = s.content ∨ ∃ d, t.content = effect i s.content d

theorem effectOf_request {p : PortId} {i : Instr} {f : Content → Delivery → Content × Delivery × Reply} {s t : State}
    (h : request p i f s = .next t) (k : ∀ c d, (f c d).1 = effect i c d) : EffectOf i s t := by
  unfold request at h
  split at h
  · cases h
    exact .inr ⟨_, k _ _⟩
  · cases h
    exact .inl rfl

theorem effectOf_supervised {p : PortId} {i : Instr} {f : Content → Delivery → Content × Delivery × Reply}
    {s t : State} (h : request p i (supervised p f) s = .next t) (k : ∀ c d, (f c d).1 = effect i c d) :
    EffectOf i s t := by
  unfold request at h
  split at h
  · cases h
    simp only [supervised]
    split
    · exact .inl rfl
    · exact .inr ⟨_, k _ _⟩
  · cases h
    exact .inl rfl

/-- A command whose answer differs from the state in the delivery side alone. -/
theorem effectOf_delivery {i : Instr} {s t : State} (h : exec i s = .next t)
    (k : ∃ d, exec i s = .next { s with delivery := d }) : EffectOf i s t := by
  obtain ⟨d, k⟩ := k
  cases k.symm.trans h
  exact .inl rfl

/-- A query answers from what it finds, and leaves it. -/
theorem effectOf_query {p : PortId} {i : Instr} {s t : State} (f : Content → Delivery → Reply)
    (h : query p i f s = .next t) : EffectOf i s t := by
  unfold query request at h
  split at h <;> cases h <;> exact .inl rfl

/-- What a command can do to the content (R99 leaves it alone, and so does a port that does not take the request). -/
theorem exec_effect (i : Instr) (s t : State) (h : exec i s = .next t) : EffectOf i s t := by
  cases i with
  | resetn => cases h; exact .inr ⟨s.delivery, rfl⟩
  | transfer p fdi =>
    change execTransfer p fdi s = .next t at h
    unfold execTransfer at h
    split at h <;> cases h <;> exact .inl rfl
  | depPut => exact effectOf_request h (fun _ _ => rfl)
  | depPredict => exact effectOf_request h (fun _ _ => rfl)
  | depArrive => exact effectOf_request h (fun _ _ => rfl)
  | depDepart => exact effectOf_request h (fun _ _ => rfl)
  | depCancel => exact effectOf_request h (fun _ _ => rfl)
  | depRead p list => exact effectOf_query (fun c _ => readList list c) h
  | destSet => exact effectOf_request h (fun _ _ => rfl)
  | clockSet => exact effectOf_request h (fun _ _ => rfl)
  | newDay => exact effectOf_supervised h (fun _ _ => rfl)
  | clockRead => exact effectOf_query (fun c _ => readClock c.clock) h
  | settings => exact effectOf_supervised h (fun _ _ => rfl)
  | post => exact effectOf_request h (fun _ _ => rfl)
  | amend => exact effectOf_request h (fun _ _ => rfl)
  | textSet => exact effectOf_request h (fun _ _ => rfl)
  | withdraw => exact effectOf_request h (fun _ _ => rfl)
  | boardRead p number => exact effectOf_query (fun c _ => readPlacard number c.board) h
  | confirmShown p tag number timeout => exact effectOf_request h (confirmRequest_content p tag number timeout)
  | take => exact effectOf_request h (fun _ _ => rfl)
  | release => exact effectOf_request h (fun _ _ => rfl)
  | handover => exact effectOf_request h (fun _ _ => rfl)
  | holdSetup => exact effectOf_supervised h (fun _ _ => rfl)
  | holdRead p hold => exact effectOf_query (fun c d => readHold hold c d.works.now) h
  | holdExpiry => cases h; exact .inr ⟨s.delivery, rfl⟩
  | waitTimeout => cases h; exact .inr ⟨s.delivery, rfl⟩
  | panelDefine p panel address link drop cls width height level refresh =>
    exact effectOf_supervised h (defineRequest_content panel address link drop cls width height level refresh)
  | panelRemove p panel => exact effectOf_supervised h (removeRequest_content panel)
  | panelRestore p panel => exact effectOf_supervised h (restoreRequest_content panel)
  | panelRead p panel => exact effectOf_query (fun _ d => readPanel panel d.works) h
  | fontSetup => exact effectOf_supervised h (fun _ _ => rfl)
  | glyphLoad => exact effectOf_supervised h (fun _ _ => rfl)
  | tokenSet => exact effectOf_supervised h (fun _ _ => rfl)
  | tickerSetup => exact effectOf_supervised h (fun _ _ => rfl)
  | tickerFeed => exact effectOf_request h (fun _ _ => rfl)
  | tickerFlush => exact effectOf_request h (fun _ _ => rfl)
  | tickerRead p ticker => exact effectOf_query (fun c d => readTicker ticker c d.works.now) h
  | scrollStep => cases h; exact .inr ⟨s.delivery, rfl⟩
  | linkSetup p link divider timeout startLevel =>
    exact effectOf_supervised h (setupLink_content link divider timeout startLevel)
  | linkEnable p link => exact effectOf_supervised h (enableLink_content link)
  | linkDisable p link => exact effectOf_supervised h (disableLink_content link)
  | linkRead p link => exact effectOf_query (fun _ d => readLink link d.works) h
  | groupSetup p group members deadline => exact effectOf_supervised h (setupGroup_content group members deadline)
  | groupArm p group => exact effectOf_request h (armRequest_content p group)
  | groupRead p group => exact effectOf_query (fun _ d => readGroup group d) h
  | groupDeadline => exact effectOf_delivery h ⟨_, rfl⟩
  | cancelSplit => exact effectOf_request h (fun _ _ => rfl)
  | noticeTake p => exact effectOf_request h (takeNotice_content p)
  | noticeMask p kinds => exact effectOf_request h (maskNotices_content p kinds)
  | partStatus => exact effectOf_query partStatus h
  | boardClear => exact effectOf_supervised h (fun _ _ => rfl)
  | countInterval =>
    cases h
    exact .inr ⟨_, rfl⟩
  | confirmDeadline => exact effectOf_delivery h ⟨_, rfl⟩
  | holdoffEnd => exact effectOf_delivery h ⟨_, rfl⟩
  | refreshDeadline => exact effectOf_delivery h ⟨_, rfl⟩
  | contextCopyComplete => exact effectOf_delivery h ⟨_, rfl⟩
  | strip => exact effectOf_delivery h ⟨_, rfl⟩
  | fifoRoom => exact effectOf_delivery h ⟨_, rfl⟩
  | codingEnd => exact effectOf_delivery h ⟨_, rfl⟩
  | frameStart => exact effectOf_delivery h ⟨_, rfl⟩
  | underflow => exact effectOf_delivery h ⟨_, rfl⟩
  | breakEnd => exact effectOf_delivery h ⟨_, rfl⟩
  | lastByteSent => exact effectOf_delivery h ⟨_, rfl⟩
  | ack => exact effectOf_delivery h ⟨_, rfl⟩
  | nak => exact effectOf_delivery h ⟨_, rfl⟩
  | replyTimeout => exact effectOf_delivery h ⟨_, rfl⟩
  | probeDue => exact effectOf_delivery h ⟨_, rfl⟩
  | probeSent => exact effectOf_delivery h ⟨_, rfl⟩
  | ident => exact effectOf_delivery h ⟨_, rfl⟩
  | probeTimeout => exact effectOf_delivery h ⟨_, rfl⟩
  | showEnd => exact effectOf_delivery h ⟨_, rfl⟩
  | resetnLow => cases h; exact .inl rfl

/-- A property of the content that the effect of every command keeps, every step keeps. -/
theorem step_keeps_content (P : Content → Prop) (keeps : ∀ i c d, P c → P (effect i c d)) (s t : State)
    (h : step s = .next t) (hs : P s.content) : P t.content := by
  unfold step at h
  split at h
  · cases h
    exact hs
  · next i rest _ =>
    rcases exec_effect i { s with pending := rest } t h with e | ⟨d, e⟩
    · exact e ▸ hs
    · exact e ▸ keeps i s.content d hs

end Sys2Proof.Machine
end

section
/-! The commands that leave the departure lists, the clock and the parameters alone. -/

namespace Sys2Proof.Machine

/-- The departure lists, the station clock and the parameters of `c'` are those of `c`. -/
def Content.sameTimetable (c c' : Content) : Prop := c'.lists = c.lists ∧ c'.clock = c.clock ∧ c'.settings = c.settings

theorem Content.sameTimetable_refl (c : Content) : c.sameTimetable c := ⟨rfl, rfl, rfl⟩

theorem Content.sameTimetable_of_eq {c c' : Content} (h : c' = c) : c.sameTimetable c' := h ▸ c.sameTimetable_refl

theorem setDestination_timetable (index : Nat) (text : List Nat) (c : Content) (d : Delivery) :
    c.sameTimetable (setDestination index text c d).1 := by
  unfold setDestination
  split
  · exact c.sameTimetable_refl
  · split
    · exact c.sameTimetable_refl
    · split <;> exact ⟨rfl, rfl, rfl⟩

theorem placardRequest_timetable (number : Nat) (valid : Bool)
    (f : PlacardId → Placard → Content → Delivery → Content × Delivery × Reply) (c : Content) (d : Delivery)
    (h : ∀ n pl, c.sameTimetable (f n pl c d).1) : c.sameTimetable (placardRequest number valid f c d).1 := by
  rcases placardRequest_content number valid f c d with e | ⟨n, pl, _, e⟩
  · exact Content.sameTimetable_of_eq e
  · exact e ▸ h n pl

theorem postPlacard_timetable (p : PortId) (f : PostReq) (c : Content) (d : Delivery) :
    c.sameTimetable (postPlacard p f c d).1 := by
  unfold postPlacard
  split
  · exact c.sameTimetable_refl
  · split
    · exact c.sameTimetable_refl
    · split
      · exact c.sameTimetable_refl
      · split
        · exact c.sameTimetable_refl
        · split <;> exact ⟨rfl, rfl, rfl⟩

theorem amendPlacard_timetable (p : PortId) (f : AmendReq) (n : PlacardId) (old : Placard) (c : Content)
    (d : Delivery) : c.sameTimetable (amendPlacard p f n old c d).1 := by
  unfold amendPlacard
  split
  · exact c.sameTimetable_refl
  · split
    · exact c.sameTimetable_refl
    · split
      · exact c.sameTimetable_refl
      · split
        · exact c.sameTimetable_refl
        · split <;> exact ⟨rfl, rfl, rfl⟩

theorem setText_timetable (p : PortId) (text : List Nat) (n : PlacardId) (old : Placard) (c : Content)
    (d : Delivery) : c.sameTimetable (setText p text n old c d).1 := by
  unfold setText
  split
  · exact c.sameTimetable_refl
  · simp only []
    split
    · exact c.sameTimetable_refl
    · split
      · exact c.sameTimetable_refl
      · split <;> exact ⟨rfl, rfl, rfl⟩

theorem withdrawPlacard_timetable (p : PortId) (n : PlacardId) (old : Placard) (c : Content) (d : Delivery) :
    c.sameTimetable (withdrawPlacard p n old c d).1 := by
  unfold withdrawPlacard
  simp only []
  split
  · exact c.sameTimetable_refl
  · split <;> exact ⟨rfl, rfl, rfl⟩

theorem queueTake_timetable (p : PortId) (h : HoldId) (owner : PortId) (wait : Option (Tag × Nat)) (c : Content)
    (d : Delivery) : c.sameTimetable (queueTake p h owner wait c d).1 := by
  unfold queueTake
  split
  · exact c.sameTimetable_refl
  · simp only []
    split <;> exact ⟨rfl, rfl, rfl⟩

theorem takeHold_timetable (p : PortId) (hold : Nat) (wait : Option (Tag × Nat)) (c : Content) (d : Delivery) :
    c.sameTimetable (takeHold p hold wait c d).1 := by
  unfold takeHold
  split
  · exact c.sameTimetable_refl
  · split
    · exact ⟨rfl, rfl, rfl⟩
    · split
      · exact c.sameTimetable_refl
      · exact queueTake_timetable ..
    · split
      · exact c.sameTimetable_refl
      · split
        · exact ⟨rfl, rfl, rfl⟩
        · exact queueTake_timetable ..

theorem takeRequest_timetable (p : PortId) (tag hold wait : Nat) (c : Content) (d : Delivery) :
    c.sameTimetable (takeRequest p tag hold wait c d).1 := by
  unfold takeRequest
  split
  · exact takeHold_timetable ..
  · rcases taggedRequest_content p tag (fun t => takeHold p hold (some (t, min 60 wait))) c d with e | ⟨t, e⟩
    · exact Content.sameTimetable_of_eq e
    · exact e ▸ takeHold_timetable ..

theorem releaseHold_timetable (h : HoldId) (c : Content) (d : Delivery) : c.sameTimetable (releaseHold h c d).1 := by
  unfold releaseHold
  simp only []
  split <;> exact ⟨rfl, rfl, rfl⟩

theorem releaseRequest_timetable (p : PortId) (hold : Nat) (c : Content) (d : Delivery) :
    c.sameTimetable (releaseRequest p hold c d).1 := by
  unfold releaseRequest
  split
  · exact c.sameTimetable_refl
  · split
    · exact c.sameTimetable_refl
    · exact releaseHold_timetable ..

theorem handHold_timetable (p : PortId) (h : HoldId) (heir : PortId) (c : Content) (d : Delivery) :
    c.sameTimetable (handHold p h heir c d).1 := by
  unfold handHold
  simp only []
  split <;> exact ⟨rfl, rfl, rfl⟩

theorem handoverRequest_timetable (p : PortId) (hold heir : Nat) (c : Content) (d : Delivery) :
    c.sameTimetable (handoverRequest p hold heir c d).1 := by
  unfold handoverRequest
  split
  · split
    · exact c.sameTimetable_refl
    · split
      · exact c.sameTimetable_refl
      · exact handHold_timetable ..
  · exact c.sameTimetable_refl

theorem setupHold_timetable (hold limit group : Nat) (c : Content) (d : Delivery) :
    c.sameTimetable (setupHold hold limit group c d).1 := by
  unfold setupHold
  split
  · split <;> exact ⟨rfl, rfl, rfl⟩
  · exact c.sameTimetable_refl

theorem expireHold_timetable (h : HoldId) (c : Content) (d : Delivery) : c.sameTimetable (expireHold h c d).1 := by
  unfold expireHold
  split
  · exact releaseHold_timetable ..
  · exact c.sameTimetable_refl

theorem endWait_timetable (h : HoldId) (x : Waiter) (o : CompletionOutcome) (body : List Byte) (c : Content)
    (d : Delivery) : c.sameTimetable (endWait h x o body c d).1 := ⟨rfl, rfl, rfl⟩

theorem cancelSplit_timetable (p : PortId) (tag : Nat) (c : Content) (d : Delivery) :
    c.sameTimetable (cancelSplit p tag c d).1 := by
  unfold cancelSplit cancelWait
  split
  · exact c.sameTimetable_refl
  · split
    · exact c.sameTimetable_refl
    · exact c.sameTimetable_refl
    · simp only []
      split
      · exact c.sameTimetable_refl
      · exact endWait_timetable ..
    · exact c.sameTimetable_refl

theorem setupFont_timetable (font height : Nat) (c : Content) (d : Delivery) :
    c.sameTimetable (setupFont font height c d).1 := by
  unfold setupFont
  split
  · exact c.sameTimetable_refl
  · split <;> exact ⟨rfl, rfl, rfl⟩

theorem loadGlyphs_timetable (font : Nat) (entries : List GlyphEntry) (c : Content) (d : Delivery) :
    c.sameTimetable (loadGlyphs font entries c d).1 := by
  unfold loadGlyphs
  split
  · exact c.sameTimetable_refl
  · split <;> exact ⟨rfl, rfl, rfl⟩

theorem setToken_timetable (token : Nat) (text : List Nat) (c : Content) (d : Delivery) :
    c.sameTimetable (setToken token text c d).1 := by
  unfold setToken
  split
  · exact c.sameTimetable_refl
  · split
    · exact c.sameTimetable_refl
    · split <;> exact ⟨rfl, rfl, rfl⟩

theorem setupTicker_timetable (ticker font window period columns lowWater : Nat) (c : Content) (d : Delivery) :
    c.sameTimetable (setupTicker ticker font window period columns lowWater c d).1 := by
  unfold setupTicker
  split <;> exact ⟨rfl, rfl, rfl⟩

theorem feedTicker_timetable (p : PortId) (ticker : Nat) (chars : List Nat) (c : Content) (d : Delivery) :
    c.sameTimetable (feedTicker p ticker chars c d).1 := by
  unfold feedTicker
  split
  · exact c.sameTimetable_refl
  · simp only []
    split
    · exact c.sameTimetable_refl
    · split
      · exact c.sameTimetable_refl
      · split <;> exact ⟨rfl, rfl, rfl⟩

theorem flushTicker_timetable (ticker : Nat) (c : Content) (d : Delivery) :
    c.sameTimetable (flushTicker ticker c d).1 := by
  unfold flushTicker
  split
  · exact c.sameTimetable_refl
  · simp only []
    split <;> exact ⟨rfl, rfl, rfl⟩

theorem scrollTicker_timetable (t : TickerId) (c : Content) (d : Delivery) :
    c.sameTimetable (scrollTicker t c d).1 := by
  unfold scrollTicker
  simp only []
  split <;> exact ⟨rfl, rfl, rfl⟩

/-- The commands whose effect is on the departure lists, the clock or the parameters. -/
def movesTimetable : Instr → Bool
  | .resetn _ _ _ _ => true
  | .depPut _ _ _ _ _ _ => true
  | .depPredict _ _ _ _ => true
  | .depArrive _ _ _ => true
  | .depDepart _ _ _ => true
  | .depCancel _ _ _ => true
  | .clockSet _ _ => true
  | .newDay _ _ => true
  | .settings _ _ => true
  | .boardClear _ => true
  | .countInterval => true
  | _ => false

/-- No other command touches lists, clock or parameters. -/
theorem effect_timetable (i : Instr) (c : Content) (d : Delivery) (h : movesTimetable i = false) :
    c.sameTimetable (effect i c d) := by
  cases i with
  | destSet p index text => exact setDestination_timetable index text c d
  | post p f => exact postPlacard_timetable p f c d
  | amend p number f => exact placardRequest_timetable _ _ _ c d (fun n pl => amendPlacard_timetable p f n pl c d)
  | textSet p number text => exact placardRequest_timetable _ _ _ c d (fun n pl => setText_timetable p text n pl c d)
  | withdraw p number => exact placardRequest_timetable _ _ _ c d (fun n pl => withdrawPlacard_timetable p n pl c d)
  | take p tag hold wait => exact takeRequest_timetable p tag hold wait c d
  | release p hold => exact releaseRequest_timetable p hold c d
  | handover p hold heir => exact handoverRequest_timetable p hold heir c d
  | holdSetup p hold limit group => exact setupHold_timetable hold limit group c d
  | holdExpiry hold => exact expireHold_timetable hold c d
  | waitTimeout hold port =>
    simp only [effect]
    split
    · exact c.sameTimetable_refl
    · exact endWait_timetable ..
  | fontSetup p font height => exact setupFont_timetable font height c d
  | glyphLoad p font entries => exact loadGlyphs_timetable font entries c d
  | tokenSet p token text => exact setToken_timetable token text c d
  | tickerSetup p ticker font window period columns lowWater =>
    exact setupTicker_timetable ticker font window period columns lowWater c d
  | tickerFeed p ticker chars => exact feedTicker_timetable p ticker chars c d
  | tickerFlush p ticker => exact flushTicker_timetable ticker c d
  | scrollStep ticker => exact scrollTicker_timetable ticker c d
  | cancelSplit p tag => exact cancelSplit_timetable p tag c d
  | resetn | depPut | depPredict | depArrive | depDepart | depCancel | clockSet | newDay | settings | boardClear
  | countInterval => cases h
  | _ => exact c.sameTimetable_refl

end Sys2Proof.Machine
end

section
/-! Departure lists in the order of their keys: what placing, removing and moving an entry, and the per-second pass, make
of a list that is in order. -/

namespace Sys2Proof.Machine

/-! ## Lists in order (R4) -/

theorem mem_of_findTrip {trip : Nat} {es : List Entry} {e : Entry} (h : findTrip trip es = some e) :
    e ∈ es ∧ e.trip = trip :=
  ⟨List.mem_of_find?_eq_some h, by simpa using List.find?_some h⟩

theorem findTrip_none_iff (trip : Nat) (es : List Entry) : findTrip trip es = none ↔ ∀ e ∈ es, e.trip ≠ trip := by
  simp [findTrip]

theorem listOk.ordered {es : List Entry} (h : listOk es) : es.Pairwise (fun a b => a.before b = true) :=
  h.2.imp And.left

theorem listOk.trips {es : List Entry} (h : listOk es) : es.Pairwise (fun a b => a.trip ≠ b.trip) :=
  h.2.imp And.right

theorem listOk_intro {es : List Entry} (hl : es.length ≤ 12) (ho : es.Pairwise (fun a b => a.before b = true))
    (ht : es.Pairwise (fun a b => a.trip ≠ b.trip)) : listOk es := ⟨hl, ho.and ht⟩

theorem listOk_nil : listOk [] := ⟨Nat.zero_le _, List.Pairwise.nil⟩

theorem listOk.sublist {es fs : List Entry} (h : listOk es) (s : fs.Sublist es) : listOk fs :=
  ⟨s.length_le.trans h.1, h.2.sublist s⟩

/-- Around an entry of a list in order no other entry has its trip. -/
theorem listOk.trip_ne {above below : List Entry} {e : Entry} (h : listOk (above ++ e :: below)) :
    ∀ x ∈ above ++ below, x.trip ≠ e.trip := by
  obtain ⟨-, hb, ha⟩ := List.pairwise_append.1 h.trips
  intro x hx
  rcases List.mem_append.1 hx with hx | hx
  · exact ha x hx e List.mem_cons_self
  · exact ((List.pairwise_cons.1 hb).1 x hx).symm

/-- Two entries of one trip are one entry. -/
theorem listOk.eq_of_trip {es : List Entry} (h : listOk es) {a b : Entry} (ha : a ∈ es) (hb : b ∈ es)
    (e : a.trip = b.trip) : a = b := by
  obtain ⟨above, below, rfl⟩ := List.append_of_mem ha
  have others := h.trip_ne b
  simp only [List.mem_append, List.mem_cons] at hb others
  by_contra n
  exact others (by tauto) e.symm

theorem listOk.findTrip_mem {es : List Entry} (h : listOk es) {e : Entry} (he : e ∈ es) :
    findTrip e.trip es = some e := by
  cases k : findTrip e.trip es with
  | none => exact absurd rfl ((findTrip_none_iff _ _).1 k e he)
  | some x =>
    obtain ⟨hx, ht⟩ := mem_of_findTrip k
    rw [h.eq_of_trip hx he ht]

/-- An update of the entries that keeps trips and keys keeps a list in order. -/
theorem listOk.map {es : List Entry} (h : listOk es) (f : Entry → Entry) (ht : ∀ e, (f e).trip = e.trip)
    (hk : ∀ a b : Entry, (f a).before (f b) = a.before b) : listOk (es.map f) := by
  refine ⟨by rw [List.length_map]; exact h.1, List.pairwise_map.2 (h.2.imp (fun {a b} k => ?_))⟩
  rw [hk, ht, ht]
  exact k

/-! ## Figures and stamps are no part of the key -/

@[simp] theorem Content.refigure_trip (c : Content) (hyst : Bool) (delta : Option Int) (e : Entry) :
    (c.refigure hyst delta e).trip = e.trip := rfl

theorem Content.refigure_before (c : Content) (hyst : Bool) (delta : Option Int) (a b : Entry) :
    (c.refigure hyst delta a).before (c.refigure hyst delta b) = a.before b := rfl

theorem Entry.restamp_rank (now : Nat) (e : Entry) : (e.restamp now).rank = e.rank := by
  unfold Entry.restamp Entry.rank
  cases e.state <;> rfl

theorem Entry.restamp_effective (now : Nat) (e : Entry) : (e.restamp now).effective = e.effective := by
  obtain ⟨_, _, _, _, state, _, _⟩ := e
  rcases state with _ | q | ⟨_ | q, a⟩ | u <;> rfl

theorem Entry.restamp_before (now : Nat) (a b : Entry) : (a.restamp now).before (b.restamp now) = a.before b := by
  have trip : ∀ e : Entry, (e.restamp now).trip = e.trip := fun _ => rfl
  simp only [Entry.before, Entry.restamp_rank, Entry.restamp_effective, trip]

/-! ## Placing and removing (R5, R6, R12) -/

theorem placeEntry_perm (e : Entry) : ∀ es : List Entry, (placeEntry e es).Perm (e :: es)
  | [] => List.Perm.refl _
  | x :: xs => by
    unfold placeEntry
    split
    · exact List.Perm.refl _
    · exact ((placeEntry_perm e xs).cons x).trans (List.Perm.swap e x xs)

/-- A list with room takes an entry of a trip that it does not hold (R6). -/
theorem listOk_placeEntry {e : Entry} {es : List Entry} (h : listOk es) (room : es.length < 12)
    (new : ∀ x ∈ es, x.trip ≠ e.trip) : listOk (placeEntry e es) := by
  have perm := placeEntry_perm e es
  refine listOk_intro ?_ (placeEntry_ordered e es h.ordered new) ?_
  · rw [perm.length_eq]
    exact room
  · exact (perm.pairwise_iff (fun {_ _} => Ne.symm)).2 (List.pairwise_cons.2 ⟨fun x hx => (new x hx).symm, h.trips⟩)

theorem mem_removeTrip (trip : Nat) (es : List Entry) (x : Entry) : x ∈ removeTrip trip es ↔ x ∈ es ∧ x.trip ≠ trip := by
  simp [removeTrip]

theorem listOk.removeTrip {es : List Entry} (h : listOk es) (trip : Nat) : listOk (removeTrip trip es) :=
  h.sublist List.filter_sublist

/-- A list without one of its entries has room (R6). -/
theorem removeTrip_length_lt {es : List Entry} (h : listOk es) {e : Entry} (he : e ∈ es) :
    (removeTrip e.trip es).length < 12 := by
  have : (Machine.removeTrip e.trip es).length < es.length := by
    unfold Machine.removeTrip
    rw [List.length_filter_lt_length_iff_exists]
    exact ⟨e, he, by simp⟩
  exact Nat.lt_of_lt_of_le this h.1

/-- An entry of the list placed again as `new`, at the position its key requires (R5). -/
theorem listOk_moveEntry {es : List Entry} (h : listOk es) {e new : Entry} (he : e ∈ es) (ht : new.trip = e.trip) :
    listOk (moveEntry e new es).1 :=
  listOk_placeEntry (h.removeTrip e.trip) (removeTrip_length_lt h he)
    (fun x hx => ht ▸ ((mem_removeTrip e.trip es x).1 hx).2)

theorem mem_moveEntry (e new : Entry) (es : List Entry) (x : Entry) :
    x ∈ (moveEntry e new es).1 ↔ x = new ∨ (x ∈ es ∧ x.trip ≠ e.trip) := by
  simp only [moveEntry, mem_placeEntry, mem_removeTrip]

/-! ## The checks of the pass (R16 to R19) -/

theorem Entry.stale_kept (x : Settings) (now : Nat) (e : Entry) :
    (e.stale x now).1.trip = e.trip ∧ (e.stale x now).1.figure = e.figure := by
  unfold Entry.stale
  split
  · split <;> exact ⟨rfl, rfl⟩
  all_goals exact ⟨rfl, rfl⟩

/-- An entry that remains keeps its trip and, until the figures are recomputed, its figure. -/
theorem Entry.pass_kept {x : Settings} {l : ListId} {now : Nat} {e g : Entry} (h : (e.pass x l now).1 = some g) :
    g.trip = e.trip ∧ g.figure = e.figure := by
  unfold Entry.pass at h
  simp only [] at h
  split at h
  · cases h
  · split at h
    · cases h
    · cases h
      exact e.stale_kept x now

/-- What the entries of a list become under their checks, those removed left out. -/
def passed (x : Settings) (l : ListId) (now : Nat) (es : List Entry) : List Entry :=
  es.filterMap (fun e => (e.pass x l now).1)

theorem mem_passed (x : Settings) (l : ListId) (now : Nat) (es : List Entry) (g : Entry) :
    g ∈ passed x l now es ↔ ∃ e ∈ es, (e.pass x l now).1 = some g := List.mem_filterMap

/-- The checks of the entries above a place of the list have removed or reordered one: an entry is removed, or comes to
stand on the other side of an entry above it, as its own checks left that one, or of one below it (R5, R21). -/
def Disturbed (x : Settings) (l : ListId) (now : Nat) (es done : List Entry) : Prop :=
  (∃ e ∈ done, (e.pass x l now).1 = none) ∨
    ∃ above e below g y, es = above ++ e :: below ∧ above.length < done.length ∧ (e.pass x l now).1 = some g ∧
      (y ∈ passed x l now above ∨ y ∈ below) ∧ e.before y ≠ g.before y

/-- One more entry checked: it is removed, it is reordered, or what there was before stands. -/
theorem disturbed_append (x : Settings) (l : ListId) (now : Nat) (done rest : List Entry) (e : Entry) :
    Disturbed x l now (done ++ e :: rest) (done ++ [e]) ↔
      Disturbed x l now (done ++ e :: rest) done ∨ (e.pass x l now).1 = none ∨
        ∃ g y, (e.pass x l now).1 = some g ∧ (y ∈ passed x l now done ∨ y ∈ rest) ∧ e.before y ≠ g.before y := by
  constructor
  · rintro (⟨f, hf, k⟩ | ⟨above, f, below, g, y, split, short, k, hy, differ⟩)
    · rcases List.mem_append.1 hf with hf | hf
      · exact .inl (.inl ⟨f, hf, k⟩)
      · cases List.mem_singleton.1 hf
        exact .inr (.inl k)
    · rcases Nat.lt_or_ge above.length done.length with lt | ge
      · exact .inl (.inr ⟨above, f, below, g, y, split, lt, k, hy, differ⟩)
      · have same : above.length = done.length := by
          rw [List.length_append, List.length_singleton] at short
          omega
        obtain ⟨rfl, tail⟩ := List.append_inj split same.symm
        cases tail
        exact .inr (.inr ⟨g, y, k, hy, differ⟩)
  · rintro ((⟨f, hf, k⟩ | ⟨above, f, below, g, y, split, short, k⟩) | k | ⟨g, y, k⟩)
    · exact .inl ⟨f, List.mem_append_left _ hf, k⟩
    · exact .inr ⟨above, f, below, g, y, split, by rw [List.length_append]; omega, k⟩
    · exact .inl ⟨e, List.mem_append_right _ List.mem_cons_self, k⟩
    · exact .inr ⟨done, e, rest, g, y, rfl, by simp, k⟩

/-- The list as the checks of the entries `done` have left it, those of `rest` still to come. -/
structure PassedUpTo (x : Settings) (l : ListId) (now : Nat) (done rest : List Entry) (r : List Entry × Bool) : Prop where
  ok : listOk r.1
  mem : ∀ y, y ∈ r.1 ↔ y ∈ passed x l now done ∨ y ∈ rest
  flag : r.2 = true ↔ Disturbed x l now (done ++ rest) done

/-- The trip of an entry that waits for its checks is the trip of no other entry of the list as it stands. -/
theorem passed_trip_ne {x : Settings} {l : ListId} {now : Nat} {done rest : List Entry} {e : Entry}
    (h : listOk (done ++ e :: rest)) : ∀ y, y ∈ passed x l now done ∨ y ∈ rest → y.trip ≠ e.trip := by
  have others := h.trip_ne
  rintro y (hy | hy)
  · obtain ⟨f, hf, k⟩ := (mem_passed x l now done y).1 hy
    rw [(Entry.pass_kept k).1]
    exact others f (List.mem_append_left _ hf)
  · exact others y (List.mem_append_right _ hy)

theorem passed_append_singleton (x : Settings) (l : ListId) (now : Nat) (done : List Entry) (e y : Entry) :
    y ∈ passed x l now (done ++ [e]) ↔ y ∈ passed x l now done ∨ (e.pass x l now).1 = some y := by
  simp [mem_passed, or_and_right, exists_or]

/-- The checks of one entry, in the list as the checks of those above it left it (R16 to R19). -/
theorem PassedUpTo.next {x : Settings} {l : ListId} {now : Nat} {done rest : List Entry} {e : Entry}
    {r : List Entry × Bool} (h : listOk (done ++ e :: rest)) (k : PassedUpTo x l now done (e :: rest) r) :
    PassedUpTo x l now (done ++ [e]) rest (passEntry x l now r e) := by
  have others := passed_trip_ne (x := x) (l := l) (now := now) h
  have inList : ∀ y, (y ∈ r.1 ∧ y.trip ≠ e.trip) ↔ y ∈ passed x l now done ∨ y ∈ rest := fun y => by
    rw [k.mem, List.mem_cons]
    constructor
    · rintro ⟨hy | rfl | hy, ne⟩
      · exact .inl hy
      · exact absurd rfl ne
      · exact .inr hy
    · exact fun hy => ⟨hy.imp_right .inr, others y hy⟩
  have here : e ∈ r.1 := (k.mem e).2 (.inr List.mem_cons_self)
  have whole : (done ++ [e]) ++ rest = done ++ e :: rest := by simp
  have flags := disturbed_append x l now done rest e
  unfold passEntry
  cases gone : (e.pass x l now).1 with
  | none =>
    refine ⟨k.ok.removeTrip e.trip, fun y => ?_, ?_⟩
    · rw [mem_removeTrip, inList, passed_append_singleton, gone]
      simp
    · rw [whole, flags]
      exact iff_of_true rfl (.inr (.inl gone))
  | some g =>
    have trip : g.trip = e.trip := (Entry.pass_kept gone).1
    refine ⟨listOk_moveEntry k.ok here trip, fun y => ?_, ?_⟩
    · simp only [mem_moveEntry, inList, passed_append_singleton, gone, Option.some.injEq]
      rw [eq_comm (a := g)]
      tauto
    · obtain ⟨above, below, split⟩ := List.append_of_mem here
      have okSplit : listOk (above ++ e :: below) := split ▸ k.ok
      have around : ∀ y, y ∈ above ++ below ↔ y ∈ passed x l now done ∨ y ∈ rest := fun y => by
        rw [← inList, ← mem_removeTrip, split, removeTrip_split e above below okSplit.trips]
      have moved := moveEntry_reorders e g above below okSplit trip
      rw [← split] at moved
      simp only [Bool.or_eq_true, moved, k.flag, whole, flags, gone, around, reduceCtorEq, Option.some.injEq, false_or]
      simp

/-- The pass over a list in order (R16): what remains is in order, and the flag says what was removed or reordered. -/
theorem passChecks_upTo (x : Settings) (l : ListId) (now : Nat) (es : List Entry) (h : listOk es) :
    PassedUpTo x l now es [] (passChecks x l now es) := by
  have upTo : ∀ done rest, done ++ rest = es →
      PassedUpTo x l now done rest (done.foldl (passEntry x l now) (es, false)) := by
    intro done
    induction done using List.reverseRecOn with
    | nil =>
      rintro rest rfl
      refine ⟨h, by simp [mem_passed], ?_⟩
      simp [Disturbed]
    | append_singleton done e ih =>
      intro rest whole
      rw [List.append_assoc, List.singleton_append] at whole
      rw [List.foldl_append]
      exact (ih (e :: rest) whole).next (whole ▸ h)
  exact upTo es [] (List.append_nil es)

theorem listOk_passList (c : Content) (hyst : Bool) (l : ListId) (now : Nat) (es : List Entry) (h : listOk es) :
    listOk (passList c hyst l now es) :=
  (passChecks_upTo c.settings l now es h).ok.map _ (c.refigure_trip hyst none) (c.refigure_before hyst none)

end Sys2Proof.Machine
end

section
/-! The second event over all lists at once, the windows, and what a change of the clock leaves as it was. -/

namespace Sys2Proof.Machine

/-! ## A walk over a table -/

/-- A walk that changes one record of a table at a time, by what that record holds, changes all of them at once. `wrap` is
what holds the table, with what else the walk changes beside it. -/
theorem foldl_table {σ α δ : Type} {n : Nat} (wrap : Vector α n → δ → σ) (step : σ → Fin n → σ) (F : Fin n → α → α)
    (G : Fin n → α → δ → δ) (h : ∀ v d l, step (wrap v d) l = wrap (v.set l (F l v[l])) (G l v[l] d)) :
    ∀ (ls : List (Fin n)) (v : Vector α n) (d : δ), ls.Nodup → ls.foldl step (wrap v d) =
      wrap (Vector.ofFn (fun l => if l ∈ ls then F l v[l] else v[l])) (ls.foldl (fun d l => G l v[l] d) d)
  | [], v, d, _ => by simp
  | a :: ls, v, d, nodup => by
    obtain ⟨fresh, rest⟩ := List.nodup_cons.1 nodup
    have other : ∀ l ∈ ls, (v.set a (F a v[a]))[l] = v[l] := fun l hl =>
      set_getFin_ne v _ (fun e => fresh (e ▸ hl))
    rw [List.foldl_cons, h, foldl_table wrap step F G h ls _ _ rest, List.foldl_cons]
    have records : (fun l => if l ∈ ls then F l (v.set a (F a v[a]))[l] else (v.set a (F a v[a]))[l]) =
        fun l => if l ∈ a :: ls then F l v[l] else v[l] := by
      funext l
      by_cases hl : l ∈ ls
      · rw [if_pos hl, if_pos (List.mem_cons_of_mem a hl), other l hl]
      · rw [if_neg hl, set_getFin]
        by_cases e : a = l
        · subst e
          simp
        · simp [e, hl, Ne.symm e]
    rw [records, List.foldl_ext _ _ _ (fun d l hl => by rw [other l hl])]

/-- The same of a walk over the whole table. -/
theorem foldl_wholeTable {σ α δ : Type} {n : Nat} (wrap : Vector α n → δ → σ) (step : σ → Fin n → σ) (F : Fin n → α → α)
    (G : Fin n → α → δ → δ) (h : ∀ v d l, step (wrap v d) l = wrap (v.set l (F l v[l])) (G l v[l] d))
    (v : Vector α n) (d : δ) : (List.finRange n).foldl step (wrap v d) =
      wrap (Vector.ofFn (fun l => F l v[l])) ((List.finRange n).foldl (fun d l => G l v[l] d) d) := by
  have walk := foldl_table wrap step F G h (List.finRange n) v d (List.nodup_finRange n)
  simpa only [List.mem_finRange, if_true] using walk

/-- A walk over the departure lists, from the content and the delivery side as they stand. -/
theorem foldl_allLists (c : Content) (step : Content × Delivery → ListId → Content × Delivery)
    (F : ListId → List Entry → List Entry) (G : ListId → List Entry → Delivery → Delivery)
    (h : ∀ v d l, step ({ c with lists := v }, d) l = ({ c with lists := v.set l (F l v[l]) }, G l v[l] d))
    (d : Delivery) : (List.finRange 16).foldl step (c, d) =
      ({ c with lists := Vector.ofFn (fun l => F l c.lists[l]) },
        (List.finRange 16).foldl (fun d l => G l c.lists[l] d) d) :=
  foldl_wholeTable (fun v d => ({ c with lists := v }, d)) step F G h c.lists d

/-! ## What the windows leave as it was (R48, R49) -/

theorem keepsRest_refl (c : Content) : keepsRest c c := ⟨rfl, rfl, rfl, rfl, rfl, rfl, rfl, fun _ => rfl⟩

theorem keepsRest_trans {a b c : Content} (h : keepsRest a b) (k : keepsRest b c) : keepsRest a c := by
  obtain ⟨h1, h2, h3, h4, h5, h6, h7, h8⟩ := h
  obtain ⟨k1, k2, k3, k4, k5, k6, k7, k8⟩ := k
  exact ⟨k1.trans h1, k2.trans h2, k3.trans h3, k4.trans h4, k5.trans h5, k6.trans h6, k7.trans h7,
    fun n => (k8 n).trans (h8 n)⟩

/-- The content but for the LIVE or DORMANT state of placards is as before. -/
def keepsAllButLive (c c' : Content) : Prop := c.sameTimetable c' ∧ keepsRest c c'

theorem keepsAllButLive_refl (c : Content) : keepsAllButLive c c := ⟨c.sameTimetable_refl, keepsRest_refl c⟩

theorem keepsAllButLive_trans {a b c : Content} (h : keepsAllButLive a b) (k : keepsAllButLive b c) :
    keepsAllButLive a c := by
  obtain ⟨⟨h1, h2, h3⟩, h4⟩ := h
  obtain ⟨⟨k1, k2, k3⟩, k4⟩ := k
  exact ⟨⟨k1.trans h1, k2.trans h2, k3.trans h3⟩, keepsRest_trans h4 k4⟩

theorem keepsAllButLive_setPlacard (c : Content) (n : PlacardId) (pl : Placard) (live : Bool)
    (h : c.board.placards[n] = some pl) : keepsAllButLive c (c.setPlacard n (some { pl with live := live })) := by
  refine ⟨⟨rfl, rfl, rfl⟩, rfl, rfl, rfl, rfl, rfl, rfl, rfl, fun m => ?_⟩
  simp only [Content.setPlacard_board, set_getFin]
  by_cases e : n = m
  · subst e
    rw [if_pos rfl, h]
    rfl
  · rw [if_neg e]

theorem evaluateWindow_kept (now : Nat) (cd : Content × Delivery) (n : PlacardId) :
    keepsAllButLive cd.1 (evaluateWindow now cd n).1 := by
  unfold evaluateWindow
  split
  · exact keepsAllButLive_refl _
  · next pl h =>
    simp only []
    split
    · exact keepsAllButLive_setPlacard _ n pl _ h
    · exact keepsAllButLive_refl _

theorem evaluateWindows_kept (now : Nat) (c : Content) (d : Delivery) :
    keepsAllButLive c (evaluateWindows now c d).1 :=
  foldl_keeps (fun cd : Content × Delivery => keepsAllButLive c cd.1) _
    (fun cd n h => keepsAllButLive_trans h (evaluateWindow_kept now cd n)) _ _ (keepsAllButLive_refl c)

/-! ## The events of a change of the clock (R27, R28, R34 to R36) -/

/-- The pass list by list is the pass of all lists at once, each as it stood (R16). -/
theorem secondEvent_eq (hyst : Bool) (c : Content) (d : Delivery) : secondEvent hyst c d = afterSecond hyst c d := by
  have walk := foldl_allLists c (passOne hyst c.clock.second) (fun l => passList c hyst l c.clock.second)
    (fun l es d => raiseListChange c.board l (passChecks c.settings l c.clock.second es).2
      (figuresChanged es (passList c hyst l c.clock.second es)) (passNotices c l c.clock.second es d))
    (fun _ _ _ => rfl) d
  unfold secondEvent listPass
  rw [walk]
  rfl

theorem clockEvents_eq (second minute blink hyst limit : Bool) (c : Content) (d : Delivery) :
    let r := clockEvents second minute blink hyst c d
    (r.1, limitNotice limit r.2) = followClock hyst second minute blink limit c d := by
  simp only [clockEvents, secondEvent_eq]
  rfl

theorem followClock_content (hyst second minute blink limit : Bool) (c : Content) (d : Delivery) :
    (followClock hyst second minute blink limit c d).1 = if second then (afterSecond hyst c d).1 else c := by
  simp only [followClock]
  split <;> rfl

theorem afterSecond_lists (hyst : Bool) (c : Content) (d : Delivery) : (afterSecond hyst c d).1.lists =
    Vector.ofFn (fun l => passList c hyst l (c.clock.value / 100) c.lists[l]) :=
  (evaluateWindows_kept _ _ _).1.1

/-- A second event keeps clock, parameters and the rest (R34). -/
theorem afterSecond_kept (hyst : Bool) (c : Content) (d : Delivery) : (afterSecond hyst c d).1.clock = c.clock ∧
    (afterSecond hyst c d).1.settings = c.settings ∧ keepsRest c (afterSecond hyst c d).1 := by
  obtain ⟨⟨-, clock, settings⟩, rest⟩ := evaluateWindows_kept (c.clock.value / 100)
    { c with lists := Vector.ofFn (fun l => passList c hyst l (c.clock.value / 100) c.lists[l]) } _
  exact ⟨clock, settings, keepsRest_trans ⟨rfl, rfl, rfl, rfl, rfl, rfl, rfl, fun _ => rfl⟩ rest⟩

theorem followClock_kept (hyst second minute blink limit : Bool) (c : Content) (d : Delivery) :
    (followClock hyst second minute blink limit c d).1.clock = c.clock ∧
      (followClock hyst second minute blink limit c d).1.settings = c.settings ∧
      keepsRest c (followClock hyst second minute blink limit c d).1 := by
  rw [followClock_content]
  split
  · exact afterSecond_kept hyst c d
  · exact ⟨rfl, rfl, keepsRest_refl c⟩

/-! ## The commands of the clock as `followClock` states their events (R27, R28, R29, R32) -/

/-- CLOCK_SET in UNSET (R28). -/
theorem startClock_eq (t : Nat) (c : Content) (d : Delivery) : startClock t c d =
    let r := followClock false true true (!(Clock.at t).phaseOn) (decide ((Clock.at t).state = .limit))
      { c.restamp (Clock.at t).second with clock := Clock.at t } d
    (r.1, r.2, clockReply .started (Clock.at t)) := by
  unfold startClock
  simp only [← clockEvents_eq]

/-- A CLOCK_SET that steps (R29, R31). -/
theorem stepClock_eq (t : Nat) (c : Content) (d : Delivery) : stepClock t c d =
    let r := followClock false true (decide ((Clock.at t).second / 60 ≠ c.clock.second / 60))
      (decide ((Clock.at t).phaseOn ≠ c.clock.phaseOn)) (decide ((Clock.at t).state = .limit))
      { c with clock := Clock.at t } d
    (r.1, r.2, clockReply .stepped (Clock.at t)) := by
  unfold stepClock
  simp only [← clockEvents_eq]

theorem newDay_refused (t : Nat) (c : Content) (d : Delivery) (h : clockLimit < t) :
    newDay t c d = (c, d, refuse .badValue) := if_pos h

/-- NEW_DAY (R32). -/
theorem newDay_eq (t : Nat) (c : Content) (d : Delivery) (h : ¬ clockLimit < t) : newDay t c d =
    let w := evaluateWindows (Clock.at t).second { c.emptyLists with clock := Clock.at t } (raiseEmptied c d)
    let r := followClock false true true (decide ((Clock.at t).phaseOn ≠ c.clock.phaseOn))
      (decide ((Clock.at t).state = .limit)) w.1 w.2
    (r.1, r.2, okWith (b4 (Clock.at t).value ++ [(Clock.at t).state.code])) := by
  unfold newDay
  simp only [← clockEvents_eq, if_neg h]

/-- A count interval (R27, R30). -/
theorem countClock_eq (c : Content) (d : Delivery) : countClock c d =
    followClock true (decide (c.clock.count.second ≠ c.clock.second))
      (decide (c.clock.count.second / 60 ≠ c.clock.second / 60))
      (decide (c.clock.count.phaseOn ≠ c.clock.phaseOn)) (c.clock.entersLimit c.clock.advance)
      { c with clock := c.clock.count } d := by
  unfold countClock
  simp only [← clockEvents_eq]

/-- What a SETTINGS leaves of the content: nothing changed, the parameters stored, or with the figures recomputed (R41). -/
theorem changeSettings_content (pairs : List (Nat × Nat)) (c : Content) (d : Delivery) :
    (changeSettings pairs c d).1 = c ∨ ∃ x stored, c.settings.storeAll pairs = some (x, stored) ∧
      ((changeSettings pairs c d).1 = { c with settings := x } ∨
        (changeSettings pairs c d).1 = (refigureAll { c with settings := x } d).1) := by
  unfold changeSettings
  split
  · exact .inl rfl
  · split
    · exact .inl rfl
    · next x stored all =>
      refine .inr ⟨x, stored, all, ?_⟩
      by_cases same : x.horizon = c.settings.horizon ∧ x.threshold = c.settings.threshold
      · exact .inl (by rw [if_pos same])
      · exact .inr (by rw [if_neg same])

/-! ## Raised causes and the time base -/

theorem requestShows_now (x : Works → LinkId → List Drop) (ls : List LinkId) (w : Works) :
    (ls.foldl (fun w l => w.requestShow l (x w l)) w).now = w.now :=
  foldl_keeps (fun v : Works => v.now = w.now) _ (fun v l h => (requestShow_frame l (x v l) v).2.2.2.trans h) ls w rfl

theorem checkSwap_now (b : Board) (g : GroupId) (d : Delivery) : (d.checkSwap b g).works.now = d.works.now := by
  unfold Delivery.checkSwap
  split
  · rfl
  · next x _ =>
    split
    · simp only [Delivery.endSwap_works, Works.outlive_now, Delivery.showSwap, Delivery.mapWorks_works]
      exact (requestShows_now _ _ _).trans (adopts_frame b x.toShow d).2.2.2.1
    · rfl

/-- A raised cause moves no time, whatever swap URGENT completes (R85, R176). -/
theorem raise_now (b : Board) (cause : Cause) (d : Delivery) (p : PanelId) :
    (d.raise b cause p).works.now = d.works.now := by
  unfold Delivery.raise
  split
  · rfl
  · simp only []
    split
    · unfold Delivery.dropOut
      split
      · rfl
      · exact checkSwap_now b _ _
    · rfl

theorem raiseWhere_now (b : Board) (cause : Cause) (test : Panel → Bool) (d : Delivery) :
    (d.raiseWhere b cause test).works.now = d.works.now :=
  foldl_keeps (fun e : Delivery => e.works.now = d.works.now) _ (fun e p h => (raise_now b cause e p).trans h) _ _ rfl

theorem raiseListChange_now (b : Board) (l : ListId) (content figure : Bool) (d : Delivery) :
    (raiseListChange b l content figure d).works.now = d.works.now := by
  unfold raiseListChange raiseList
  cases content <;> cases figure <;> simp [raiseWhere_now]

theorem evaluateWindow_now (now : Nat) (cd : Content × Delivery) (n : PlacardId) :
    (evaluateWindow now cd n).2.works.now = cd.2.works.now := by
  unfold evaluateWindow
  split
  · rfl
  · simp only []
    split
    · exact raiseWhere_now _ _ _ _
    · rfl

theorem evaluateWindows_now (now : Nat) (c : Content) (d : Delivery) :
    (evaluateWindows now c d).2.works.now = d.works.now :=
  foldl_keeps (fun cd : Content × Delivery => cd.2.works.now = d.works.now) _
    (fun cd n h => (evaluateWindow_now now cd n).trans h) _ _ rfl

theorem notifies_now (source : PortId) (ns : List Notice) (d : Delivery) :
    (ns.foldl (fun d n => d.notify n source) d).works.now = d.works.now :=
  foldl_keeps (fun e : Delivery => e.works.now = d.works.now) (fun d n => d.notify n source) (fun _ _ h => h) ns d rfl

theorem afterSecond_now (hyst : Bool) (c : Content) (d : Delivery) :
    (afterSecond hyst c d).2.works.now = d.works.now := by
  unfold afterSecond
  rw [evaluateWindows_now]
  refine foldl_keeps (fun e : Delivery => e.works.now = d.works.now) _ (fun e l h => ?_) _ _ rfl
  simp only [raiseListChange_now]
  exact foldl_keeps (fun e : Delivery => e.works.now = d.works.now) _
    (fun f x k => (notifies_now x.source _ f).trans k) _ _ h

theorem followClock_now (hyst second minute blink limit : Bool) (c : Content) (d : Delivery) :
    (followClock hyst second minute blink limit c d).2.works.now = d.works.now := by
  have passes : (if second then afterSecond hyst c d else (c, d)).2.works.now = d.works.now := by
    split
    · exact afterSecond_now hyst c d
    · rfl
  unfold followClock
  cases minute <;> cases blink <;> cases limit <;> simp [raiseWhere_now, passes]

end Sys2Proof.Machine
end

section
/-! One count interval of the station clock, by its state (R27, R30). -/

namespace Sys2Proof.Machine

/-- The clock counts to `k'`, and enters LIMIT where `limit` says so. -/
def Clock.CountsTo (k k' : Clock) (limit : Bool) : Prop := k.count = k' ∧ k.entersLimit k.advance = limit

theorem Clock.countsTo_limit {k : Clock} (h : k.entersLimit k.advance = true) :
    k.CountsTo ⟨clockLimit, .limit, 0⟩ true := ⟨if_pos h, h⟩

theorem Clock.countsTo_advance {k : Clock} (h : k.entersLimit k.advance = false) : k.CountsTo k.advance false :=
  ⟨if_neg (by simp [h]), h⟩

theorem Clock.stands {k : Clock} (h : k.state = .unset ∨ k.state = .limit) : k.CountsTo k false := by
  have still : k.advance = k := by
    rcases h with h | h <;> simp only [Clock.advance, h]
  have out : k.entersLimit k.advance = false := by
    rw [still]
    rcases h with h | h <;> simp [Clock.entersLimit, h]
  have counts := Clock.countsTo_advance out
  rwa [still] at counts

theorem Clock.advance_running {k : Clock} (h : k.state = .running) :
    k.advance = ⟨min 10799999 (k.value + 1), .running, k.slew⟩ := by
  obtain ⟨_, state, _⟩ := k
  cases h
  rfl

/-- A clock that gains time counts 2 cs and loses one of its slew (R30). -/
theorem Clock.advance_gaining {k : Clock} (h : k.state = .slewing) (gains : 0 < k.slew) : k.advance =
    ⟨min 10799999 (k.value + 2), if k.slew - 1 = 0 then .running else .slewing, k.slew - 1⟩ := by
  simp only [Clock.advance, h, if_pos gains, clockLimit]

/-- A clock that loses time stands still for the interval (R30). -/
theorem Clock.advance_losing {k : Clock} (h : k.state = .slewing) (loses : k.slew < 0) :
    k.advance = ⟨k.value, if k.slew + 1 = 0 then .running else .slewing, k.slew + 1⟩ := by
  simp only [Clock.advance, h, if_neg (show ¬ 0 < k.slew by omega)]

theorem Clock.counts_running {k : Clock} (h : k.state = .running) (below : k.value + 1 < 10799999) :
    k.CountsTo ⟨k.value + 1, .running, k.slew⟩ false := by
  have advance : k.advance = ⟨k.value + 1, .running, k.slew⟩ := by
    rw [Clock.advance_running h, Nat.min_eq_right (Nat.le_of_lt below)]
  rw [← advance]
  refine Clock.countsTo_advance ?_
  simp [advance, Clock.entersLimit, clockLimit, Nat.ne_of_lt below]

theorem Clock.counts_running_limit {k : Clock} (h : k.state = .running) (last : 10799999 ≤ k.value + 1) :
    k.CountsTo ⟨10799999, .limit, 0⟩ true := by
  refine Clock.countsTo_limit ?_
  rw [Clock.advance_running h, Nat.min_eq_left last]
  simp [Clock.entersLimit, clockLimit]

theorem Clock.counts_gaining {k : Clock} (h : k.state = .slewing) (gains : 0 < k.slew) (below : k.value + 2 < 10799999) :
    k.CountsTo ⟨k.value + 2, if k.slew = 1 then .running else .slewing, k.slew - 1⟩ false := by
  have ends : (if k.slew - 1 = 0 then ClockState.running else .slewing) = if k.slew = 1 then .running else .slewing :=
    if_congr (by omega) rfl rfl
  have advance : k.advance = ⟨k.value + 2, if k.slew = 1 then .running else .slewing, k.slew - 1⟩ := by
    rw [Clock.advance_gaining h gains, Nat.min_eq_right (Nat.le_of_lt below), ends]
  rw [← advance]
  refine Clock.countsTo_advance ?_
  simp [advance, Clock.entersLimit, clockLimit, Nat.ne_of_lt below]

theorem Clock.counts_gaining_limit {k : Clock} (h : k.state = .slewing) (gains : 0 < k.slew) (below : k.value < 10799999)
    (last : 10799999 ≤ k.value + 2) : k.CountsTo ⟨10799999, .limit, 0⟩ true := by
  refine Clock.countsTo_limit ?_
  rw [Clock.advance_gaining h gains, Nat.min_eq_left last]
  by_cases ends : k.slew - 1 = 0 <;> simp [Clock.entersLimit, clockLimit, ends, Nat.ne_of_lt below]

theorem Clock.counts_losing {k : Clock} (h : k.state = .slewing) (loses : k.slew < -1) :
    k.CountsTo ⟨k.value, .slewing, k.slew + 1⟩ false := by
  have advance : k.advance = ⟨k.value, .slewing, k.slew + 1⟩ := by
    rw [Clock.advance_losing h (by omega), if_neg (by omega)]
  rw [← advance]
  refine Clock.countsTo_advance ?_
  simp [advance, Clock.entersLimit]

theorem Clock.advance_lost {k : Clock} (h : k.state = .slewing) (loses : k.slew = -1) :
    k.advance = ⟨k.value, .running, 0⟩ := by
  rw [Clock.advance_losing h (by omega), loses]
  rfl

theorem Clock.counts_lost {k : Clock} (h : k.state = .slewing) (loses : k.slew = -1) (before : k.value ≠ 10799999) :
    k.CountsTo ⟨k.value, .running, 0⟩ false := by
  rw [← Clock.advance_lost h loses]
  refine Clock.countsTo_advance ?_
  simp [Clock.advance_lost h loses, Clock.entersLimit, clockLimit, before]

theorem Clock.counts_lost_limit {k : Clock} (h : k.state = .slewing) (loses : k.slew = -1) (last : k.value = 10799999) :
    k.CountsTo ⟨10799999, .limit, 0⟩ true := by
  refine Clock.countsTo_limit ?_
  simp [Clock.advance_lost h loses, Clock.entersLimit, clockLimit, last]

end Sys2Proof.Machine
end

section
/-! A plain cause raised wherever a test says, as one change of the panel table, and what BOARD_CLEAR makes of each
block. -/

namespace Sys2Proof.Machine

/-! ## A plain cause raised by a test (R85) -/

/-- The delivery side with another panel table. -/
def Delivery.withPanels (d : Delivery) (v : Vector (Option Panel) 64) : Delivery :=
  { d with works := { d.works with panels := v } }

theorem raise_withPanels (b : Board) (cause : Cause) (h : cause ≠ .urgent) (d : Delivery)
    (v : Vector (Option Panel) 64) (m : PanelId) :
    (d.withPanels v).raise b cause m = d.withPanels (v.set m (v[m].map (Panel.gain cause))) := by
  rw [raise_plain b cause _ m h]
  change (match v[m] with
    | none => d.withPanels v
    | some q => (d.withPanels v).mapWorks (Works.setPanel m (q.gain cause))) = _
  cases e : v[m] with
  | none =>
    have same : v.set m none = v := by rw [← e]; exact set_self v m
    simp only [Option.map_none, same]
  | some q => rfl

/-- A plain cause raised on the panels of a list, each named once (R85). -/
theorem raises_panels (b : Board) (cause : Cause) (h : cause ≠ .urgent) (ms : List PanelId) (nodup : ms.Nodup)
    (d : Delivery) : ms.foldl (Delivery.raise b cause) d = d.withPanels (Vector.ofFn (fun m =>
      if m ∈ ms then (d.works.panels[m]).map (Panel.gain cause) else d.works.panels[m])) := by
  have walk := foldl_table (fun v (_ : Unit) => d.withPanels v) (Delivery.raise b cause)
    (fun _ => Option.map (Panel.gain cause)) (fun _ _ => id) (fun v _ m => raise_withPanels b cause h d v m) ms
    d.works.panels () nodup
  change ms.foldl (Delivery.raise b cause) (d.withPanels d.works.panels) = _
  exact walk

/-- A plain cause raised by a test is gained by the panels that pass it, and nothing else changes (R85). -/
theorem raiseWhere_panels (b : Board) (cause : Cause) (h : cause ≠ .urgent) (test : Panel → Bool) (d : Delivery) :
    d.raiseWhere b cause test =
      d.withPanels (mapTable (Option.map (fun q => if test q then q.gain cause else q)) d.works.panels) := by
  unfold Delivery.raiseWhere
  rw [panelList_map_filter, raises_panels b cause h _ ((List.nodup_finRange 64).filter _)]
  refine congrArg d.withPanels (Vector.ext (fun i hi => ?_))
  simp only [mapTable_get, Vector.getElem_ofFn, List.mem_filter, List.mem_finRange, true_and]
  change (if (d.works.panels[i]).any test = true then (d.works.panels[i]).map (Panel.gain cause)
    else d.works.panels[i]) = _
  cases d.works.panels[i] with
  | none => simp
  | some q =>
    simp only [Option.any_some, Option.map_some]
    split <;> rfl

/-! ## Holds and confirmations (R64, R77) -/

/-- A hold at a board clear (R77). -/
def Hold.cleared (k : Hold) : Hold := if k.state = .empty then k else { k with state := .empty, waiters := [] }

/-- The completions that a board clear fixes for the waiters of a hold (R77). -/
def Hold.clearCompletions (k : Hold) : List (PortId × Completion) :=
  if k.state = .empty then [] else k.waiters.map (fun x => (x.port, ⟨x.tag, 0x40, .cancelled, []⟩))

/-- Completions fixed one after the other. -/
def Delivery.completeAll (d : Delivery) (xs : List (PortId × Completion)) : Delivery :=
  xs.foldl (fun d x => d.complete x.1 x.2) d

theorem completeAll_append (d : Delivery) (xs ys : List (PortId × Completion)) :
    d.completeAll (xs ++ ys) = (d.completeAll xs).completeAll ys := List.foldl_append

/-- Completions change the ports alone, and by the ports alone (R185). -/
theorem completeAll_frame : ∀ (xs : List (PortId × Completion)) (d : Delivery),
    d.completeAll xs = { d with ports := (d.completeAll xs).ports }
  | [], _ => rfl
  | x :: xs, d => completeAll_frame xs (d.complete x.1 x.2)

theorem completeAll_ports : ∀ (xs : List (PortId × Completion)) (d e : Delivery), d.ports = e.ports →
    (d.completeAll xs).ports = (e.completeAll xs).ports
  | [], _, _, h => h
  | x :: xs, d, e, h => completeAll_ports xs (d.complete x.1 x.2) (e.complete x.1 x.2) (by simp [h])

theorem completeAll_flatMap {α : Type} (f : α → List (PortId × Completion)) : ∀ (as : List α) (d : Delivery),
    as.foldl (fun d a => d.completeAll (f a)) d = d.completeAll (as.flatMap f)
  | [], _ => rfl
  | a :: as, d => by
    rw [List.flatMap_cons, completeAll_append]
    exact completeAll_flatMap f as _

theorem clearHold_eq (c : Content) (v : Vector Hold 32) (d : Delivery) (h : HoldId) :
    clearHold ({ c with holds := v }, d) h =
      ({ c with holds := v.set h (v[h]).cleared }, d.completeAll (v[h]).clearCompletions) := by
  unfold clearHold Hold.cleared Hold.clearCompletions
  simp only []
  split
  · rw [set_self]
    rfl
  · simp only [Delivery.completeAll, List.foldl_map]
    rfl

/-- The hold unit at a board clear: the completions fixed hold by hold (R77). -/
theorem clearHolds_eq (c : Content) (d : Delivery) : clearHolds c d = ({ c with holds := mapTable Hold.cleared c.holds },
    d.completeAll ((List.finRange 32).flatMap (fun h => (c.holds[h]).clearCompletions))) := by
  have walk := foldl_wholeTable (fun v d => (({ c with holds := v }, d) : Content × Delivery)) clearHold
    (fun _ => Hold.cleared) (fun _ k d => d.completeAll k.clearCompletions) (clearHold_eq c) c.holds d
  refine walk.trans (Prod.ext ?_ ?_)
  · have holds : Vector.ofFn (fun h : HoldId => (c.holds[h]).cleared) = mapTable Hold.cleared c.holds :=
      Vector.ext (fun i hi => by simp [mapTable_get])
    simp only [holds]
  · exact completeAll_flatMap (fun h : HoldId => (c.holds[h]).clearCompletions) _ d

/-- The completion of a confirmation that a board clear cancels (R64). -/
def Confirmation.clearCompletion (k : Confirmation) : PortId × Completion := (k.port, ⟨k.tag, 0x35, .cancelled, []⟩)

/-- Confirmations cancelled one after the other: their completions, and their records gone (R63). -/
theorem cancelConfirmations_eq : ∀ (ks : List Confirmation) (d : Delivery), ks.foldl Delivery.cancelConfirmation d =
    { d.completeAll (ks.map Confirmation.clearCompletion) with
      confirmations := d.confirmations.filter (fun j => decide (j ∉ ks)) }
  | [], d => by simp [Delivery.completeAll]
  | k :: ks, d => by
    rw [List.foldl_cons, cancelConfirmations_eq ks]
    have step : d.cancelConfirmation k = { d.complete k.port k.clearCompletion.2 with
      confirmations := d.confirmations.filter (fun j => decide (j ≠ k)) } := rfl
    have gone : (d.cancelConfirmation k).confirmations.filter (fun j => decide (j ∉ ks)) =
        d.confirmations.filter (fun j => decide (j ∉ k :: ks)) := by
      rw [step, List.filter_filter]
      refine List.filter_congr (fun j _ => ?_)
      rw [Bool.eq_iff_iff]
      simp [and_comm]
    rw [gone, completeAll_frame, completeAll_frame (List.map _ (k :: ks)),
      completeAll_ports _ (d.cancelConfirmation k) (d.complete k.port k.clearCompletion.2) rfl]
    rfl

/-! ## The whole command (R191) -/

/-- A panel record at a board clear (R64). -/
def Panel.cleared (q : Panel) : Panel := { q with
  interest := CauseSet.none
  wake := if q.online then q.wake.insert .content else q.wake
  state := if q.state = .parked then .ready else q.state }

theorem Panel.cleared_eq (q : Panel) : (if ({ q with interest := CauseSet.none } : Panel).online then
    ({ q with interest := CauseSet.none } : Panel).gain .content else { q with interest := CauseSet.none }) = q.cleared := by
  obtain ⟨_, _, _, _, _, _, _, _, state, _, _, _, _, _, _, _, _, _, _, _⟩ := q
  cases state <;> rfl

/-- The completions that a board clear fixes, hold by hold and then confirmation by confirmation (R64, R77). -/
def clearCompletions (c : Content) (d : Delivery) : List (PortId × Completion) :=
  (List.finRange 32).flatMap (fun h => (c.holds[h]).clearCompletions) ++
    d.confirmations.map Confirmation.clearCompletion

/-- The content blocks at a board clear (R25, R64, R77, R145). -/
def Content.cleared (c : Content) : Content := { c with
  lists := Vector.replicate 16 []
  holds := mapTable Hold.cleared c.holds
  tickers := mapTable (fun k => if k.state = .undefined then k else k.emptied) c.tickers
  board := ⟨Vector.replicate 192 none, [], 0, nextGeneration c.board.generation⟩ }

theorem clearAll_eq (c : Content) (d : Delivery) : clearAll c d = (c.cleared, (clearAll c d).2.1, okWith []) := by
  unfold clearAll
  rw [clearHolds_eq]
  rfl

/-- The swap group unit changes groups and lanes alone (R180). -/
theorem clearGroups_eq (d : Delivery) : clearGroups d = { d with
    groups := mapTable (fun g => { g with swap := none }) d.groups
    works := d.works.outlive (d.groups.toList.flatMap Group.swapping) } := rfl

theorem clearAll_delivery (c : Content) (d : Delivery) : (clearAll c d).2.1 = { d with
    confirmations := []
    groups := mapTable (fun g => { g with swap := none }) d.groups
    ports := (d.completeAll (clearCompletions c d)).ports
    works := { d.works.outlive (d.groups.toList.flatMap Group.swapping) with
      panels := mapTable (Option.map Panel.cleared) d.works.panels } } := by
  have holds := clearHolds_eq c.emptyLists d
  have none_left : d.confirmations.filter (fun j => decide (j ∉ d.confirmations)) = [] := by
    simp
  have panels : ∀ v : Vector (Option Panel) 64, mapTable (Option.map (fun q => if q.online then q.gain .content else q))
      (mapTable (Option.map (fun q => { q with interest := CauseSet.none })) v) = mapTable (Option.map Panel.cleared) v := by
    intro v
    refine Vector.ext (fun i hi => ?_)
    simp only [mapTable_get]
    cases v[i] with
    | none => rfl
    | some q => exact congrArg some q.cleared_eq
  have waits := completeAll_frame ((List.finRange 32).flatMap (fun h => (c.holds[h]).clearCompletions)) d
  unfold clearAll clearBoard
  simp only [holds, Content.emptyLists_holds]
  rw [raiseWhere_panels _ _ (by decide), clearGroups_eq, waits]
  simp only [Delivery.mapWorks, cancelConfirmations_eq, none_left, panels]
  rw [completeAll_frame]
  simp only [Works.outlive_panels, clearCompletions, completeAll_append]
  exact congrArg (fun ps => (⟨_, _, _, ps⟩ : Delivery)) (completeAll_ports _ _ _ rfl)

/-- The members whose swaps a board clear ends (R178, R180). -/
theorem mem_swapping (gs : Vector Group 8) (m : PanelId) : decide (m ∈ gs.toList.flatMap Group.swapping) =
    (List.finRange 8).any (fun g => (gs[g]).swap.any (fun x => decide (m ∈ x.expected ∧ m ∈ (gs[g]).members))) := by
  have one : ∀ g : Group, m ∈ g.swapping ↔ g.swap.any (fun x => decide (m ∈ x.expected ∧ m ∈ g.members)) = true := by
    intro g
    unfold Group.swapping
    cases g.swap <;> simp [Swap.membersLeft]
  rw [Bool.eq_iff_iff, decide_eq_true_eq, List.any_eq_true, List.mem_flatMap]
  constructor
  · rintro ⟨g, hg, k⟩
    rw [Vector.mem_toList_iff, Vector.mem_iff_getElem] at hg
    obtain ⟨i, hi, rfl⟩ := hg
    exact ⟨⟨i, hi⟩, List.mem_finRange _, (one _).1 k⟩
  · rintro ⟨g, -, k⟩
    exact ⟨gs[g], by simp, (one _).2 k⟩

/-- Settles O60: each block's part of the clear is one change of its table, and the completions are fixed in the order of
the holds and then of the confirmations. -/
theorem boardClearEmptiesEveryBlock : Obligations.BoardClearEmptiesEveryBlock := by
  unfold Obligations.BoardClearEmptiesEveryBlock
  intro p s i c waits fixed cleared take supervisor
  refine ⟨(clearAll c (s.taking p)).2.1, ?_, ?_, ?_, ?_, ?_⟩
  · exact replies_of_supervised p i clearAll s c.cleared _ _ rfl take supervisor (clearAll_eq c (s.taking p))
  · rw [clearAll_delivery]
  · rw [clearAll_delivery]
    rfl
  · rw [clearAll_delivery]
    rfl
  · rw [clearAll_delivery]
    have members : (fun m => decide (m ∈ (s.taking p).groups.toList.flatMap Group.swapping)) = _ :=
      funext (mem_swapping s.delivery.groups)
    have lanes := outlive_lanes_eq ((s.taking p).groups.toList.flatMap Group.swapping) s.delivery.works
    rw [members] at lanes
    rw [← lanes]
    rfl

end Sys2Proof.Machine
end

section
/-! Every step keeps the departure lists in order. -/

namespace Sys2Proof.Machine

/-- A list request leaves what its own part leaves, or is refused (R7). -/
theorem listRequest_content (list trip : Nat) (valid : Bool)
    (f : ListId → Content → Delivery → Content × Delivery × Reply) (c : Content) (d : Delivery) :
    (listRequest list trip valid f c d).1 = c ∨ ∃ l, (listRequest list trip valid f c d).1 = (f l c d).1 := by
  unfold listRequest
  split
  · exact .inl rfl
  · next l _ =>
    split
    · exact .inr ⟨l, rfl⟩
    · exact .inl rfl

/-- The same of a request whose trip must be present. -/
theorem entryRequest_content (list trip : Nat)
    (f : ListId → Entry → Content → Delivery → Content × Delivery × Reply) (c : Content) (d : Delivery) :
    (entryRequest list trip f c d).1 = c ∨
      ∃ l e, e ∈ c.lists[l] ∧ (entryRequest list trip f c d).1 = (f l e c d).1 := by
  rcases listRequest_content list trip true (fun l c d => match findTrip trip c.lists[l] with
    | none => (c, d, refuse .notFound)
    | some e => f l e c d) c d with h | ⟨l, h⟩
  · exact .inl h
  · cases k : findTrip trip c.lists[l] with
    | none =>
      rw [k] at h
      exact .inl h
    | some e =>
      rw [k] at h
      exact .inr ⟨l, e, (mem_of_findTrip k).1, h⟩

/-- Every departure list is in order. -/
def Content.listsOk (c : Content) : Prop := ∀ l : ListId, listOk c.lists[l]

theorem Content.listsOk.setList {c : Content} (h : c.listsOk) (l : ListId) {es : List Entry} (k : listOk es) :
    (c.setList l es).listsOk := by
  intro m
  rw [Content.setList_lists, set_getFin]
  split
  · exact k
  · exact h m

theorem Content.listsOk.congr {c c' : Content} (h : c.listsOk) (e : c'.lists = c.lists) : c'.listsOk := fun l => by
  rw [e]
  exact h l

theorem listsOk_of_empty {c : Content} (h : c.lists = Vector.replicate 16 []) : c.listsOk := fun l => by
  rw [h, Fin.getElem_fin, Vector.getElem_replicate]
  exact listOk_nil

/-! ## The requests that name an entry -/

theorem changeEntry_listsOk {l : ListId} {old new : Entry} {c : Content} (h : c.listsOk) (he : old ∈ c.lists[l])
    (ht : new.trip = old.trip) (delta : Option Int) (d : Delivery) : (changeEntry l old new delta c d).1.listsOk :=
  h.setList l (listOk_moveEntry (h l) he ht)

theorem entryRequest_listsOk (list trip : Nat) (f : ListId → Entry → Content → Delivery → Content × Delivery × Reply)
    (c : Content) (d : Delivery) (h : c.listsOk) (k : ∀ l e, e ∈ c.lists[l] → (f l e c d).1.listsOk) :
    (entryRequest list trip f c d).1.listsOk := by
  rcases entryRequest_content list trip f c d with e | ⟨l, e, he, eq⟩
  · rw [e]
    exact h
  · rw [eq]
    exact k l e he

theorem insertEntry_listsOk (l : ListId) (e : Entry) (c : Content) (d : Delivery) (h : c.listsOk)
    (fresh : ∀ x ∈ c.lists[l], x.trip ≠ e.trip) : (insertEntry l e c d).1.listsOk := by
  unfold insertEntry
  simp only []
  split
  · next room => exact h.setList l (listOk_placeEntry (h l) room fresh)
  · split
    · exact h
    · next last hl =>
      split
      · refine h.setList l (listOk_placeEntry ((h l).sublist (List.dropLast_sublist _)) ?_
          (fun x hx => fresh x (List.mem_of_mem_dropLast hx)))
        have full := (h l).1
        rw [List.length_dropLast]
        omega
      · exact h

theorem putTrip_listsOk (p : PortId) (trip line destination scheduled : Nat) (l : ListId) (c : Content) (d : Delivery)
    (h : c.listsOk) : (putTrip p trip line destination scheduled l c d).1.listsOk := by
  unfold putTrip
  split
  · next none => exact insertEntry_listsOk l _ c d h ((findTrip_none_iff trip _).1 none)
  · next e found => exact changeEntry_listsOk h (mem_of_findTrip found).1 (by rfl) none d

theorem predictTrip_listsOk (p : PortId) (predicted : Nat) (l : ListId) (e : Entry) (c : Content) (d : Delivery)
    (h : c.listsOk) (he : e ∈ c.lists[l]) : (predictTrip p predicted l e c d).1.listsOk := by
  unfold predictTrip
  split
  · exact h
  · exact changeEntry_listsOk h he (by rfl) _ d

/-! ## The clock and SETTINGS -/

theorem afterSecond_listsOk (hyst : Bool) (c : Content) (d : Delivery) (h : c.listsOk) :
    (afterSecond hyst c d).1.listsOk := by
  intro l
  rw [afterSecond_lists, Fin.getElem_fin, Vector.getElem_ofFn]
  exact listOk_passList c hyst l _ _ (h l)

theorem followClock_listsOk (hyst second minute blink limit : Bool) (c : Content) (d : Delivery) (h : c.listsOk) :
    (followClock hyst second minute blink limit c d).1.listsOk := by
  rw [followClock_content]
  split
  · exact afterSecond_listsOk hyst c d h
  · exact h

theorem restamp_listsOk (now : Nat) (c : Content) (h : c.listsOk) : (c.restamp now).listsOk := by
  intro l
  rw [Content.restamp_lists, mapTable_getFin]
  exact (h l).map _ (fun _ => rfl) (Entry.restamp_before now)

theorem setClock_listsOk (t : Nat) (c : Content) (d : Delivery) (h : c.listsOk) : (setClock t c d).1.listsOk := by
  have steps : (stepClock t c d).1.listsOk := by
    simp only [stepClock_eq]
    exact followClock_listsOk _ _ _ _ _ { c with clock := Clock.at t } d h
  unfold setClock
  simp only []
  split
  · exact h
  · split
    · simp only [startClock_eq]
      exact followClock_listsOk _ _ _ _ _ { c.restamp (Clock.at t).second with clock := Clock.at t } d
        (restamp_listsOk (Clock.at t).second c h)
    · split
      · exact h
      · split
        · exact h
        · exact steps
    all_goals
      split
      · exact h
      · exact steps

theorem newDay_listsOk (t : Nat) (c : Content) (d : Delivery) (h : c.listsOk) : (newDay t c d).1.listsOk := by
  by_cases ht : clockLimit < t
  · rw [newDay_refused t c d ht]
    exact h
  · simp only [newDay_eq t c d ht]
    refine followClock_listsOk _ _ _ _ _ _ _ ?_
    exact (listsOk_of_empty (c := { c.emptyLists with clock := Clock.at t }) rfl).congr (evaluateWindows_kept _ _ _).1.1

theorem refigureAll_listsOk (c : Content) (d : Delivery) (h : c.listsOk) : (refigureAll c d).1.listsOk :=
  foldl_keeps (fun cd : Content × Delivery => cd.1.listsOk) refigureList
    (fun cd l k => k.setList l ((k l).map _ (cd.1.refigure_trip false none) (cd.1.refigure_before false none))) _ _ h

theorem changeSettings_listsOk (pairs : List (Nat × Nat)) (c : Content) (d : Delivery) (h : c.listsOk) :
    (changeSettings pairs c d).1.listsOk := by
  rcases changeSettings_content pairs c d with e | ⟨x, stored, -, e | e⟩ <;> rw [e]
  · exact h
  · exact h
  · exact refigureAll_listsOk _ d h

/-! ## Every command -/

theorem effect_listsOk (i : Instr) (c : Content) (d : Delivery) (h : c.listsOk) : (effect i c d).listsOk := by
  cases moves : movesTimetable i with
  | false => exact h.congr (effect_timetable i c d moves).1
  | true =>
    cases i with
    | resetn => exact listsOk_of_empty rfl
    | depPut p list trip line destination scheduled =>
      rcases listRequest_content list trip (decide (line ≤ 63 ∧ destination ≤ 127 ∧ scheduled ≤ 107999))
        (putTrip p trip line destination scheduled) c d with e | ⟨l, e⟩
      · exact h.congr (congrArg Content.lists e)
      · exact (putTrip_listsOk p trip line destination scheduled l c d h).congr (congrArg Content.lists e)
    | depPredict p list trip predicted =>
      exact entryRequest_listsOk list trip _ c d h (fun l e he => predictTrip_listsOk p predicted l e c d h he)
    | depArrive p list trip =>
      exact entryRequest_listsOk list trip _ c d h (fun l e he => changeEntry_listsOk h he (by rfl) none d)
    | depDepart p list trip =>
      exact entryRequest_listsOk list trip _ c d h (fun l e _ => h.setList l ((h l).removeTrip e.trip))
    | depCancel p list trip =>
      exact entryRequest_listsOk list trip _ c d h (fun l e he => changeEntry_listsOk h he (by rfl) none d)
    | clockSet p t => exact setClock_listsOk t c d h
    | newDay p t => exact newDay_listsOk t c d h
    | settings p pairs => exact changeSettings_listsOk pairs c d h
    | boardClear p => exact listsOk_of_empty (by rw [effect, clearAll_eq]; rfl)
    | countInterval =>
      rw [effect, countClock_eq]
      exact followClock_listsOk _ _ _ _ _ { c with clock := c.clock.count } d h
    | _ => cases moves

/-- Settles O5: the effect of every command keeps every list in order, the pass of a second event by `passChecks_upTo`. -/
theorem stepsKeepDepartureListsInOrder : Obligations.StepsKeepDepartureListsInOrder := by
  unfold Obligations.StepsKeepDepartureListsInOrder
  intro s t h step
  exact step_keeps_content Content.listsOk effect_listsOk s t step h

end Sys2Proof.Machine
end

section
/-! Every step keeps clock and parameters in range. -/

namespace Sys2Proof.Machine

/-- Clock and parameters are in range (R23, R26, R41). -/
def Content.clockOk (c : Content) : Prop := Machine.clockOk c.clock ∧ settingsOk c.settings

theorem Content.clockOk.congr {c c' : Content} (h : c.clockOk) (k : c'.clock = c.clock) (x : c'.settings = c.settings) :
    c'.clockOk := by
  unfold Content.clockOk
  rw [k, x]
  exact h

/-! ## The clock -/

theorem clockAt_ok (t : Nat) (h : ¬ clockLimit < t) : clockOk (Clock.at t) := by
  unfold Clock.at
  by_cases e : t = clockLimit
  · rw [if_pos e]
    exact ⟨e, rfl⟩
  · rw [if_neg e]
    exact ⟨Nat.lt_of_le_of_ne (Nat.not_lt.1 h) e, rfl⟩

theorem followClock_clockOk (hyst second minute blink limit : Bool) (c : Content) (d : Delivery) (h : c.clockOk) :
    (followClock hyst second minute blink limit c d).1.clockOk := by
  obtain ⟨clock, settings, -⟩ := followClock_kept hyst second minute blink limit c d
  exact h.congr clock settings

theorem clockOk_value_le {k : Clock} (h : clockOk k) : k.value ≤ clockLimit := by
  unfold clockOk at h
  unfold clockLimit at *
  split at h <;> omega

/-- A slew set by CLOCK_SET: at the last value it can only be negative (R29, R31). -/
theorem slewClock_ok (v : Int) (t : Nat) (c : Content) (d : Delivery) (h : c.clockOk) (ht : ¬ clockLimit < t)
    (hv : v = t - c.clock.value) (lo : -200 ≤ v) (hi : v ≤ 200) : (slewClock v c d).1.clockOk := by
  refine ⟨?_, h.2⟩
  have inDay := clockOk_value_le h.1
  unfold slewClock
  by_cases e : v = 0
  · simp only [if_pos e]
    exact clockAt_ok _ (by omega)
  · simp only [if_neg e]
    exact ⟨inDay, e, lo, hi, fun last => by
      simp only at last ⊢
      omega⟩

theorem setClock_clockOk (t : Nat) (c : Content) (d : Delivery) (h : c.clockOk) : (setClock t c d).1.clockOk := by
  have inDay := clockOk_value_le h.1
  unfold setClock
  simp only []
  split
  · exact h
  · next ht =>
    have stands := clockAt_ok t ht
    have steps : (stepClock t c d).1.clockOk := by
      simp only [stepClock_eq]
      exact followClock_clockOk _ _ _ _ _ { c with clock := Clock.at t } d ⟨stands, h.2⟩
    split
    · simp only [startClock_eq]
      exact followClock_clockOk _ _ _ _ _ { c.restamp (Clock.at t).second with clock := Clock.at t } d ⟨stands, h.2⟩
    · next atLimit =>
      have last : c.clock.value = clockLimit := by
        have k := h.1
        unfold clockOk at k
        rw [atLimit] at k
        exact k.1
      split
      · exact h
      · split
        · next lo => exact slewClock_ok _ t c d h ht rfl lo (by omega)
        · exact steps
    all_goals
      split
      · next near => exact slewClock_ok _ t c d h ht rfl near.1 near.2
      · exact steps

theorem clockOk_running {k : Clock} (h : clockOk k) (state : k.state = .running) : k.value < clockLimit ∧ k.slew = 0 := by
  simp only [Machine.clockOk, state] at h
  exact h

theorem clockOk_slewing {k : Clock} (h : clockOk k) (state : k.state = .slewing) : k.value ≤ clockLimit ∧ k.slew ≠ 0 ∧
    -200 ≤ k.slew ∧ k.slew ≤ 200 ∧ (k.value = clockLimit → k.slew < 0) := by
  simp only [Machine.clockOk, state] at h
  exact h

/-- One count interval, by the state of the clock (R27, R30). -/
theorem count_ok (k : Clock) (h : clockOk k) : clockOk k.count := by
  have limit : k.CountsTo ⟨10799999, .limit, 0⟩ true → clockOk k.count := fun counts => by
    rw [counts.1]
    exact ⟨rfl, rfl⟩
  cases state : k.state with
  | unset =>
    rw [(Clock.stands (.inl state)).1]
    exact h
  | limit =>
    rw [(Clock.stands (.inr state)).1]
    exact h
  | running =>
    obtain ⟨-, noSlew⟩ := clockOk_running h state
    by_cases below : k.value + 1 < 10799999
    · rw [(Clock.counts_running state below).1]
      exact ⟨below, noSlew⟩
    · exact limit (Clock.counts_running_limit state (Nat.not_lt.1 below))
  | slewing =>
    obtain ⟨inDay, slews, lo, hi, last⟩ := clockOk_slewing h state
    rw [clockLimit] at inDay last
    rcases lt_or_gt_of_ne slews with loses | gains
    · by_cases ends : k.slew = -1
      · by_cases late : k.value = 10799999
        · exact limit (Clock.counts_lost_limit state ends late)
        · rw [(Clock.counts_lost state ends late).1]
          exact ⟨Nat.lt_of_le_of_ne inDay late, rfl⟩
      · rw [(Clock.counts_losing state (by omega)).1]
        exact ⟨inDay, show k.slew + 1 ≠ 0 by omega, show -200 ≤ k.slew + 1 by omega, show k.slew + 1 ≤ 200 by omega,
          fun _ => show k.slew + 1 < 0 by omega⟩
    · by_cases below : k.value + 2 < 10799999
      · rw [(Clock.counts_gaining state gains below).1]
        by_cases ends : k.slew = 1
        · rw [if_pos ends, ends]
          exact ⟨below, rfl⟩
        · rw [if_neg ends]
          exact ⟨Nat.le_of_lt below, show k.slew - 1 ≠ 0 by omega, show -200 ≤ k.slew - 1 by omega,
            show k.slew - 1 ≤ 200 by omega, fun late => absurd late (Nat.ne_of_lt below)⟩
      · exact limit (Clock.counts_gaining_limit state gains (by omega) (Nat.not_lt.1 below))

/-! ## The parameters -/

theorem settingsOk_reset : settingsOk Settings.reset := by
  unfold settingsOk
  decide

/-- A pair stored keeps every parameter in its range (R23, R41). -/
theorem store_ok (code v : Nat) (x y : Settings) (stored : Nat) (h : settingsOk x)
    (k : x.store code v = some (y, stored)) : settingsOk y := by
  unfold Settings.store at k
  unfold settingsOk at h ⊢
  split at k <;> cases k <;> simp only [clampTo] <;> omega

theorem storeAll_ok : ∀ (pairs : List (Nat × Nat)) (x y : Settings) (done : List (Nat × Nat)), settingsOk x →
    x.storeAll pairs = some (y, done) → settingsOk y
  | [], x, y, done, h, k => by
    cases k
    exact h
  | (code, v) :: rest, x, y, done, h, k => by
    unfold Settings.storeAll at k
    split at k
    · cases k
    · next z stored one =>
      split at k
      · cases k
      · next w done' more =>
        cases k
        exact storeAll_ok rest z _ done' (store_ok code v x z stored h one) more

theorem refigureAll_clockOk (c : Content) (d : Delivery) (h : c.clockOk) : (refigureAll c d).1.clockOk :=
  foldl_keeps (fun cd : Content × Delivery => cd.1.clockOk) refigureList (fun _ _ k => k) _ _ h

theorem changeSettings_clockOk (pairs : List (Nat × Nat)) (c : Content) (d : Delivery) (h : c.clockOk) :
    (changeSettings pairs c d).1.clockOk := by
  rcases changeSettings_content pairs c d with e | ⟨x, stored, all, e⟩
  · rw [e]
    exact h
  · have inRange : ({ c with settings := x } : Content).clockOk := ⟨h.1, storeAll_ok pairs _ x stored h.2 all⟩
    rcases e with e | e <;> rw [e]
    · exact inRange
    · exact refigureAll_clockOk _ d inRange

/-! ## Every command -/

theorem newDay_clockOk (t : Nat) (c : Content) (d : Delivery) (h : c.clockOk) : (newDay t c d).1.clockOk := by
  by_cases ht : clockLimit < t
  · rw [newDay_refused t c d ht]
    exact h
  · simp only [newDay_eq t c d ht]
    refine followClock_clockOk _ _ _ _ _ _ _ ?_
    obtain ⟨-, clock, settings⟩ := (evaluateWindows_kept (Clock.at t).second { c.emptyLists with clock := Clock.at t }
      (raiseEmptied c d)).1
    exact Content.clockOk.congr (c := { c.emptyLists with clock := Clock.at t }) ⟨clockAt_ok t ht, h.2⟩ clock settings

theorem putTrip_clockOk (p : PortId) (trip line destination scheduled : Nat) (l : ListId) (c : Content) (d : Delivery)
    (h : c.clockOk) : (putTrip p trip line destination scheduled l c d).1.clockOk := by
  unfold putTrip insertEntry
  split
  · simp only []
    split
    · exact h
    · split
      · exact h
      · split <;> exact h
  · exact h

theorem entryRequest_clockOk (list trip : Nat) (f : ListId → Entry → Content → Delivery → Content × Delivery × Reply)
    (c : Content) (d : Delivery) (h : c.clockOk) (k : ∀ l e, (f l e c d).1.clockOk) :
    (entryRequest list trip f c d).1.clockOk := by
  rcases entryRequest_content list trip f c d with e | ⟨l, e, -, eq⟩
  · rw [e]
    exact h
  · rw [eq]
    exact k l e

theorem effect_clockOk (i : Instr) (c : Content) (d : Delivery) (h : c.clockOk) : (effect i c d).clockOk := by
  cases moves : movesTimetable i with
  | false =>
    obtain ⟨-, clock, settings⟩ := effect_timetable i c d moves
    exact h.congr clock settings
  | true =>
    cases i with
    | resetn => exact ⟨⟨rfl, rfl⟩, settingsOk_reset⟩
    | depPut p list trip line destination scheduled =>
      rcases listRequest_content list trip (decide (line ≤ 63 ∧ destination ≤ 127 ∧ scheduled ≤ 107999))
        (putTrip p trip line destination scheduled) c d with e | ⟨l, e⟩
      · exact h.congr (congrArg Content.clock e) (congrArg Content.settings e)
      · exact (putTrip_clockOk p trip line destination scheduled l c d h).congr (congrArg Content.clock e)
          (congrArg Content.settings e)
    | depPredict p list trip predicted =>
      refine entryRequest_clockOk list trip _ c d h (fun l e => ?_)
      unfold predictTrip
      split <;> exact h
    | depArrive => exact entryRequest_clockOk _ _ _ c d h (fun _ _ => h)
    | depDepart => exact entryRequest_clockOk _ _ _ c d h (fun _ _ => h)
    | depCancel => exact entryRequest_clockOk _ _ _ c d h (fun _ _ => h)
    | clockSet p t => exact setClock_clockOk t c d h
    | newDay p t => exact newDay_clockOk t c d h
    | settings p pairs => exact changeSettings_clockOk pairs c d h
    | boardClear p => exact h.congr (by rw [effect, clearAll_eq]; rfl) (by rw [effect, clearAll_eq]; rfl)
    | countInterval =>
      rw [effect, countClock_eq]
      exact followClock_clockOk _ _ _ _ _ { c with clock := c.clock.count } d ⟨count_ok c.clock h.1, h.2⟩
    | _ => cases moves

/-- Settles O6: by the effect of every command; the clock's part is `setClock_clockOk`, `newDay_clockOk` and `count_ok`. -/
theorem stepsKeepClockAndParametersInRange : Obligations.StepsKeepClockAndParametersInRange := by
  unfold Obligations.StepsKeepClockAndParametersInRange
  intro s t h step
  exact step_keeps_content Content.clockOk effect_clockOk s t step h

end Sys2Proof.Machine
end

section
/-! The requests that name an entry, and DEST_SET. -/

namespace Sys2Proof.Machine

/-! ## The value checks (R7) -/

theorem listRequest_refused {list trip : Nat} {valid : Bool}
    (f : ListId → Content → Delivery → Content × Delivery × Reply) (c : Content) (d : Delivery)
    (h : ¬ (list ≤ 15 ∧ 1 ≤ trip ∧ trip ≤ 16777215 ∧ valid = true)) :
    listRequest list trip valid f c d = (c, d, refuse .badValue) := by
  unfold listRequest
  by_cases named : list < 16
  · rw [index?_of_lt named]
    exact if_neg (fun k => h ⟨by omega, k⟩)
  · rw [index?_of_le (by omega)]

theorem listRequest_taken (l : ListId) {trip : Nat} {valid : Bool}
    (f : ListId → Content → Delivery → Content × Delivery × Reply) (c : Content) (d : Delivery)
    (h : 1 ≤ trip ∧ trip ≤ 16777215 ∧ valid = true) : listRequest l.val trip valid f c d = f l c d := by
  unfold listRequest
  rw [index?_val]
  exact if_pos h

theorem entryRequest_refused {list trip : Nat} (f : ListId → Entry → Content → Delivery → Content × Delivery × Reply)
    (c : Content) (d : Delivery) (h : 15 < list ∨ trip = 0 ∨ 16777215 < trip) :
    entryRequest list trip f c d = (c, d, refuse .badValue) := listRequest_refused _ c d (by omega)

theorem entryRequest_absent (l : ListId) {trip : Nat}
    (f : ListId → Entry → Content → Delivery → Content × Delivery × Reply) (c : Content) (d : Delivery)
    (lo : 1 ≤ trip) (hi : trip ≤ 16777215) (h : findTrip trip c.lists[l] = none) :
    entryRequest l.val trip f c d = (c, d, refuse .notFound) := by
  unfold entryRequest
  rw [listRequest_taken l _ c d ⟨lo, hi, rfl⟩, h]

theorem entryRequest_present (l : ListId) {trip : Nat} {e : Entry}
    (f : ListId → Entry → Content → Delivery → Content × Delivery × Reply) (c : Content) (d : Delivery)
    (lo : 1 ≤ trip) (hi : trip ≤ 16777215) (h : findTrip trip c.lists[l] = some e) :
    entryRequest l.val trip f c d = f l e c d := by
  unfold entryRequest
  rw [listRequest_taken l _ c d ⟨lo, hi, rfl⟩, h]

/-- A request whose block changes one entry. -/
theorem entryBecomes_of_change {p : PortId} {i : Instr} {f : Content → Delivery → Content × Delivery × Reply} {s : State}
    {l : ListId} {e new : Entry} {delta : Option Int} {body : List Byte} (eq : exec i s = request p i f s)
    (take : s.canTake p i) (k : f s.content (s.taking p) =
      ((changeEntry l e new delta s.content (s.taking p)).1, (changeEntry l e new delta s.content (s.taking p)).2,
        okWith body)) : EntryBecomes p i body l e new delta s := replies_of_request p i f s _ _ _ eq take k

/-! ## DEP_PUT (R6, R8) -/

/-- An insertion into a list with room (R6). -/
theorem insertEntry_room (l : ListId) (e : Entry) (c : Content) (d : Delivery) (h : c.lists[l].length < 12) :
    insertEntry l e c d =
      (c.setList l (placeEntry e c.lists[l]), raiseList c.board .content l d, okWith [0x00]) := if_pos h

/-- An insertion into a full list: the last entry evicted, or LIST_FULL (R6). -/
theorem insertEntry_full (l : ListId) (e last : Entry) (c : Content) (d : Delivery) (h : 12 ≤ c.lists[l].length)
    (k : c.lists[l].getLast? = some last) : insertEntry l e c d =
      if e.before last then (c.setList l (placeEntry e c.lists[l].dropLast),
        raiseList c.board .content l (d.notify (.listEvict l last.trip) last.source), okWith [0x00])
      else (c, d, refuse .listFull) := by
  unfold insertEntry
  simp only [if_neg (Nat.not_lt.2 h), k]
  rfl

theorem EntryState.reinstate_of_present {st : EntryState} (h : ∀ t, st ≠ .cancelled t) :
    st.reinstate = st ∧ st.putOutcome.code = 0x01 := by
  cases st with
  | cancelled t => exact absurd rfl (h t)
  | planned => exact ⟨rfl, rfl⟩
  | tracked => exact ⟨rfl, rfl⟩
  | arrived => exact ⟨rfl, rfl⟩

/-- Settles O25: by whether the values are in range, the trip is present, and the list has room. -/
theorem depPutInsertsOrUpdates : Obligations.DepPutInsertsOrUpdates := by
  unfold Obligations.DepPutInsertsOrUpdates
  intro p list trip line destination scheduled s i inRange take
  refine ⟨fun out => ?_, ?_⟩
  · refine replies_of_request p i _ s _ _ _ rfl take (listRequest_refused _ _ _ ?_)
    simpa [inRange] using out
  · rintro inside l rfl es planned e
    obtain ⟨-, lo, hi, rest⟩ := inside
    have taken := listRequest_taken l (putTrip p trip line destination scheduled) s.content (s.taking p)
      ⟨lo, hi, decide_eq_true rest⟩
    refine ⟨fun absent => ⟨fun room => ?_, fun last full hl => ⟨fun sooner => ?_, fun behind => ?_⟩⟩,
      fun old present => ⟨fun t cancelled => ?_, fun kept => ?_⟩⟩
    · refine replies_of_request p i _ s _ _ _ rfl take (taken.trans ?_)
      rw [putTrip, absent]
      exact insertEntry_room l e s.content (s.taking p) room
    · refine replies_of_request p i _ s _ _ _ rfl take (taken.trans ?_)
      rw [putTrip, absent]
      exact (insertEntry_full l e last s.content (s.taking p) full hl).trans (if_pos sooner)
    · refine replies_of_request p i _ s _ _ _ rfl take (taken.trans ?_)
      rw [putTrip, absent]
      exact (insertEntry_full l e last s.content (s.taking p) full hl).trans (if_neg (by simp [behind]))
    · refine entryBecomes_of_change rfl take (taken.trans ?_)
      rw [putTrip, present]
      simp only [cancelled]
      rfl
    · obtain ⟨state, outcome⟩ := EntryState.reinstate_of_present kept
      refine entryBecomes_of_change rfl take (taken.trans ?_)
      rw [putTrip, present]
      simp only [state, outcome]

/-! ## DEP_PREDICT, DEP_ARRIVE, DEP_CANCEL (R9, R10, R11) -/

/-- A prediction taken by an entry that is not CANCELLED (R9). -/
theorem predictTrip_taken (p : PortId) (predicted : Nat) (l : ListId) (e : Entry) (st : EntryState) (c : Content)
    (d : Delivery) (h : e.state.predict ⟨min predicted 107999, c.clock.second⟩ = some st)
    (k : st.prediction = some ⟨min predicted 107999, c.clock.second⟩) : predictTrip p predicted l e c d =
      let r := changeEntry l e { e with state := st, source := p }
        (some ((min predicted 107999 : Nat) - (e.effective : Int))) c d
      (r.1, r.2, okWith []) := by
  have time : Entry.effective { e with state := st, source := p } = min predicted 107999 := by
    simp only [Entry.effective, k]
  simp only [predictTrip, h, time]

theorem Entry.cancelState_kept {e : Entry} {t now linger : Nat} (h : e.state = .cancelled t) :
    e.cancelState now linger = .cancelled t := by
  simp only [Entry.cancelState, h]

theorem Entry.cancelState_new {e : Entry} (now linger : Nat) (h : ∀ t, e.state ≠ .cancelled t) :
    e.cancelState now linger = .cancelled (max e.scheduled now + linger) := by
  unfold Entry.cancelState
  cases k : e.state with
  | cancelled t => exact absurd k (h t)
  | planned => rfl
  | tracked => rfl
  | arrived => rfl

/-- Settles O26: request by request and, for a present trip, state by state. -/
theorem entryEventsMoveTheEntryState : Obligations.EntryEventsMoveTheEntryState := by
  unfold Obligations.EntryEventsMoveTheEntryState
  refine ⟨?_, ?_⟩
  · intro p list trip predicted s out i hi take
    simp only [List.mem_cons, List.not_mem_nil, or_false] at hi
    rcases hi with rfl | rfl | rfl <;>
      exact replies_of_request p _ _ s _ _ _ rfl take (entryRequest_refused _ _ _ out)
  · intro p l trip predicted s lo hi predict arrive cancel now q
    refine ⟨fun absent i hi' take => ?_, fun e present => ⟨fun take => ⟨fun st moves => ?_, fun t cancelled => ?_⟩,
      fun take st moves => ?_, fun take st moves => ?_⟩⟩
    · simp only [List.mem_cons, List.not_mem_nil, or_false] at hi'
      rcases hi' with rfl | rfl | rfl <;>
        exact replies_of_request p _ _ s _ _ _ rfl take (entryRequest_absent l _ _ _ lo hi absent)
    · have takes : e.state.predict q = some st ∧ st.prediction = some q := by
        rcases moves with ⟨h, rfl⟩ | ⟨r, h, rfl⟩ | ⟨r, a, h, rfl⟩ <;> rw [h] <;> exact ⟨rfl, rfl⟩
      exact entryBecomes_of_change rfl take ((entryRequest_present l _ _ _ lo hi present).trans
        (predictTrip_taken p predicted l e st _ _ takes.1 takes.2))
    · refine replies_of_request p _ _ s _ _ _ rfl take ((entryRequest_present l _ _ _ lo hi present).trans ?_)
      simp only [predictTrip, cancelled, EntryState.predict]
    · have arrives : e.state.arrive now = st := by
        rcases moves with ⟨h, rfl⟩ | ⟨r, h, rfl⟩ | ⟨r, h, rfl⟩ | ⟨r, a, h, rfl⟩ <;> rw [h] <;> rfl
      refine entryBecomes_of_change rfl take ((entryRequest_present l _ _ _ lo hi present).trans ?_)
      rw [← arrives]
      rfl
    · have cancels : e.cancelState now s.content.settings.cancelLinger = st := by
        rcases moves with ⟨h, rfl⟩ | ⟨t, h, rfl⟩
        · exact Entry.cancelState_new _ _ h
        · exact Entry.cancelState_kept h
      refine entryBecomes_of_change rfl take ((entryRequest_present l _ _ _ lo hi present).trans ?_)
      rw [← cancels]
      rfl

/-! ## DEP_DEPART (R12) -/

theorem taking_notices (p q : PortId) (s : State) : ((s.taking p).ports[q]).notices = (s.delivery.ports[q]).notices := by
  simp only [State.taking, Delivery.mapPort_ports, modifyAt_getFin]
  split
  · subst q
    rfl
  · rfl

/-- Settles O27: the list without the entry is what stands before it and what stands after it. -/
theorem depDepartRemovesTheEntry : Obligations.DepDepartRemovesTheEntry := by
  unfold Obligations.DepDepartRemovesTheEntry
  refine ⟨?_, ?_⟩
  · intro p list trip s out take
    exact replies_of_request p _ _ s _ _ _ rfl take (entryRequest_refused _ _ _ out)
  · intro p l trip s i es take lo hi ok
    refine ⟨fun absent => ?_, fun e present => ?_⟩
    · exact replies_of_request p i _ s _ _ _ rfl take (entryRequest_absent l _ _ _ lo hi absent)
    · obtain ⟨front, back, split⟩ := List.append_of_mem (mem_of_findTrip present).1
      have without : removeTrip e.trip es = front ++ back := by
        rw [split]
        exact removeTrip_split e front back (split ▸ ok).trips
      refine ⟨front, back, _, split, ?_, rfl, fun q => ?_⟩
      · refine replies_of_request p i _ s _ _ _ rfl take ((entryRequest_present l _ _ _ lo hi present).trans ?_)
        rw [← without]
        rfl
      · obtain ⟨-, -, ports, -⟩ := raiseWhere_frame s.content.board .content
          (s.content.board.draws (Placard.namesList l)) (s.taking p) (by decide)
        rw [raiseList, ports]
        exact taking_notices p q s

/-! ## DEST_SET (R15) -/

/-- Settles O28: by whether index and name are in range, and whether the name is new. -/
theorem destSetReplacesTheName : Obligations.DestSetReplacesTheName := by
  unfold Obligations.DestSetReplacesTheName
  intro p index text s i take
  have valid : textValid 24 text = true ↔ text.length ≤ 24 ∧ ∀ x ∈ text, x < 512 := by
    simp only [textValid_iff, Nat.lt_succ_iff]
  refine ⟨fun bad => ?_, ?_⟩
  · refine replies_of_request p i _ s _ _ _ rfl take ?_
    unfold setDestination
    by_cases named : index < 128
    · have refused : textValid 24 text = false := by
        rw [Bool.eq_false_iff, ne_eq, valid]
        rintro ⟨short, glyphs⟩
        rcases bad with bad | bad | ⟨x, hx, bad⟩
        · omega
        · omega
        · exact absurd (glyphs x hx) (by omega)
      simp [index?_of_lt named, refused]
    · simp [index?_of_le (Nat.not_lt.1 named)]
  · rintro k rfl short glyphs
    have good := valid.2 ⟨short, glyphs⟩
    refine ⟨fun same => ?_, fun other => ?_⟩ <;> refine replies_of_request p i _ s _ _ _ rfl take ?_
    · simp only [setDestination, index?_val, good, same, Bool.not_true, Bool.false_eq_true, if_false, if_true]
    · simp only [setDestination, index?_val, good, other, Bool.not_true, Bool.false_eq_true, if_false]

end Sys2Proof.Machine
end

section
/-! CLOCK_SET and NEW_DAY, by the state of the clock. -/

namespace Sys2Proof.Machine

/-! ## The clock set to a value (R28, R29, R32) -/

theorem clockAt_state_limit (t : Nat) : decide ((Clock.at t).state = .limit) = decide (t = 10799999) := by
  unfold Clock.at clockLimit
  by_cases h : t = 10799999 <;> simp [h]

theorem phaseOn_differs (j k : Clock) :
    decide (j.phaseOn ≠ k.phaseOn) = (decide (j.value % 100 < 50) != decide (k.value % 100 < 50)) := by
  unfold Clock.phaseOn
  cases decide (j.value % 100 < 50) <;> cases decide (k.value % 100 < 50) <;> rfl

theorem not_phaseOn (k : Clock) : (!k.phaseOn) = decide (50 ≤ k.value % 100) := by
  simp only [Clock.phaseOn, ← decide_not, Nat.not_lt]

/-! ## CLOCK_SET (R28, R29, R31) -/

theorem setClock_refused (t : Nat) (c : Content) (d : Delivery) (h : clockLimit < t) :
    setClock t c d = (c, d, refuse .badValue) := if_pos h

theorem setClock_unset (t : Nat) (c : Content) (d : Delivery) (h : ¬ clockLimit < t) (k : c.clock.state = .unset) :
    setClock t c d = startClock t c d := by
  simp only [setClock, if_neg h, k]

/-- RUNNING or SLEWING: a difference within 200 slews, any other steps. -/
theorem setClock_counting (t : Nat) (c : Content) (d : Delivery) (h : ¬ clockLimit < t)
    (k : c.clock.state = .running ∨ c.clock.state = .slewing) : setClock t c d =
      if -200 ≤ (t : Int) - c.clock.value ∧ (t : Int) - c.clock.value ≤ 200 then
        slewClock ((t : Int) - c.clock.value) c d
      else stepClock t c d := by
  rcases k with k | k <;> simp only [setClock, if_neg h, k]

theorem setClock_limit (t : Nat) (c : Content) (d : Delivery) (h : ¬ clockLimit < t) (k : c.clock.state = .limit) :
    setClock t c d =
      if (t : Int) - c.clock.value = 0 then (c, d, clockReply .held c.clock)
      else if -200 ≤ (t : Int) - c.clock.value then slewClock ((t : Int) - c.clock.value) c d
      else stepClock t c d := by
  simp only [setClock, if_neg h, k]

theorem slewClock_slews (v : Int) (c : Content) (d : Delivery) (h : v ≠ 0) : slewClock v c d =
    ({ c with clock := ⟨c.clock.value, .slewing, v⟩ }, d, okWith ([0x04] ++ b4 c.clock.value ++ [0x02])) := by
  simp only [slewClock, if_neg h]
  rfl

theorem slewClock_zero (c : Content) (d : Delivery) : slewClock 0 c d =
    ({ c with clock := Clock.at c.clock.value }, limitNotice (decide (c.clock.value = 10799999)) d,
      clockReply .slewed (Clock.at c.clock.value)) := by
  simp only [slewClock, if_true, clockAt_state_limit]

/-- Settles O31: by the state of the clock and the difference; what a start and a step raise is `startClock_eq` and
`stepClock_eq`. -/
theorem clockSetStartsSlewsStepsOrHolds : Obligations.ClockSetStartsSlewsStepsOrHolds := by
  unfold Obligations.ClockSetStartsSlewsStepsOrHolds
  refine ⟨fun now e => ?_, ?_⟩
  · obtain ⟨_, _, _, _, state, _, _⟩ := e
    refine ⟨?_, ?_, ?_⟩
    · rintro (rfl | ⟨u, rfl⟩) <;> rfl
    · rintro q rfl
      rfl
    · rintro q u rfl
      rfl
  · intro p t s i k d stands restamped startedAs steppedAs taken slewed take
    refine ⟨fun late => replies_of_request p i _ s _ _ _ rfl take (setClock_refused t _ _ late), fun inDay => ?_⟩
    have day : ¬ clockLimit < t := Nat.not_lt.2 inDay
    have started : startClock t s.content (s.taking p) =
        (startedAs.1, startedAs.2, okWith (0x03 :: (b4 t ++ [stands.state.code]))) := by
      simp only [startClock_eq, clockAt_state_limit, not_phaseOn]
      rfl
    have stepped : stepClock t s.content (s.taking p) =
        (steppedAs.1, steppedAs.2, okWith (0x05 :: (b4 t ++ [stands.state.code]))) := by
      simp only [stepClock_eq, clockAt_state_limit, phaseOn_differs]
      rfl
    have steps : setClock t s.content (s.taking p) = stepClock t s.content (s.taking p) → taken 0x05 steppedAs := by
      intro eq
      obtain ⟨clock, settings, rest⟩ := followClock_kept false true (decide (t / 100 / 60 ≠ k.value / 100 / 60))
        (decide (t % 100 < 50) != decide (k.value % 100 < 50)) (decide (t = 10799999))
        { s.content with clock := stands } (s.taking p)
      exact ⟨replies_of_request p i _ s _ _ _ rfl take (eq.trans stepped), clock, settings, rest⟩
    have slews : setClock t s.content (s.taking p) = slewClock d s.content (s.taking p) → slewed := by
      intro eq differs
      exact replies_of_request p i _ s _ _ _ rfl take (eq.trans (slewClock_slews d _ _ differs))
    refine ⟨fun unset => ?_, fun counting => ?_, fun atLimit last => ?_⟩
    · obtain ⟨clock, settings, rest⟩ := followClock_kept false true true (decide (50 ≤ t % 100))
        (decide (t = 10799999)) restamped (s.taking p)
      exact ⟨replies_of_request p i _ s _ _ _ rfl take ((setClock_unset t _ _ day unset).trans started), clock,
        settings, rest⟩
    · have eq := setClock_counting t s.content (s.taking p) day counting
      refine ⟨fun near => ?_, fun far => steps (eq.trans (if_neg far))⟩
      have slew := eq.trans (if_pos near)
      have zero : d = 0 → setClock t s.content (s.taking p) = slewClock 0 s.content (s.taking p) := fun h => by
        rw [slew]
        exact congrArg (fun v => slewClock v s.content (s.taking p)) h
      refine ⟨slews slew, fun same before => ?_, fun same last => ?_⟩ <;>
        refine replies_of_request p i _ s _ _ _ rfl take ((zero same).trans ((slewClock_zero _ _).trans ?_))
      · have running : Clock.at k.value = ⟨k.value, .running, 0⟩ := by simp [Clock.at, clockLimit, before]
        have quiet : decide (k.value = 10799999) = false := decide_eq_false before
        rw [running, quiet]
        rfl
      · have limit : Clock.at k.value = ⟨k.value, .limit, 0⟩ := by simp [Clock.at, clockLimit, last]
        have entered : decide (k.value = 10799999) = true := decide_eq_true last
        rw [limit, entered]
        rfl
    · have eq := setClock_limit t s.content (s.taking p) day atLimit
      refine ⟨fun same => ?_, fun near differs => ?_, fun far => ?_⟩
      · refine replies_of_request p i _ s _ _ _ rfl take ((eq.trans (if_pos same)).trans ?_)
        rw [clockReply, atLimit]
        rfl
      · exact slews (eq.trans ((if_neg differs).trans (if_pos near))) differs
      · exact steps (eq.trans ((if_neg (show ¬ d = 0 by omega)).trans (if_neg (not_le.2 far))))

/-! ## Validity windows (R48, R49) -/

/-- A placard is LIVE without a window, and otherwise within it, but not in UNSET (R48). -/
theorem liveAt_iff (pl : Placard) (k : ClockState) (now : Nat) : pl.liveAt k now = true ↔
    (pl.windowStart = none ∧ pl.windowEnd = none) ∨
      (k ≠ .unset ∧ (∀ t, pl.windowStart = some t → t ≤ now) ∧ ∀ t, pl.windowEnd = some t → now < t) := by
  have window : pl.hasWindow = true ↔ ¬ (pl.windowStart = none ∧ pl.windowEnd = none) := by
    unfold Placard.hasWindow
    cases pl.windowStart <;> cases pl.windowEnd <;> simp
  unfold Placard.liveAt
  by_cases h : pl.windowStart = none ∧ pl.windowEnd = none
  · rw [if_neg (by simp [window, h])]
    simp [h]
  · rw [if_pos (window.2 h)]
    simp only [Bool.and_eq_true, optOk_iff, decide_eq_true_eq, and_assoc, h, false_or]

/-- A table zipped with its numbers. -/
theorem zip_finRange {α : Type} {n : Nat} (v : Vector α n) :
    (List.finRange n).zip v.toList = (List.finRange n).map (fun i => (i, v[i])) := by
  apply List.ext_getElem
  · simp
  · intro i h1 h2
    simp

theorem windowed_eq (b : Board) : b.windowed =
    (List.finRange 192).filter (fun n => (b.placards[n]).any (fun pl => pl.windowStart.isSome || pl.windowEnd.isSome)) := by
  unfold Board.windowed
  rw [zip_finRange, List.filter_map, List.map_map]
  exact List.map_id' _

theorem evaluateWindow_transition (now : Nat) (c : Content) (d : Delivery) (n : PlacardId) (pl : Placard)
    (h : c.board.placards[n] = some pl) (window : pl.hasWindow = true)
    (differs : pl.liveAt c.clock.state now ≠ pl.live) : evaluateWindow now (c, d) n =
      let c' := c.setPlacard n (some { pl with live := pl.liveAt c.clock.state now })
      (c', (d.mapWorks (Works.recomputeInterest c'.board pl.matchesPanel)).raiseWhere c'.board (layerCause pl.layer)
        pl.matchesPanel) := by
  simp only [evaluateWindow, h, window, differs, ne_eq, not_false_eq_true, decide_true, Bool.and_self, if_true]

theorem evaluateWindow_same (now : Nat) (c : Content) (d : Delivery) (n : PlacardId) (pl : Placard)
    (h : c.board.placards[n] = some pl) (k : pl.hasWindow = false ∨ pl.liveAt c.clock.state now = pl.live) :
    evaluateWindow now (c, d) n = (c, d) := by
  simp only [evaluateWindow, h]
  refine if_neg ?_
  rcases k with k | k <;> simp [k]

/-! ## NEW_DAY (R24, R32) -/

/-- The panels that a NEW_DAY raises CONTENT on draw a list that held an entry (R24). -/
theorem raiseEmptied_eq (c : Content) (d : Delivery) : raiseEmptied c d =
    d.raiseWhere c.board .content (c.board.draws (fun pl => match pl.content with
      | .departures l _ _ _ _ => !c.lists[l].isEmpty
      | _ => false)) := by
  have named : (fun pl : Placard => (List.finRange 16).any (fun l => pl.namesList l && !c.lists[l].isEmpty)) =
      fun pl => match pl.content with
        | .departures l _ _ _ _ => !c.lists[l].isEmpty
        | _ => false := by
    funext pl
    unfold Placard.namesList
    cases pl.content with
    | departures l _ _ _ _ =>
      rw [Bool.eq_iff_iff, List.any_eq_true]
      simp only [Bool.and_eq_true, decide_eq_true_eq, List.mem_finRange, true_and]
      constructor
      · rintro ⟨m, rfl, k⟩
        exact k
      · exact fun k => ⟨l, rfl, k⟩
    | text | ticker | clock | glyph => simp
  unfold raiseEmptied
  rw [named]

theorem passList_nil (c : Content) (hyst : Bool) (l : ListId) (now : Nat) : passList c hyst l now [] = [] := rfl

/-- Settles O32: the windows by `liveAt_iff` and `windowed_eq`, the command by `newDay_eq`. -/
theorem newDayEmptiesListsAndSetsTheClock : Obligations.NewDayEmptiesListsAndSetsTheClock := by
  unfold Obligations.NewDayEmptiesListsAndSetsTheClock
  refine ⟨liveAt_iff, ?_, ?_⟩
  · intro now c d windowed
    refine ⟨?_, ?_⟩
    · unfold evaluateWindows
      rw [windowed_eq]
    · intro n pl h live b
      have window : windowed n = pl.hasWindow := by
        simp only [windowed, h]
        rfl
      refine ⟨fun has differs => ?_, fun same => ?_⟩
      · rw [evaluateWindow_transition now c d n pl h (window ▸ has) differs]
        rfl
      · exact evaluateWindow_same now c d n pl h (same.imp_left (fun k => window ▸ k))
  · intro p t s i k stands named w r take supervisor
    refine ⟨fun late => replies_of_supervised p i _ s _ _ _ rfl take supervisor (newDay_refused t _ _ late),
      fun inDay => ?_⟩
    have day : ¬ clockLimit < t := Nat.not_lt.2 inDay
    have raised : raiseEmptied s.content (s.taking p) =
        (s.taking p).raiseWhere s.content.board .content (s.content.board.draws named) :=
      (raiseEmptied_eq _ _).trans rfl
    have eq : newDay t s.content (s.taking p) = (r.1, r.2, okWith (b4 t ++ [stands.state.code])) := by
      simp only [newDay_eq t s.content (s.taking p) day, clockAt_state_limit, phaseOn_differs, raised]
      rfl
    obtain ⟨⟨lists, clock, settings⟩, rest⟩ := evaluateWindows_kept (t / 100)
      { s.content with lists := Vector.replicate 16 [], clock := stands }
      ((s.taking p).raiseWhere s.content.board .content (s.content.board.draws named))
    obtain ⟨clock', settings', rest'⟩ := followClock_kept false true true
      (decide (t % 100 < 50) != decide (k.value % 100 < 50)) (decide (t = 10799999)) w.1 w.2
    refine ⟨replies_of_supervised p i _ s _ _ _ rfl take supervisor eq, clock'.trans clock, fun l => ?_,
      settings'.trans settings, keepsRest_trans (b := w.1) (keepsRest_trans ?_ rest) rest'⟩
    · have emptied : r.1.lists = (afterSecond false w.1 w.2).1.lists := by
        simp only [r, followClock_content, if_true]
      rw [emptied, afterSecond_lists, Fin.getElem_fin, Vector.getElem_ofFn]
      change passList w.1 false _ _ w.1.lists[l] = []
      rw [show w.1.lists = _ from lists, Fin.getElem_fin, Vector.getElem_replicate]
      exact passList_nil ..
    · exact ⟨rfl, rfl, rfl, rfl, rfl, rfl, rfl, fun _ => rfl⟩

end Sys2Proof.Machine
end

section
/-! COUNT_INTERVAL: the checks of one entry by its state, the pass over a list, and what follows the clock. -/

namespace Sys2Proof.Machine

/-! ## The checks of one entry (R17, R18, R19) -/

theorem Entry.pass_planned (x : Settings) (l : ListId) (now : Nat) (e : Entry) (h : e.state = .planned) :
    e.pass x l now = if e.scheduled + x.overdue < now then (none, [.entryExpired l e.trip]) else (some e, []) := by
  have time : e.effective = e.scheduled := by simp only [Entry.effective, h, EntryState.prediction]
  by_cases late : e.scheduled + x.overdue < now <;>
    simp [Entry.pass, Entry.stale, Entry.expires, Entry.lingersOut, h, time, late]

/-- A stale prediction is gone before the overdue check, which takes the scheduled time (R17, R18). -/
theorem Entry.pass_stale (x : Settings) (l : ListId) (now : Nat) (e : Entry) (q : Prediction) (h : e.state = .tracked q)
    (stale : q.stamp + x.staleness < now) : e.pass x l now = if e.scheduled + x.overdue < now then
      (none, [.predictionStale l e.trip, .entryExpired l e.trip])
    else (some { e with state := .planned }, [.predictionStale l e.trip]) := by
  by_cases late : e.scheduled + x.overdue < now <;>
    simp [Entry.pass, Entry.stale, Entry.expires, Entry.lingersOut, Entry.effective, EntryState.prediction, h, stale, late]

theorem Entry.pass_fresh (x : Settings) (l : ListId) (now : Nat) (e : Entry) (q : Prediction) (h : e.state = .tracked q)
    (fresh : now ≤ q.stamp + x.staleness) : e.pass x l now =
      if q.time + x.overdue < now then (none, [.entryExpired l e.trip]) else (some e, []) := by
  have time : e.effective = q.time := by simp only [Entry.effective, h, EntryState.prediction]
  by_cases late : q.time + x.overdue < now <;>
    simp [Entry.pass, Entry.stale, Entry.expires, Entry.lingersOut, h, time, Nat.not_lt.2 fresh, late]

theorem Entry.pass_arrived (x : Settings) (l : ListId) (now : Nat) (e : Entry) (q : Option Prediction) (a : Nat)
    (h : e.state = .arrived q a) : e.pass x l now =
      if a + x.arrivalLinger < now then (none, [.entryExpired l e.trip]) else (some e, []) := by
  by_cases late : a + x.arrivalLinger < now <;>
    simp [Entry.pass, Entry.stale, Entry.expires, Entry.lingersOut, h, late]

theorem Entry.pass_cancelled (x : Settings) (l : ListId) (now : Nat) (e : Entry) (u : Nat) (h : e.state = .cancelled u) :
    e.pass x l now = if u < now then (none, []) else (some e, []) := by
  by_cases late : u < now <;> simp [Entry.pass, Entry.stale, Entry.expires, Entry.lingersOut, h, late]

/-! ## The pass over a list (R5, R16, R21, R22) -/

/-- The entries after the pass are those that remain, their figures recomputed (R16). -/
theorem mem_passList (c : Content) (hyst : Bool) (l : ListId) (now : Nat) (es : List Entry) (h : listOk es) (f : Entry) :
    f ∈ passList c hyst l now es ↔ ∃ e ∈ es, ∃ g, (e.pass c.settings l now).1 = some g ∧
      f = { g with figure := computeFigure c.clock c.settings hyst none (some e.figure) g } := by
  have recomputed : ∀ {e g : Entry}, (e.pass c.settings l now).1 = some g → c.refigure hyst none g =
      { g with figure := computeFigure c.clock c.settings hyst none (some e.figure) g } := fun k => by
    rw [Content.refigure, (Entry.pass_kept k).2]
  simp only [passList, List.mem_map, (passChecks_upTo c.settings l now es h).mem, List.not_mem_nil, or_false, mem_passed]
  constructor
  · rintro ⟨g, ⟨e, he, k⟩, rfl⟩
    exact ⟨e, he, g, k, recomputed k⟩
  · rintro ⟨e, he, g, k, rfl⟩
    exact ⟨g, ⟨e, he, k⟩, recomputed k⟩

/-- CONTENT is raised for a list in which an entry is removed or reordered (R21). -/
theorem passChecks_flag (x : Settings) (l : ListId) (now : Nat) (es : List Entry) (h : listOk es) :
    (passChecks x l now es).2 = true ↔ (∃ e ∈ es, (e.pass x l now).1 = none) ∨
      ∃ above e below g y, es = above ++ e :: below ∧ (e.pass x l now).1 = some g ∧
        ((∃ z ∈ above, (z.pass x l now).1 = some y) ∨ y ∈ below) ∧ e.before y ≠ g.before y := by
  rw [(passChecks_upTo x l now es h).flag, List.append_nil]
  simp only [Disturbed, mem_passed]
  refine or_congr_right ⟨?_, ?_⟩
  · rintro ⟨above, e, below, g, y, split, -, rest⟩
    exact ⟨above, e, below, g, y, split, rest⟩
  · rintro ⟨above, e, below, g, y, split, rest⟩
    exact ⟨above, e, below, g, y, split, by simp [split], rest⟩

/-- FIGURE is raised for a list in which the figure of an entry that remains differs from before (R22). -/
theorem figuresChanged_passList (c : Content) (hyst : Bool) (l : ListId) (now : Nat) (es : List Entry) (h : listOk es) :
    figuresChanged es (passList c hyst l now es) = true ↔ ∃ e ∈ es, ∃ g, (e.pass c.settings l now).1 = some g ∧
      computeFigure c.clock c.settings hyst none (some e.figure) g ≠ e.figure := by
  have before : ∀ {e g : Entry}, e ∈ es → (e.pass c.settings l now).1 = some g → findTrip g.trip es = some e :=
    fun he k => by rw [(Entry.pass_kept k).1]; exact h.findTrip_mem he
  simp only [figuresChanged, List.any_eq_true, mem_passList c hyst l now es h, decide_eq_true_eq]
  constructor
  · rintro ⟨f, ⟨e, he, g, k, rfl⟩, differs⟩
    rw [before he k] at differs
    exact ⟨e, he, g, k, fun same => differs (congrArg some same.symm)⟩
  · rintro ⟨e, he, g, k, differs⟩
    refine ⟨_, ⟨e, he, g, k, rfl⟩, fun same => differs ?_⟩
    rw [before he k] at same
    exact (Option.some.inj same).symm

/-! ## The command -/

/-- A count interval raises what the clock's change calls for (R27, R34 to R36). -/
theorem countClock_follows {c : Content} {k' : Clock} {limit : Bool} (d : Delivery) (h : c.clock.CountsTo k' limit) :
    countClock c d = followClock true (decide (k'.value / 100 ≠ c.clock.value / 100))
      (decide (k'.value / 100 / 60 ≠ c.clock.value / 100 / 60))
      (decide (k'.value % 100 < 50) != decide (c.clock.value % 100 < 50)) limit { c with clock := k' } d := by
  obtain ⟨rfl, rfl⟩ := h
  rw [countClock_eq, phaseOn_differs]
  rfl

/-- A clock that stands calls for nothing. -/
theorem countClock_stands {c : Content} (d : Delivery) (h : c.clock.state = .unset ∨ c.clock.state = .limit) :
    countClock c d = (c, d) := by
  rw [countClock_follows d (Clock.stands h)]
  simp [followClock]

/-- Settles O33: the checks of an entry state by state, the pass over a list by `passChecks_upTo`, the clock state by
state. -/
theorem countIntervalAdvancesTheClock : Obligations.CountIntervalAdvancesTheClock := by
  unfold Obligations.CountIntervalAdvancesTheClock
  refine ⟨fun x l now e => ?_, fun c hyst l now es ok => ?_, fun s => ?_⟩
  · intro stale expired
    refine ⟨fun h => ?_, fun q h => ⟨fun old late => ?_, fun old inTime => ?_, fun fresh late => ?_, fun fresh inTime => ?_⟩,
      fun q a h => ?_, fun u h => ?_⟩
    · rw [Entry.pass_planned x l now e h]
      exact ⟨fun late => if_pos late, fun inTime => if_neg (Nat.not_lt.2 inTime)⟩
    · exact (Entry.pass_stale x l now e q h old).trans (if_pos late)
    · exact (Entry.pass_stale x l now e q h old).trans (if_neg (Nat.not_lt.2 inTime))
    · exact (Entry.pass_fresh x l now e q h fresh).trans (if_pos late)
    · exact (Entry.pass_fresh x l now e q h fresh).trans (if_neg (Nat.not_lt.2 inTime))
    · rw [Entry.pass_arrived x l now e q a h]
      exact ⟨fun late => if_pos late, fun inTime => if_neg (Nat.not_lt.2 inTime)⟩
    · rw [Entry.pass_cancelled x l now e u h]
      exact ⟨fun late => if_pos late, fun inTime => if_neg (Nat.not_lt.2 inTime)⟩
  · exact ⟨(listOk_passList c hyst l now es ok).ordered, mem_passList c hyst l now es ok,
      passChecks_flag c.settings l now es ok, figuresChanged_passList c hyst l now es ok⟩
  · obtain ⟨c, d, eq⟩ : ∃ c d, countClock s.content (s.delivery.reach s.nextCount) = (c, d) := ⟨_, _, rfl⟩
    have kept := followClock_kept true (decide (s.content.clock.count.second ≠ s.content.clock.second))
      (decide (s.content.clock.count.second / 60 ≠ s.content.clock.second / 60))
      (decide (s.content.clock.count.phaseOn ≠ s.content.clock.phaseOn))
      (s.content.clock.entersLimit s.content.clock.advance) { s.content with clock := s.content.clock.count }
      (s.delivery.reach s.nextCount)
    have time := followClock_now true (decide (s.content.clock.count.second ≠ s.content.clock.second))
      (decide (s.content.clock.count.second / 60 ≠ s.content.clock.second / 60))
      (decide (s.content.clock.count.phaseOn ≠ s.content.clock.phaseOn))
      (s.content.clock.entersLimit s.content.clock.advance) { s.content with clock := s.content.clock.count }
      (s.delivery.reach s.nextCount)
    rw [← countClock_eq, eq] at kept time
    obtain ⟨clock, settings, rest⟩ := kept
    refine ⟨c, d, ?_, time, settings, keepsRest_trans (b := { s.content with clock := s.content.clock.count })
      ⟨rfl, rfl, rfl, rfl, rfl, rfl, rfl, fun _ => rfl⟩ rest, ?_⟩
    · change contentEvent (fun c d => countClock c (d.reach s.nextCount)) { s with nextCount := s.nextCount + 10 } = _
      simp only [contentEvent, eq]
    · intro k becomes
      have counted : ∀ {k' : Clock} {limit : Bool}, k.CountsTo k' limit → becomes k' limit := fun h =>
        ⟨clock.trans h.1, eq.symm.trans (countClock_follows _ h)⟩
      refine ⟨fun h => ?_, fun h below => counted (Clock.counts_running h below),
        fun h last => counted (Clock.counts_running_limit h last),
        fun h gains below => counted (Clock.counts_gaining h gains below),
        fun h gains below last => counted (Clock.counts_gaining_limit h gains below last),
        fun h loses => counted (Clock.counts_losing h loses),
        fun h loses before => counted (Clock.counts_lost h loses before),
        fun h loses last => counted (Clock.counts_lost_limit h loses last)⟩
      exact Prod.mk.inj (eq.symm.trans (countClock_stands _ h))

end Sys2Proof.Machine
end

section
/-! SETTINGS: what the pairs store, and the figures recomputed. -/

namespace Sys2Proof.Machine

/-! ## The pairs (R23, R41, R190) -/

/-- What a pair stores: its value clamped to the range of its parameter. -/
def clampedValue (q : Nat × Nat) : Nat := max (settingRange q.1).1 (min (settingRange q.1).2 q.2)

theorem store_unknown (code v : Nat) (x : Settings) (h : 6 ≤ code) : x.store code v = none := by
  obtain ⟨k, rfl⟩ := Nat.exists_eq_add_of_le' h
  rfl

/-- A pair stored: its own parameter takes the clamped value, the others stand. -/
theorem store_known (code v : Nat) (x : Settings) (h : code < 6) : ∃ y, x.store code v = some (y, clampedValue (code, v)) ∧
    ∀ k < 6, settingOf y k = if code = k then clampedValue (code, v) else settingOf x k := by
  interval_cases code <;> refine ⟨_, rfl, fun k hk => ?_⟩ <;> interval_cases k <;> rfl

/-- An unknown code refuses the whole request. -/
theorem storeAll_unknown : ∀ (pairs : List (Nat × Nat)) (x : Settings), (∃ q ∈ pairs, 6 ≤ q.1) → x.storeAll pairs = none
  | [], _, h => by simp at h
  | (code, v) :: rest, x, h => by
    unfold Settings.storeAll
    by_cases known : code < 6
    · obtain ⟨y, one, -⟩ := store_known code v x known
      have more : ∃ q ∈ rest, 6 ≤ q.1 := by
        obtain ⟨q, hq, bad⟩ := h
        rcases List.mem_cons.1 hq with rfl | hq
        · exact absurd known (by simpa using bad)
        · exact ⟨q, hq, bad⟩
      simp only [one, storeAll_unknown rest y more]
    · simp only [store_unknown code v x (Nat.not_lt.1 known)]

/-- The pairs stored in order: each parameter takes the last value given for it. -/
theorem storeAll_known : ∀ (pairs : List (Nat × Nat)) (x : Settings), (∀ q ∈ pairs, q.1 < 6) →
    ∃ y, x.storeAll pairs = some (y, pairs.map (fun q => (q.1, clampedValue q))) ∧
      ∀ k < 6, settingOf y k = match pairs.reverse.find? (fun q => decide (q.1 = k)) with
        | none => settingOf x k
        | some q => clampedValue (k, q.2)
  | [], x, _ => ⟨x, rfl, fun _ _ => rfl⟩
  | (code, v) :: rest, x, h => by
    obtain ⟨y, one, stored⟩ := store_known code v x (h _ List.mem_cons_self)
    obtain ⟨z, all, last⟩ := storeAll_known rest y (fun q hq => h q (List.mem_cons_of_mem _ hq))
    refine ⟨z, by simp only [Settings.storeAll, one, all, List.map_cons], fun k hk => ?_⟩
    rw [last k hk, List.reverse_cons, List.find?_append]
    cases rest.reverse.find? (fun q => decide (q.1 = k)) with
    | some q => rfl
    | none =>
      rw [stored k hk]
      by_cases mine : code = k <;> simp [mine]

/-! ## The figures (R22, R37, R41) -/

/-- A walk that does something only where a test says is a walk over what passes the test. -/
theorem foldl_if_filter {α β : Type} (test : α → Bool) (f : β → α → β) : ∀ (l : List α) (b : β),
    l.foldl (fun b a => if test a then f b a else b) b = (l.filter test).foldl f b
  | [], _ => rfl
  | a :: l, b => by
    rw [List.foldl_cons, List.filter_cons, foldl_if_filter test f l]
    cases test a <;> rfl

/-- Every figure recomputed without hysteresis, and FIGURE raised for each list in which one changed (R41). -/
theorem refigureAll_eq (c : Content) (d : Delivery) :
    let refigured (l : ListId) : List Entry := (c.lists[l]).map (c.refigure false none)
    refigureAll c d = ({ c with lists := Vector.ofFn refigured },
      ((List.finRange 16).filter (fun l => decide (refigured l ≠ c.lists[l]))).foldl
        (fun d l => raiseList c.board .figure l d) d) := by
  intro refigured
  have walk := foldl_allLists c refigureList (fun _ es => es.map (c.refigure false none))
    (fun l es d => if decide (es.map (c.refigure false none) ≠ es) then raiseList c.board .figure l d else d)
    (fun v d l => by
      rw [refigureList_eq]
      simp only [decide_eq_true_eq]
      rfl) d
  rw [refigureAll, walk]
  exact congrArg (Prod.mk _) (foldl_if_filter _ (fun d l => raiseList c.board .figure l d) (List.finRange 16) d)

/-! ## The request -/

theorem changeSettings_refused (pairs : List (Nat × Nat)) (c : Content) (d : Delivery)
    (h : 16 < pairs.length ∨ c.settings.storeAll pairs = none) :
    changeSettings pairs c d = (c, d, refuse .badValue) := by
  unfold changeSettings
  by_cases long : 16 < pairs.length
  · rw [if_pos long]
  · rw [if_neg long, h.resolve_left long]

/-- The body of the response to a SETTINGS: the values in force, or for each pair what it stored (R190). -/
def settingsBody (pairs : List (Nat × Nat)) (x : Settings) : List Byte :=
  if pairs = [] then x.bytes else b1 pairs.length ++ pairs.flatMap (fun q => b1 q.1 ++ b2 (clampedValue q))

theorem changeSettings_stored (pairs : List (Nat × Nat)) (c : Content) (d : Delivery) (x : Settings)
    (short : pairs.length ≤ 16)
    (h : c.settings.storeAll pairs = some (x, pairs.map (fun q => (q.1, clampedValue q)))) : changeSettings pairs c d =
      if x.horizon = c.settings.horizon ∧ x.threshold = c.settings.threshold then
        ({ c with settings := x }, d, okWith (settingsBody pairs x))
      else ((refigureAll { c with settings := x } d).1, (refigureAll { c with settings := x } d).2,
        okWith (settingsBody pairs x)) := by
  have body : (if pairs.isEmpty then okWith x.bytes else
      okWith (b1 (pairs.map (fun q => (q.1, clampedValue q))).length ++
        (pairs.map (fun q => (q.1, clampedValue q))).flatMap (fun q => b1 q.1 ++ b2 q.2))) =
      okWith (settingsBody pairs x) := by
    unfold settingsBody
    cases pairs with
    | nil => rfl
    | cons q rest => simp [List.flatMap_map]
  simp only [changeSettings, if_neg (Nat.not_lt.2 short), h, body]

/-- Settles O34: the pairs by `storeAll_known`, the figures by `refigureAll_eq`. -/
theorem settingsClampAndStoreInOrder : Obligations.SettingsClampAndStoreInOrder := by
  unfold Obligations.SettingsClampAndStoreInOrder
  intro p pairs s i take supervisor
  refine ⟨fun bad => ?_, fun short known => ?_⟩
  · exact replies_of_supervised p i _ s _ _ _ rfl take supervisor
      (changeSettings_refused pairs _ _ (bad.imp_right (storeAll_unknown pairs _)))
  · obtain ⟨x, all, values⟩ := storeAll_known pairs s.content.settings known
    refine ⟨x, fun code hc => (values code hc).trans rfl, ?_⟩
    intro body refigured changed
    have eq := changeSettings_stored pairs s.content (s.taking p) x short all
    refine ⟨fun horizon threshold => ?_, fun differs => ?_⟩
    · exact replies_of_supervised p i _ s _ _ _ rfl take supervisor (eq.trans (if_pos ⟨horizon, threshold⟩))
    · refine replies_of_supervised p i _ s _ _ _ rfl take supervisor
        ((eq.trans (if_neg (not_and_or.2 differs))).trans ?_)
      rw [refigureAll_eq]
      rfl

end Sys2Proof.Machine
end

section
/-! The interest of a panel, a raised cause, HOLDOFF_END and REFRESH_DEADLINE. -/

namespace Sys2Proof.Machine

theorem Placard.namesList_iff (l : ListId) (pl : Placard) :
    pl.namesList l = true ↔ ∃ i k f g, pl.content = .departures l i k f g := by
  unfold Placard.namesList
  cases pl.content <;> simp

theorem Cause.filtered_iff (cause : Cause) : cause.filtered = true ↔
    cause = .figure ∨ cause = .clock ∨ cause = .blink ∨ cause = .scroll := by
  cases cause <;> simp [Cause.filtered]

/-- A panel that takes a cause into its wake set, PARKED turning READY (R85). -/
def Panel.woken (cause : Cause) (q : Panel) : Panel :=
  { q with wake := q.wake.insert cause, state := if q.state = .parked then .ready else q.state }

/-- A cause that the panel does not drop (R85): it joins the wake set, and URGENT is a drop-out as well (R176). -/
theorem raise_passes (b : Board) (cause : Cause) (d : Delivery) (m : PanelId) (q : Panel) (h : d.works.panels[m] = some q)
    (k : cause.filtered = false ∨ q.interest.has cause = true) : d.raise b cause m =
      if cause = .urgent then (d.mapWorks (Works.setPanel m (q.woken cause))).dropOut b m
      else d.mapWorks (Works.setPanel m (q.woken cause)) := by
  simp only [Delivery.raise, h, gain_passes cause q k]
  rfl

/-- A plain cause that no interest filters, raised on a panel as it has just been written. -/
theorem raise_onto (b : Board) (cause : Cause) (d : Delivery) (m : PanelId) (q : Panel)
    (plain : cause ≠ .urgent) (free : cause.filtered = false) (h : d.works.panels[m] = some q) :
    d.raise b cause m = d.mapWorks (Works.setPanel m (q.woken cause)) := by
  rw [raise_passes b cause d m q h (.inl free)]
  exact if_neg plain

theorem setPanel_setPanel (w : Works) (m : PanelId) (q r : Panel) : (w.setPanel m q).setPanel m r = w.setPanel m r := by
  simp only [Works.setPanel, Vector.set_set]

/-- HOLDOFF_END (R92). -/
theorem endHoldoff_eq (n : PanelId) (q : Panel) (t : Nat) (c : Content) (d : Delivery)
    (h : d.works.panels[n] = some q) (k : q.holdoff = some t) : endHoldoff n c d =
      (d.reach t).mapWorks (Works.setPanel n (Panel.woken .retry { q with holdoff := none })) := by
  simp only [endHoldoff, h, k]
  rw [raise_onto c.board .retry _ n { q with holdoff := none } (by decide) rfl (set_getFin_self _ _ _)]
  simp only [Delivery.mapWorks, setPanel_setPanel]

/-- REFRESH_DEADLINE (R88, R108). -/
theorem reachRefresh_eq (n : PanelId) (q : Panel) (t : Nat) (c : Content) (d : Delivery)
    (h : d.works.panels[n] = some q) (k : q.refreshDeadline = some t) :
    let due : Panel := { q with refreshDeadline := none, fullDemand := true }
    reachRefresh n c d =
      ((d.reach t).mapWorks (Works.putPanel n due)).mapWorks (Works.setPanel n (due.woken .refresh)) := by
  intro due
  simp only [reachRefresh, h, k]
  exact raise_onto c.board .refresh _ n due (by decide) rfl (set_getFin_self _ _ _)

/-- A lane's copy of the context of a panel, as the record has just become (R108). -/
theorem Lane.syncContext_eq (n : PanelId) (q : Panel) (k : Lane) : k.syncContext n q =
    { k with context := k.context.map (fun x => if x.panel = n then { x with ack := q.ack, fullDemand := q.fullDemand }
      else x) } := by
  obtain ⟨_, _, _, context, _, _, _, _, _, _⟩ := k
  cases context with
  | none => rfl
  | some x =>
    simp only [Lane.syncContext, Option.map_some]
    split <;> rfl

/-- Settles O46: interest and drawing by `interest_has` and `draws_iff`, the raised cause by whether the panel drops it. -/
theorem holdoffAndRefreshDeadlinesRaiseTheirCauses : Obligations.HoldoffAndRefreshDeadlinesRaiseTheirCauses := by
  unfold Obligations.HoldoffAndRefreshDeadlinesRaiseTheirCauses
  intro drawnOn
  have draws : ∀ (b : Board) (test : Placard → Bool) (q : Panel), b.draws test q = true ↔
      ∃ (n : PlacardId) (pl : Placard), b.placards[n] = some pl ∧ test pl = true ∧ drawnOn q pl := fun b test q => by
    simp only [draws_iff, drawnOn_iff, drawnOn]
  refine ⟨fun b q cause => ?_, fun b test w => ?_, draws, fun b cause d m => ?_,
    fun b cause d => ⟨fun test => ?_, fun l => ?_⟩, fun n q t s => ?_⟩
  · simp only [interest_has, drawnOn_iff, drawnOn]
  · refine ⟨_, rfl, fun m => ?_⟩
    rw [mapTable_getFin]
    rfl
  · intro filtered
    refine ⟨fun absent => by simp only [Delivery.raise, absent], fun q present => ?_⟩
    have filter : filtered ↔ cause.filtered = true := (Cause.filtered_iff cause).symm
    refine ⟨fun f silent => raise_filtered b cause d m q present (filter.1 f) silent, fun passes => ?_⟩
    have free : cause.filtered = false ∨ q.interest.has cause = true :=
      passes.imp_left (fun f => Bool.eq_false_iff.2 (fun k => f (filter.2 k)))
    have raised := raise_passes b cause d m q present free
    exact ⟨q.wake.insert cause, insert_has q.wake cause, fun plain => raised.trans (if_neg plain),
      fun urgent => raised.trans (if_pos urgent)⟩
  · rw [Delivery.raiseWhere, panelList_map_filter]
  · refine ⟨b.draws (Placard.namesList l), rfl, fun q => ?_⟩
    rw [draws]
    refine exists_congr fun n => exists_congr fun pl => and_congr_right fun _ => ?_
    rw [Placard.namesList_iff, and_comm]
  · intro w woken present
    refine ⟨fun holdoff => ?_, fun deadline => ?_⟩
    · have eq := endHoldoff_eq n q t s.content s.delivery present holdoff
      change event (endHoldoff n) s = _
      rw [event, eq]
      rfl
    · have eq := reachRefresh_eq n q t s.content s.delivery present deadline
      have copies : Lane.syncContext n { q with refreshDeadline := none, fullDemand := true } = fun k : Lane =>
          { k with context := k.context.map (fun x =>
            if x.panel = n then { x with ack := q.ack, fullDemand := true } else x) } :=
        funext (Lane.syncContext_eq n _)
      change event (reachRefresh n) s = _
      rw [event, eq]
      simp only [Delivery.mapWorks, Delivery.reach, Works.setPanel, Works.putPanel, Vector.set_set, copies]
      rfl

end Sys2Proof.Machine
end

section
/-! The nine reads, and the state after reset. -/

namespace Sys2Proof.Machine

/-! ## Counting a table (R189) -/

theorem count_table {α : Type} {n : Nat} (v : Vector α n) (test : α → Bool) :
    (v.toList.filter test).length = ((List.finRange n).filter (fun i => test v[i])).length := by
  have records : v.toList = (List.finRange n).map (fun i => v[i]) := by
    apply List.ext_getElem
    · simp
    · intro i h1 h2
      simp
  rw [records, List.filter_map, List.length_map]
  rfl

/-- The records of a list whose key is a given one. -/
def countKey {α κ : Type} [DecidableEq κ] (key : α → κ) (l : List α) (k : κ) : Nat :=
  (l.filter (fun a => decide (key a = k))).length

theorem countKey_cons {α κ : Type} [DecidableEq κ] (key : α → κ) (a : α) (l : List α) (k : κ) :
    countKey key (a :: l) k = countKey key l k + if key a = k then 1 else 0 := by
  unfold countKey
  rw [List.filter_cons]
  by_cases h : key a = k <;> simp [h]

/-- Every panel record is UNDEFINED or in one of six states. -/
theorem countKey_panelState {α : Type} (key : α → Option PanelState) : ∀ l : List α,
    countKey key l none + countKey key l (some .offline) + countKey key l (some .parked) + countKey key l (some .ready) +
      countKey key l (some .loaded) + countKey key l (some .sending) + countKey key l (some .isolated) = l.length
  | [] => rfl
  | a :: l => by
    have ih := countKey_panelState key l
    simp only [countKey_cons, List.length_cons]
    rcases key a with _ | state
    · simp
      omega
    · cases state <;> simp <;> omega

/-- Every lane is in one of five states. -/
theorem countKey_laneState {α : Type} (key : α → LaneState) : ∀ l : List α,
    countKey key l .free + countKey key l .resident + countKey key l .loading + countKey key l .working +
      countKey key l .claimed = l.length
  | [] => rfl
  | a :: l => by
    have ih := countKey_laneState key l
    simp only [countKey_cons, List.length_cons]
    cases key a <;> simp <;> omega

/-! ## The reads -/

/-- A query that is taken answers with the body given, and changes its port's queues alone. -/
theorem query_answers {p : PortId} {i : Instr} {f : Content → Delivery → Reply} {s : State} {body : List Byte}
    (eq : exec i s = query p i f s) (k : f s.content (s.taking p) = okWith body) (take : s.canTake p i) :
    exec i s = .next { s with delivery := (s.taking p).mapPort p (Port.finishRequest i (okWith body)) } := by
  rw [eq, query_taken p i f s take, k]

/-- A query for a number out of range. -/
theorem query_refuses {p : PortId} {i : Instr} {f : Content → Delivery → Reply} {s : State}
    (eq : exec i s = query p i f s) (k : f s.content (s.taking p) = refuse .badValue) (take : s.canTake p i) :
    Refuses p i .badValue s :=
  replies_of_request p i (fun c d => (c, d, f c d)) s _ _ _ eq take (by rw [k])

theorem readList_val (l : ListId) (c : Content) :
    readList l.val c = okWith (b1 (c.lists[l]).length ++ (c.lists[l]).flatMap entryBody) := by
  simp only [readList, index?_val, funext Entry.bytes_eq]

theorem readPlacard_free (n : PlacardId) (b : Board) (h : b.placards[n] = none) :
    readPlacard n.val b = okWith ([0] ++ b4 b.generation) := by
  simp only [readPlacard, index?_val, h]

theorem readPlacard_used (n : PlacardId) (b : Board) (pl : Placard) (h : b.placards[n] = some pl) :
    readPlacard n.val b = okWith (b4 b.generation ++ placardBody n pl) := by
  simp only [readPlacard, index?_val, h, Placard.bytes_eq]

theorem readHold_val (h : HoldId) (c : Content) (now : Nat) : readHold h.val c now = okWith (holdBody now c.holds[h]) := by
  simp only [readHold, index?_val, Hold.bytes_eq]

theorem readPanel_undefined (n : PanelId) (w : Works) (h : w.panels[n] = none) : readPanel n.val w = okWith [0] := by
  simp only [readPanel, index?_val, h]

theorem readPanel_defined (n : PanelId) (w : Works) (q : Panel) (h : w.panels[n] = some q) : readPanel n.val w =
    okWith (panelBody w.now (if q.state = .loaded then w.lanesServing n else []) q) := by
  simp only [readPanel, index?_val, h, Panel.bytes_eq]

theorem readTicker_val (t : TickerId) (c : Content) (now : Nat) :
    readTicker t.val c now = okWith (tickerBody now c.tickers[t]) := by
  simp only [readTicker, index?_val, Ticker.bytes_eq]

theorem readLink_val (l : LinkId) (w : Works) :
    readLink l.val w = okWith (linkBody w.now (bitRate (w.links[l]).divider) w.links[l]) := by
  simp only [readLink, index?_val, Link.bytes_eq]

theorem readGroup_val (g : GroupId) (d : Delivery) :
    readGroup g.val d = okWith (groupBody d.works.now d.groups[g]) := by
  simp only [readGroup, index?_val, Group.bytes_eq]

/-- PART_STATUS counts the panels, the lanes and the FREE placards by their numbers (R189). -/
theorem partStatus_eq (c : Content) (d : Delivery) :
    let panels := countKey (fun n : PanelId => (d.works.panels[n]).map (fun q => q.state)) (List.finRange 64)
    let lanes := countKey (fun n : LaneId => (d.works.lanes[n]).state) (List.finRange 8)
    partStatus c d = okWith (b1 (panels none) ++ b1 (panels (some .offline)) ++ b1 (panels (some .parked)) ++
      b1 (panels (some .ready)) ++ b1 (panels (some .loaded)) ++ b1 (panels (some .sending)) ++
      b1 (panels (some .isolated)) ++ b1 (lanes .free) ++ b1 (lanes .resident) ++ b1 (lanes .loading) ++
      b1 (lanes .working) ++ b1 (lanes .claimed) ++
      b1 ((List.finRange 192).filter (fun n => (c.board.placards[n]).isNone)).length ++
      b2 (1024 - c.board.cellsUsed)) := by
  intro panels lanes
  have panel : ∀ st, d.works.countPanels st = panels st := fun st =>
    count_table d.works.panels (fun q => decide (q.map (fun q => q.state) = st))
  have lane : ∀ st, d.works.countLanes st = lanes st := fun st =>
    count_table d.works.lanes (fun k => decide (k.state = st))
  have free : c.board.countFree = ((List.finRange 192).filter (fun n => (c.board.placards[n]).isNone)).length :=
    count_table c.board.placards Option.isNone
  simp only [partStatus, panel, lane, free, List.flatMap_cons, List.flatMap_nil, List.append_assoc, List.append_nil]

/-- Settles O24: read by read, the body by its field-by-field lemma. -/
theorem readsReturnTheStateAndChangeNothing : Obligations.ReadsReturnTheStateAndChangeNothing := by
  unfold Obligations.ReadsReturnTheStateAndChangeNothing
  intro p s c w reads
  refine ⟨fun l => ?_, ?_, fun n => ⟨fun free => ?_, fun pl used => ?_⟩, fun h => ?_,
    fun n => ⟨fun undefined => ?_, fun q defined => ?_⟩, fun t => ?_, fun l => ?_, fun g => ?_, ?_, fun v => ?_⟩
  · exact query_answers (f := fun c _ => readList l.val c) rfl (readList_val l c)
  · exact query_answers (f := fun c _ => readClock c.clock) rfl rfl
  · exact query_answers (f := fun c _ => readPlacard n.val c.board) rfl (readPlacard_free n c.board free)
  · exact query_answers (f := fun c _ => readPlacard n.val c.board) rfl (readPlacard_used n c.board pl used)
  · exact query_answers (f := fun c d => readHold h.val c d.works.now) rfl (readHold_val h c w.now)
  · exact query_answers (f := fun _ d => readPanel n.val d.works) rfl (readPanel_undefined n w undefined)
  · exact query_answers (f := fun _ d => readPanel n.val d.works) rfl (readPanel_defined n w q defined)
  · exact query_answers (f := fun c d => readTicker t.val c d.works.now) rfl (readTicker_val t c w.now)
  · exact ⟨bitRate (w.links[l]).divider, bitRate_rounded _,
      query_answers (f := fun _ d => readLink l.val d.works) rfl (readLink_val l w)⟩
  · exact query_answers (f := fun _ d => readGroup g.val d) rfl (readGroup_val g (s.taking p))
  · intro panels lanes freePlacards
    have panel : panels = countKey (fun n : PanelId => (w.panels[n]).map (fun q => q.state)) (List.finRange 64) := rfl
    have lane : lanes = countKey (fun n : LaneId => (w.lanes[n]).state) (List.finRange 8) := rfl
    rw [panel, lane]
    refine ⟨query_answers (f := partStatus) rfl (partStatus_eq c (s.taking p)), ?_, ?_⟩
    · rw [countKey_panelState, List.length_finRange]
    · rw [countKey_laneState, List.length_finRange]
  · intro bad
    refine ⟨fun high => ?_, fun high => ?_, fun high => ?_, fun high => ?_, fun high => ⟨?_, ?_, ?_⟩⟩
    · exact query_refuses (f := fun c _ => readList v c) rfl (by simp only [readList, index?_of_le high])
    · exact query_refuses (f := fun c _ => readPlacard v c.board) rfl (by simp only [readPlacard, index?_of_le high])
    · exact query_refuses (f := fun c d => readHold v c d.works.now) rfl (by simp only [readHold, index?_of_le high])
    · exact query_refuses (f := fun _ d => readPanel v d.works) rfl (by simp only [readPanel, index?_of_le high])
    · exact query_refuses (f := fun c d => readTicker v c d.works.now) rfl (by simp only [readTicker, index?_of_le high])
    · exact query_refuses (f := fun _ d => readLink v d.works) rfl (by simp only [readLink, index?_of_le high])
    · exact query_refuses (f := fun _ d => readGroup v d) rfl (by simp only [readGroup, index?_of_le high])

/-! ## After reset -/

/-- A record of a table whose records are all alike. -/
theorem replicate_getFin {α : Type} {n : Nat} (a : α) (i : Fin n) : (Vector.replicate n a)[i] = a :=
  Vector.getElem_replicate i.isLt

theorem portOk_reset (r : Rank) : portOk (Port.reset r) := by
  refine ⟨Nat.zero_le 8, Nat.zero_le 8, rfl, fun h => absurd rfl h, fun k x h => ?_⟩
  rw [Port.reset, replicate_getFin] at h
  cases h

theorem ports_reset (rk0 rk1 rk2 rk3 : Bool) (p : PortId) : ∃ r, (Delivery.reset rk0 rk1 rk2 rk3).ports[p] = Port.reset r := by
  fin_cases p <;> exact ⟨_, rfl⟩

theorem present_replicate_none (order : List PlacardId) (cells generation : Nat) :
    (⟨Vector.replicate 192 none, order, cells, generation⟩ : Board).present = [] := by
  refine List.eq_nil_iff_forall_not_mem.2 (fun pl h => ?_)
  obtain ⟨n, e⟩ := (mem_present _ pl).1 h
  rw [replicate_getFin] at e
  cases e

theorem orderOk_reset : orderOk Board.reset := by
  refine ⟨List.nodup_nil, fun n => ?_, List.Pairwise.nil⟩
  rw [Board.reset, replicate_getFin]
  simp

theorem cellsOk_reset : cellsOk Board.reset := by
  refine ⟨?_, Nat.zero_le _⟩
  rw [Board.reset, present_replicate_none]
  rfl

theorem panelsOk_reset : panelsOk Works.reset := by
  have undefined : ∀ p : PanelId, Works.reset.panels[p] = none := fun p => replicate_getFin none p
  refine ⟨fun p q a b h => ?_, fun p a h => ?_⟩ <;>
    · rw [undefined] at h
      cases h

theorem groupsOk_reset : groupsOk (Vector.replicate 8 Group.reset) := by
  refine ⟨fun g h p m => ?_, fun g => ?_⟩
  · rw [replicate_getFin] at m
    cases m
  · rw [replicate_getFin]
    exact ⟨by decide, List.Pairwise.nil, by decide, by decide, fun x h => by cases h⟩

theorem tickerOk_reset : tickerOk Ticker.reset := by
  unfold tickerOk
  decide

theorem fontOk_reset : fontOk Font.reset := by
  refine ⟨.inl rfl, Nat.zero_le _, List.Pairwise.nil, fun x h => ?_⟩
  cases h

/-- Settles O4: block by block. -/
theorem resetStateIsSafe : Obligations.ResetStateIsSafe := by
  unfold Obligations.ResetStateIsSafe
  refine ⟨listsOk_of_empty rfl, ⟨rfl, rfl⟩, settingsOk_reset, orderOk_reset, cellsOk_reset, fun h => ?_, fun f => ?_,
    fun t => ?_, fun p => ?_, panelsOk_reset, groupsOk_reset, fun l => ?_⟩
  · change holdOk (Vector.replicate 32 Hold.reset)[h]
    rw [replicate_getFin]
    exact ⟨List.nodup_nil, rfl⟩
  · change fontOk (Vector.replicate 4 Font.reset)[f]
    rw [replicate_getFin]
    exact fontOk_reset
  · change tickerOk (Vector.replicate 8 Ticker.reset)[t]
    rw [replicate_getFin]
    exact tickerOk_reset
  · obtain ⟨r, e⟩ := ports_reset true false false false p
    change portOk (Delivery.reset true false false false).ports[p]
    rw [e]
    exact portOk_reset r
  · change (Vector.replicate 8 Link.reset)[l].fifo.length ≤ 1024
    rw [replicate_getFin]
    exact Nat.zero_le _

end Sys2Proof.Machine
end

section
/-! The figure of an entry stage by stage, and the clock form. -/

namespace Sys2Proof.Machine

/-! ## The rise that is held back (R39) -/

/-- The previous figure is one minute short of `m`; DUE isSet as 0 minutes, the other kinds hold nothing back. -/
theorem oneMinuteShort_iff (old : Option Figure) (m : Nat) : (old.bind Figure.minutes?).map (· + 1) = some m ↔
    (old = some .due ∧ m = 1) ∨ ∃ n, old = some (.minutes n) ∧ m = n + 1 := by
  cases old with
  | none => simp
  | some f => cases f <;> simp [Figure.minutes?, eq_comm]

theorem holdsRise_iff (set : Settings) (hyst : Bool) (delta : Option Int) (old : Option Figure) (m : Nat) :
    holdsRise set hyst delta old m = true ↔ hyst = true ∧ (∀ v, delta = some v → v < set.threshold) ∧
      ((old = some .due ∧ m = 1) ∨ ∃ n, old = some (.minutes n) ∧ m = n + 1) := by
  simp only [holdsRise, Bool.and_eq_true, decide_eq_true_eq, oneMinuteShort_iff, and_assoc]
  cases delta <;> simp [and_comm]

/-! ## The stages (R38) -/

theorem Entry.planned_or_tracked {e : Entry} (rank : e.rank = 1) (runs : ∀ t, e.state ≠ .cancelled t) :
    e.state = .planned ∨ ∃ q, e.state = .tracked q := by
  unfold Entry.rank at rank
  cases h : e.state with
  | planned => exact .inl rfl
  | tracked q => exact .inr ⟨q, rfl⟩
  | arrived q a =>
    rw [h] at rank
    cases rank
  | cancelled t => exact absurd h (runs t)

section
variable (k : Clock) (set : Settings) (hyst : Bool) (delta : Option Int) (old : Option Figure) {e : Entry}

/-- Stage 1, the trip that does not run. -/
theorem computeFigure_cancelled {t : Nat} (h : e.state = .cancelled t) :
    computeFigure k set hyst delta old e = .cancelled := by
  simp only [computeFigure, h]

/-- Stage 1, the train at the platform. -/
theorem computeFigure_arrived {q : Option Prediction} {a : Nat} (h : e.state = .arrived q a) :
    computeFigure k set hyst delta old e = .atPlatform := by
  simp only [computeFigure, h]

/-- Stages 2 and 5. -/
theorem computeFigure_far (h : e.state = .planned ∨ ∃ q, e.state = .tracked q)
    (far : k.state = .unset ∨ set.horizon < rawMinutes e.effective k.second) :
    computeFigure k set hyst delta old e = clockFigure e.effective := by
  have beyond : k.state ≠ .unset → set.horizon < rawMinutes e.effective k.second := far.resolve_left
  by_cases unset : k.state = .unset
  · rcases h with h | ⟨q, h⟩ <;> simp only [computeFigure, h, if_pos unset]
  · rcases h with h | ⟨q, h⟩ <;> simp only [computeFigure, h, if_neg unset, if_pos (beyond unset)]

/-- Stage 6. -/
theorem computeFigure_near (h : e.state = .planned ∨ ∃ q, e.state = .tracked q) (isSet : k.state ≠ .unset)
    (near : rawMinutes e.effective k.second ≤ set.horizon) : computeFigure k set hyst delta old e =
      if holdsRise set hyst delta old (rawMinutes e.effective k.second) then old.getD .due
      else if rawMinutes e.effective k.second = 0 then .due
      else .minutes (rawMinutes e.effective k.second) := by
  rcases h with h | ⟨q, h⟩ <;> simp only [computeFigure, h, if_neg isSet, if_neg (Nat.not_lt.2 near)]

/-- A held rise keeps the previous figure, which is then present. -/
theorem computeFigure_held (h : e.state = .planned ∨ ∃ q, e.state = .tracked q) (isSet : k.state ≠ .unset)
    (near : rawMinutes e.effective k.second ≤ set.horizon)
    (held : holdsRise set hyst delta old (rawMinutes e.effective k.second) = true) :
    some (computeFigure k set hyst delta old e) = old := by
  rw [computeFigure_near k set hyst delta old h isSet near, if_pos held]
  obtain ⟨-, -, ⟨rfl, -⟩ | ⟨n, rfl, -⟩⟩ := (holdsRise_iff ..).1 held <;> rfl

theorem computeFigure_shown (h : e.state = .planned ∨ ∃ q, e.state = .tracked q) (isSet : k.state ≠ .unset)
    (near : rawMinutes e.effective k.second ≤ set.horizon)
    (shown : ¬ holdsRise set hyst delta old (rawMinutes e.effective k.second) = true) :
    computeFigure k set hyst delta old e =
      if rawMinutes e.effective k.second = 0 then .due else .minutes (rawMinutes e.effective k.second) := by
  rw [computeFigure_near k set hyst delta old h isSet near, if_neg shown]

end

/-- Settles O30: the entry's state is stage 1, then the clock and the horizon decide between the clock form and the
minutes, and `holdsRise_iff` between the previous minutes and the new ones. -/
theorem figuresFollowTheirStages : Obligations.FiguresFollowTheirStages := by
  unfold Obligations.FiguresFollowTheirStages
  intro k set hyst delta old e fig m
  refine ⟨fun t h => computeFigure_cancelled k set hyst delta old h,
    fun q a h => computeFigure_arrived k set hyst delta old h, fun rank runs => ?_⟩
  have expected := Entry.planned_or_tracked rank runs
  refine ⟨computeFigure_far k set hyst delta old expected, fun isSet near => ?_⟩
  rw [← holdsRise_iff]
  exact ⟨computeFigure_held k set hyst delta old expected isSet near,
    computeFigure_shown k set hyst delta old expected isSet near⟩

/-! ## The clock form (R40) -/

/-- The clock form reads the minute of the service day alone. -/
theorem clockForm_eq_of_minute (second : Nat) : clockForm second = (second / 60 / 60 % 24, second / 60 % 60) := by
  rw [clockForm, Nat.div_div_eq_div_mul, Nat.mod_mul_right_div_self second 60 60]

/-- A figure shows a clock time only as the clock form of the effective time: no other stage gives one, and a held rise
keeps minutes or DUE. -/
theorem clockFigure_of_computeFigure {k : Clock} {set : Settings} {hyst : Bool} {delta : Option Int}
    {old : Option Figure} {e : Entry} {hh mm : Nat} (h : computeFigure k set hyst delta old e = .clock hh mm) :
    clockFigure e.effective = .clock hh mm := by
  have ofExpected : (e.state = .planned ∨ ∃ q, e.state = .tracked q) → clockFigure e.effective = .clock hh mm := by
    intro expected
    by_cases far : k.state = .unset ∨ set.horizon < rawMinutes e.effective k.second
    · exact (computeFigure_far k set hyst delta old expected far).symm.trans h
    · obtain ⟨isSet, near⟩ := not_or.1 far
      by_cases held : holdsRise set hyst delta old (rawMinutes e.effective k.second) = true
      · have kept := computeFigure_held k set hyst delta old expected isSet (Nat.not_lt.1 near) held
        obtain ⟨-, -, ⟨rfl, -⟩ | ⟨n, rfl, -⟩⟩ := (holdsRise_iff ..).1 held <;> simp [h] at kept
      · rw [computeFigure_shown k set hyst delta old expected isSet (Nat.not_lt.1 near) held] at h
        split at h <;> cases h
  cases state : e.state with
  | planned => exact ofExpected (.inl state)
  | tracked q => exact ofExpected (.inr ⟨q, state⟩)
  | arrived q a => simp [computeFigure_arrived k set hyst delta old state] at h
  | cancelled t => simp [computeFigure_cancelled k set hyst delta old state] at h

theorem Clock.face_of_set {k : Clock} (h : k.state ≠ .unset) :
    k.face = clockText (clockForm k.second).1 (clockForm k.second).2 := by
  unfold Clock.face
  cases state : k.state with
  | unset => exact absurd state h
  | running => rfl
  | slewing => rfl
  | limit => rfl

/-- Settles O29: the two values by evaluation, the figures by `clockFigure_of_computeFigure`, the placards by
`Clock.face_of_set`. -/
theorem clockFormTruncatesAndWraps : Obligations.ClockFormTruncatesAndWraps := by
  unfold Obligations.ClockFormTruncatesAndWraps
  refine ⟨fun _ => rfl, by decide, by decide, fun a b same => ?_, fun k set hyst delta old e hh mm h => ?_,
    fun k h => Clock.face_of_set h⟩
  · rw [clockForm_eq_of_minute, clockForm_eq_of_minute, same]
  · have shown := clockFigure_of_computeFigure h
    rw [clockFigure, Figure.clock.injEq] at shown
    obtain ⟨hours, minutes⟩ := shown
    exact (Prod.ext hours minutes).symm

end Sys2Proof.Machine
end

section
/-! No operation of the delivery side changes the rank of a port (R181): the shared operations, one by one. -/

namespace Sys2Proof.Machine

/-! ## Ranks -/

/-- Every port of `e` has the rank that it has in `d`. -/
structure SameRanks (d e : Delivery) : Prop where
  rank : ∀ p : PortId, (e.ports[p]).rank = (d.ports[p]).rank

theorem sameRanks_refl (d : Delivery) : SameRanks d d := ⟨fun _ => rfl⟩

theorem SameRanks.trans {d e f : Delivery} (h : SameRanks d e) (k : SameRanks e f) : SameRanks d f :=
  ⟨fun p => (k.rank p).trans (h.rank p)⟩

theorem sameRanks_of_ports {d e : Delivery} (h : e.ports = d.ports) : SameRanks d e := ⟨fun p => by rw [h]⟩

theorem sameRanks_foldl {α : Type} (f : Delivery → α → Delivery) (step : ∀ e a, SameRanks e (f e a)) (l : List α)
    (d : Delivery) : SameRanks d (l.foldl f d) :=
  foldl_keeps (SameRanks d) f (fun e a h => h.trans (step e a)) l d (sameRanks_refl d)

theorem mapPort_ranks (p : PortId) (f : Port → Port) (h : ∀ pt, (f pt).rank = pt.rank) (d : Delivery) :
    SameRanks d (d.mapPort p f) := ⟨fun q => by
  rw [Delivery.mapPort_ports, modifyAt_getFin]
  split
  · next e => rw [h, e]
  · rfl⟩

theorem mapPorts_ranks (f : Port → Port) (h : ∀ pt, (f pt).rank = pt.rank) (d : Delivery) :
    SameRanks d { d with ports := mapTable f d.ports } := ⟨fun q => by
  rw [mapTable_getFin, h]⟩

theorem mapWorks_ranks (f : Works → Works) (d : Delivery) : SameRanks d (d.mapWorks f) := sameRanks_of_ports rfl

theorem mapGroup_ranks (g : GroupId) (f : Group → Group) (d : Delivery) : SameRanks d (d.mapGroup g f) :=
  sameRanks_of_ports rfl

/-! ## Completions and notices (R184, R185, R187) -/

theorem Port.offer_rank (x : Completion) (pt : Port) : (pt.offer x).rank = pt.rank := by
  unfold Port.offer
  split <;> rfl

theorem Port.drainWaiting_rank : ∀ (ws : List Completion) (pt : Port), (Port.drainWaiting ws pt).rank = pt.rank
  | [], _ => rfl
  | x :: xs, pt => by
    unfold Port.drainWaiting
    split
    · exact Port.drainWaiting_rank xs (pt.place x)
    · rfl

theorem Port.drain_rank (pt : Port) : pt.drain.rank = pt.rank := Port.drainWaiting_rank _ _

theorem Port.finishRequest_rank (i : Instr) (r : Reply) (pt : Port) : (pt.finishRequest i r).rank = pt.rank :=
  Port.drain_rank _

theorem complete_ranks (p : PortId) (x : Completion) (d : Delivery) : SameRanks d (d.complete p x) :=
  mapPort_ranks p _ (Port.offer_rank x) d

theorem notify_ranks (n : Notice) (p : PortId) (d : Delivery) : SameRanks d (d.notify n p) :=
  mapPort_ranks p (Port.record n) (fun _ => rfl) d

theorem notifyAll_ranks (n : Notice) (d : Delivery) : SameRanks d (d.notifyAll n) :=
  mapPorts_ranks (Port.record n) (fun _ => rfl) d

/-! ## Confirmations (R62, R63) -/

theorem endConfirmation_ranks (k : Confirmation) (x : Completion) (d : Delivery) :
    SameRanks d (d.endConfirmation k x) := (complete_ranks k.port x d).trans (sameRanks_of_ports rfl)

theorem checkConfirmation_ranks (b : Board) (d : Delivery) (k : Confirmation) :
    SameRanks d (d.checkConfirmation b k) := by
  unfold Delivery.checkConfirmation
  split
  · exact sameRanks_refl d
  · exact endConfirmation_ranks ..

theorem checkConfirmations_ranks (b : Board) (d : Delivery) : SameRanks d (d.checkConfirmations b) :=
  sameRanks_foldl _ (checkConfirmation_ranks b) _ d

theorem checkPlacard_ranks (b : Board) (n : PlacardId) (d : Delivery) : SameRanks d (d.checkPlacard b n) :=
  sameRanks_foldl _ (checkConfirmation_ranks b) _ d

/-! ## Swaps (R90, R175 to R177) -/

theorem adopt_ranks (b : Board) (d : Delivery) (r : StagedRecord) : SameRanks d (d.adopt b r) := by
  unfold Delivery.adopt
  split
  · exact sameRanks_refl d
  · exact (mapWorks_ranks _ d).trans (checkConfirmations_ranks b _)

theorem showSwap_ranks (b : Board) (x : Swap) (d : Delivery) : SameRanks d (d.showSwap b x) := by
  unfold Delivery.showSwap
  exact (sameRanks_foldl _ (adopt_ranks b) x.toShow d).trans (mapWorks_ranks _ _)

theorem endSwap_ranks (g : GroupId) (x : Swap) (d : Delivery) : SameRanks d (d.endSwap g x) := sameRanks_of_ports rfl

theorem checkSwap_ranks (b : Board) (g : GroupId) (d : Delivery) : SameRanks d (d.checkSwap b g) := by
  unfold Delivery.checkSwap
  split
  · exact sameRanks_refl d
  · split
    · exact (showSwap_ranks b _ d).trans (endSwap_ranks ..)
    · exact sameRanks_refl d

theorem dropOut_ranks (b : Board) (p : PanelId) (d : Delivery) : SameRanks d (d.dropOut b p) := by
  unfold Delivery.dropOut
  split
  · exact sameRanks_refl d
  · exact (mapGroup_ranks _ _ d).trans (checkSwap_ranks b _ _)

theorem dropOutAll_ranks (b : Board) (ps : List PanelId) (d : Delivery) : SameRanks d (d.dropOutAll b ps) := by
  unfold Delivery.dropOutAll
  refine (sameRanks_of_ports ?_).trans (sameRanks_foldl _ (fun d g => checkSwap_ranks b g d) _ _)
  rfl

theorem arrive_ranks (b : Board) (g : GroupId) (r : StagedRecord) (d : Delivery) : SameRanks d (d.arrive b g r) :=
  (mapGroup_ranks g _ d).trans (checkSwap_ranks b g _)

/-! ## Raised causes and arming (R85, R173) -/

theorem raise_ranks (b : Board) (cause : Cause) (d : Delivery) (p : PanelId) : SameRanks d (d.raise b cause p) := by
  unfold Delivery.raise
  split
  · exact sameRanks_refl d
  · simp only []
    split
    · exact (mapWorks_ranks _ d).trans (dropOut_ranks b p _)
    · exact mapWorks_ranks _ d

theorem raiseWhere_ranks (b : Board) (cause : Cause) (test : Panel → Bool) (d : Delivery) :
    SameRanks d (d.raiseWhere b cause test) := sameRanks_foldl _ (raise_ranks b cause) _ d

theorem groupArm_ranks (b : Board) (source : ArmSource) (g : GroupId) (d : Delivery) : SameRanks d (d.arm b source g) := by
  unfold Delivery.arm
  split
  · exact sameRanks_refl d
  · exact ((mapGroup_ranks g _ d).trans (sameRanks_foldl _ (raise_ranks b .stage) _ _)).trans (checkSwap_ranks b g _)

theorem raiseListChange_ranks (b : Board) (l : ListId) (content figure : Bool) (d : Delivery) :
    SameRanks d (raiseListChange b l content figure d) := by
  have first : SameRanks d (if content then raiseList b .content l d else d) := by
    split
    · exact raiseWhere_ranks ..
    · exact sameRanks_refl d
  unfold raiseListChange
  simp only []
  split
  · exact first.trans (raiseWhere_ranks ..)
  · exact first

end Sys2Proof.Machine
end

section
/-! The commands whose effect is on another block than the board: the board stays as it is, and no port changes its
rank. -/

namespace Sys2Proof.Machine

/-- The board is as it was, and so are the ranks of the ports. -/
structure SparesBoard (c : Content) (d : Delivery) (c' : Content) (d' : Delivery) : Prop where
  board : c'.board = c.board
  ranks : SameRanks d d'

theorem sparesBoard_refl (c : Content) (d : Delivery) : SparesBoard c d c d := ⟨rfl, sameRanks_refl d⟩

/-! ## Departure lists and parameters -/

theorem changeEntry_spares (l : ListId) (old new : Entry) (delta : Option Int) (c : Content) (d : Delivery) :
    SparesBoard c d (changeEntry l old new delta c d).1 (changeEntry l old new delta c d).2 :=
  ⟨rfl, raiseListChange_ranks ..⟩

theorem insertEntry_spares (l : ListId) (e : Entry) (c : Content) (d : Delivery) :
    SparesBoard c d (insertEntry l e c d).1 (insertEntry l e c d).2.1 := by
  unfold insertEntry
  simp only []
  split
  · exact ⟨rfl, raiseWhere_ranks ..⟩
  · split
    · exact sparesBoard_refl c d
    · split
      · exact ⟨rfl, (notify_ranks _ _ d).trans (raiseWhere_ranks ..)⟩
      · exact sparesBoard_refl c d

theorem listRequest_spares (list trip : Nat) (valid : Bool)
    (f : ListId → Content → Delivery → Content × Delivery × Reply) (c : Content) (d : Delivery)
    (h : ∀ l, SparesBoard c d (f l c d).1 (f l c d).2.1) :
    SparesBoard c d (listRequest list trip valid f c d).1 (listRequest list trip valid f c d).2.1 := by
  unfold listRequest
  split
  · exact sparesBoard_refl c d
  · split
    · exact h _
    · exact sparesBoard_refl c d

theorem entryRequest_spares (list trip : Nat)
    (f : ListId → Entry → Content → Delivery → Content × Delivery × Reply) (c : Content) (d : Delivery)
    (h : ∀ l e, SparesBoard c d (f l e c d).1 (f l e c d).2.1) :
    SparesBoard c d (entryRequest list trip f c d).1 (entryRequest list trip f c d).2.1 := by
  refine listRequest_spares list trip true _ c d (fun l => ?_)
  split
  · exact sparesBoard_refl c d
  · exact h l _

theorem putTrip_spares (p : PortId) (trip line destination scheduled : Nat) (l : ListId) (c : Content) (d : Delivery) :
    SparesBoard c d (putTrip p trip line destination scheduled l c d).1
      (putTrip p trip line destination scheduled l c d).2.1 := by
  unfold putTrip
  split
  · exact insertEntry_spares ..
  · exact changeEntry_spares ..

theorem predictTrip_spares (p : PortId) (predicted : Nat) (l : ListId) (e : Entry) (c : Content) (d : Delivery) :
    SparesBoard c d (predictTrip p predicted l e c d).1 (predictTrip p predicted l e c d).2.1 := by
  unfold predictTrip
  split
  · exact sparesBoard_refl c d
  · exact changeEntry_spares ..

theorem arriveTrip_spares (p : PortId) (l : ListId) (e : Entry) (c : Content) (d : Delivery) :
    SparesBoard c d (arriveTrip p l e c d).1 (arriveTrip p l e c d).2.1 := changeEntry_spares ..

theorem departTrip_spares (l : ListId) (e : Entry) (c : Content) (d : Delivery) :
    SparesBoard c d (departTrip l e c d).1 (departTrip l e c d).2.1 := ⟨rfl, raiseWhere_ranks ..⟩

theorem cancelTrip_spares (p : PortId) (l : ListId) (e : Entry) (c : Content) (d : Delivery) :
    SparesBoard c d (cancelTrip p l e c d).1 (cancelTrip p l e c d).2.1 := changeEntry_spares ..

theorem setDestination_spares (index : Nat) (text : List Nat) (c : Content) (d : Delivery) :
    SparesBoard c d (setDestination index text c d).1 (setDestination index text c d).2.1 := by
  unfold setDestination
  split
  · exact sparesBoard_refl c d
  · split
    · exact sparesBoard_refl c d
    · split
      · exact sparesBoard_refl c d
      · exact ⟨rfl, raiseWhere_ranks ..⟩

theorem refigureAll_spares (c : Content) (d : Delivery) :
    SparesBoard c d (refigureAll c d).1 (refigureAll c d).2 :=
  foldl_keeps (fun cd : Content × Delivery => SparesBoard c d cd.1 cd.2) refigureList
    (fun _ _ h => ⟨h.board, h.ranks.trans (raiseListChange_ranks ..)⟩) _ _ (sparesBoard_refl c d)

theorem changeSettings_spares (pairs : List (Nat × Nat)) (c : Content) (d : Delivery) :
    SparesBoard c d (changeSettings pairs c d).1 (changeSettings pairs c d).2.1 := by
  unfold changeSettings
  split
  · exact sparesBoard_refl c d
  · split
    · exact sparesBoard_refl c d
    · next x _ _ =>
      simp only []
      split
      · exact ⟨rfl, sameRanks_refl d⟩
      · have recomputed := refigureAll_spares { c with settings := x } d
        dsimp only
        exact ⟨recomputed.board, recomputed.ranks⟩

/-! ## Holds and split requests -/

theorem taggedRequest_spares (p : PortId) (tag : Nat) (f : Tag → Content → Delivery → Content × Delivery × Reply)
    (c : Content) (d : Delivery) (h : ∀ t, SparesBoard c d (f t c d).1 (f t c d).2.1) :
    SparesBoard c d (taggedRequest p tag f c d).1 (taggedRequest p tag f c d).2.1 := by
  unfold taggedRequest
  split
  · exact sparesBoard_refl c d
  · split
    · exact h _
    · exact sparesBoard_refl c d

theorem queueTake_spares (p : PortId) (h : HoldId) (owner : PortId) (wait : Option (Tag × Nat)) (c : Content)
    (d : Delivery) : SparesBoard c d (queueTake p h owner wait c d).1 (queueTake p h owner wait c d).2.1 := by
  unfold queueTake
  split
  · exact sparesBoard_refl c d
  · simp only []
    split
    · exact sparesBoard_refl c d
    · exact ⟨rfl, mapPort_ranks p _ (by intro; rfl) d⟩

theorem takeHold_spares (p : PortId) (hold : Nat) (wait : Option (Tag × Nat)) (c : Content) (d : Delivery) :
    SparesBoard c d (takeHold p hold wait c d).1 (takeHold p hold wait c d).2.1 := by
  unfold takeHold
  split
  · exact sparesBoard_refl c d
  · split
    · exact ⟨rfl, sameRanks_refl d⟩
    · split
      · exact sparesBoard_refl c d
      · exact queueTake_spares ..
    · split
      · exact sparesBoard_refl c d
      · split
        · exact ⟨rfl, sameRanks_refl d⟩
        · exact queueTake_spares ..

theorem takeRequest_spares (p : PortId) (tag hold wait : Nat) (c : Content) (d : Delivery) :
    SparesBoard c d (takeRequest p tag hold wait c d).1 (takeRequest p tag hold wait c d).2.1 := by
  unfold takeRequest
  split
  · exact takeHold_spares ..
  · exact taggedRequest_spares p tag _ c d (fun _ => takeHold_spares ..)

theorem releaseNeighbours_ranks (h : HoldId) (c : Content) (d : Delivery) : SameRanks d (releaseNeighbours h c d) := by
  unfold releaseNeighbours
  simp only []
  split
  · exact raiseWhere_ranks ..
  · exact (groupArm_ranks _ _ _ d).trans (raiseWhere_ranks ..)

theorem releaseHold_spares (h : HoldId) (c : Content) (d : Delivery) :
    SparesBoard c d (releaseHold h c d).1 (releaseHold h c d).2 := by
  unfold releaseHold
  simp only []
  split
  · exact ⟨rfl, releaseNeighbours_ranks ..⟩
  · exact ⟨rfl, (complete_ranks _ _ d).trans (releaseNeighbours_ranks ..)⟩

theorem releaseRequest_spares (p : PortId) (hold : Nat) (c : Content) (d : Delivery) :
    SparesBoard c d (releaseRequest p hold c d).1 (releaseRequest p hold c d).2.1 := by
  unfold releaseRequest
  split
  · exact sparesBoard_refl c d
  · split
    · exact sparesBoard_refl c d
    · exact releaseHold_spares ..

theorem handHold_spares (p : PortId) (h : HoldId) (heir : PortId) (c : Content) (d : Delivery) :
    SparesBoard c d (handHold p h heir c d).1 (handHold p h heir c d).2 := by
  unfold handHold
  simp only []
  split
  · exact ⟨rfl, complete_ranks ..⟩
  · exact ⟨rfl, sameRanks_refl d⟩

theorem handoverRequest_spares (p : PortId) (hold heir : Nat) (c : Content) (d : Delivery) :
    SparesBoard c d (handoverRequest p hold heir c d).1 (handoverRequest p hold heir c d).2.1 := by
  unfold handoverRequest
  split
  · split
    · exact sparesBoard_refl c d
    · split
      · exact sparesBoard_refl c d
      · exact handHold_spares ..
  · exact sparesBoard_refl c d

theorem setupHold_spares (hold limit group : Nat) (c : Content) (d : Delivery) :
    SparesBoard c d (setupHold hold limit group c d).1 (setupHold hold limit group c d).2.1 := by
  unfold setupHold
  split
  · split
    · exact sparesBoard_refl c d
    · exact ⟨rfl, sameRanks_refl d⟩
  · exact sparesBoard_refl c d

theorem reach_ranks (t : Nat) (d : Delivery) : SameRanks d (d.reach t) := mapWorks_ranks _ d

theorem expireHold_spares (h : HoldId) (c : Content) (d : Delivery) :
    SparesBoard c d (expireHold h c d).1 (expireHold h c d).2 := by
  unfold expireHold
  split
  · next owner t _ _ =>
    have released := releaseHold_spares h c ((d.reach t).notify (.holdExpired h) owner)
    exact ⟨released.board, ((reach_ranks t d).trans (notify_ranks _ _ _)).trans released.ranks⟩
  · exact sparesBoard_refl c d

theorem endWait_spares (h : HoldId) (x : Waiter) (o : CompletionOutcome) (body : List Byte) (c : Content)
    (d : Delivery) : SparesBoard c d (endWait h x o body c d).1 (endWait h x o body c d).2 := ⟨rfl, complete_ranks ..⟩

theorem cancelWait_spares (p : PortId) (h : HoldId) (c : Content) (d : Delivery) :
    SparesBoard c d (cancelWait p h c d).1 (cancelWait p h c d).2 := by
  unfold cancelWait
  split
  · exact sparesBoard_refl c d
  · exact endWait_spares ..

theorem cancelConfirm_ranks (p : PortId) (t : Tag) (d : Delivery) : SameRanks d (cancelConfirm p t d) := by
  unfold cancelConfirm
  split
  · exact sameRanks_refl d
  · exact endConfirmation_ranks ..

theorem cancelSplit_spares (p : PortId) (tag : Nat) (c : Content) (d : Delivery) :
    SparesBoard c d (cancelSplit p tag c d).1 (cancelSplit p tag c d).2.1 := by
  unfold cancelSplit
  split
  · exact sparesBoard_refl c d
  · split
    · exact sparesBoard_refl c d
    · exact sparesBoard_refl c d
    · exact cancelWait_spares ..
    · exact ⟨rfl, cancelConfirm_ranks ..⟩

/-! ## Type store and tickers -/

theorem setupFont_spares (font height : Nat) (c : Content) (d : Delivery) :
    SparesBoard c d (setupFont font height c d).1 (setupFont font height c d).2.1 := by
  unfold setupFont
  split
  · exact sparesBoard_refl c d
  · split
    · exact ⟨rfl, raiseWhere_ranks ..⟩
    · exact sparesBoard_refl c d

theorem loadGlyphs_spares (font : Nat) (entries : List GlyphEntry) (c : Content) (d : Delivery) :
    SparesBoard c d (loadGlyphs font entries c d).1 (loadGlyphs font entries c d).2.1 := by
  unfold loadGlyphs
  split
  · exact sparesBoard_refl c d
  · split
    · exact sparesBoard_refl c d
    · refine ⟨rfl, ?_⟩
      simp only []
      split
      · exact sameRanks_refl d
      · exact raiseWhere_ranks ..

theorem setToken_spares (token : Nat) (text : List Nat) (c : Content) (d : Delivery) :
    SparesBoard c d (setToken token text c d).1 (setToken token text c d).2.1 := by
  unfold setToken
  split
  · exact sparesBoard_refl c d
  · split
    · exact sparesBoard_refl c d
    · split
      · exact sparesBoard_refl c d
      · exact ⟨rfl, raiseWhere_ranks ..⟩

theorem setupTicker_spares (ticker font window period columns lowWater : Nat) (c : Content) (d : Delivery) :
    SparesBoard c d (setupTicker ticker font window period columns lowWater c d).1
      (setupTicker ticker font window period columns lowWater c d).2.1 := by
  unfold setupTicker
  split
  · exact ⟨rfl, raiseWhere_ranks ..⟩
  · exact sparesBoard_refl c d

theorem feedTicker_spares (p : PortId) (ticker : Nat) (chars : List Nat) (c : Content) (d : Delivery) :
    SparesBoard c d (feedTicker p ticker chars c d).1 (feedTicker p ticker chars c d).2.1 := by
  unfold feedTicker
  split
  · exact sparesBoard_refl c d
  · simp only []
    split
    · exact sparesBoard_refl c d
    · split
      · exact sparesBoard_refl c d
      · split
        · exact sparesBoard_refl c d
        · exact ⟨rfl, raiseWhere_ranks ..⟩

theorem flushTicker_spares (ticker : Nat) (c : Content) (d : Delivery) :
    SparesBoard c d (flushTicker ticker c d).1 (flushTicker ticker c d).2.1 := by
  unfold flushTicker
  split
  · exact sparesBoard_refl c d
  · simp only []
    split
    · exact sparesBoard_refl c d
    · refine ⟨rfl, ?_⟩
      simp only []
      split
      · exact raiseWhere_ranks ..
      · exact sameRanks_refl d

theorem noticeLow_ranks (t : TickerId) (crosses : Bool) (feeder : Option PortId) (d : Delivery) :
    SameRanks d (noticeLow t crosses feeder d) := by
  unfold noticeLow
  split
  · exact sameRanks_refl d
  · split
    · exact notify_ranks ..
    · exact sameRanks_refl d

theorem scrollTicker_spares (t : TickerId) (c : Content) (d : Delivery) :
    SparesBoard c d (scrollTicker t c d).1 (scrollTicker t c d).2 := by
  unfold scrollTicker
  simp only []
  split
  · exact sparesBoard_refl c d
  · exact ⟨rfl, ((reach_ranks _ d).trans (noticeLow_ranks ..)).trans (raiseWhere_ranks ..)⟩

/-! ## The effect of a command on the board -/

/-- The commands whose effect is on the board: the requests for a placard, those that evaluate its windows, and those that
clear it. -/
def movesBoard : Instr → Bool
  | .resetn _ _ _ _ => true
  | .clockSet _ _ => true
  | .newDay _ _ => true
  | .countInterval => true
  | .post _ _ => true
  | .amend _ _ _ => true
  | .textSet _ _ _ => true
  | .withdraw _ _ => true
  | .boardClear _ => true
  | _ => false

/-- No other command touches the board. -/
theorem effect_board (i : Instr) (c : Content) (d : Delivery) (h : movesBoard i = false) :
    (effect i c d).board = c.board := by
  cases i with
  | depPut => exact (listRequest_spares _ _ _ _ c d (fun l => putTrip_spares _ _ _ _ _ l c d)).board
  | depPredict => exact (entryRequest_spares _ _ _ c d (fun l e => predictTrip_spares _ _ l e c d)).board
  | depArrive => exact (entryRequest_spares _ _ _ c d (fun l e => arriveTrip_spares _ l e c d)).board
  | depDepart => exact (entryRequest_spares _ _ _ c d (fun l e => departTrip_spares l e c d)).board
  | depCancel => exact (entryRequest_spares _ _ _ c d (fun l e => cancelTrip_spares _ l e c d)).board
  | destSet => exact (setDestination_spares _ _ c d).board
  | settings => exact (changeSettings_spares _ c d).board
  | take => exact (takeRequest_spares _ _ _ _ c d).board
  | release => exact (releaseRequest_spares _ _ c d).board
  | handover => exact (handoverRequest_spares _ _ _ c d).board
  | holdSetup => exact (setupHold_spares _ _ _ c d).board
  | holdExpiry => exact (expireHold_spares _ c d).board
  | waitTimeout hold port =>
    simp only [effect]
    split
    · rfl
    · rfl
  | fontSetup => exact (setupFont_spares _ _ c d).board
  | glyphLoad => exact (loadGlyphs_spares _ _ c d).board
  | tokenSet => exact (setToken_spares _ _ c d).board
  | tickerSetup => exact (setupTicker_spares _ _ _ _ _ _ c d).board
  | tickerFeed => exact (feedTicker_spares _ _ _ c d).board
  | tickerFlush => exact (flushTicker_spares _ c d).board
  | scrollStep => exact (scrollTicker_spares _ c d).board
  | cancelSplit => exact (cancelSplit_spares _ _ c d).board
  | resetn | clockSet | newDay | countInterval | post | amend | textSet | withdraw | boardClear => cases h
  | _ => rfl

end Sys2Proof.Machine
end

section
/-! Every step keeps the draw order (R47) and the text pool (R50): what placing, changing and freeing a placard makes of
them. -/

namespace Sys2Proof.Machine

/-! ## The layers of the placards -/

/-- The layer of a stored placard, 0 for a FREE number. -/
def layerIn (o : Option Placard) : Nat := (o.map Placard.layer).getD 0

theorem layerOf_eq (b : Board) (n : PlacardId) : b.layerOf n = layerIn b.placards[n] := by
  unfold Board.layerOf layerIn
  cases b.placards[n] <;> rfl

/-- The order `o` names the numbers that pass `stored` once each, by the layers given. -/
structure OrderFor (o : List PlacardId) (stored : PlacardId → Bool) (layer : PlacardId → Nat) : Prop where
  once : o.Nodup
  named : ∀ n, n ∈ o ↔ stored n = true
  sorted : o.Pairwise (fun m n => layer m ≤ layer n)

/-- The draw order of a board, by its placards. -/
theorem orderOk_iff (b : Board) : orderOk b ↔
    OrderFor b.drawOrder (fun n => (b.placards[n]).isSome) (fun n => layerIn b.placards[n]) := by
  simp only [← layerOf_eq]
  exact ⟨fun ⟨once, named, sorted⟩ => ⟨once, named, sorted⟩, fun h => ⟨h.once, h.named, h.sorted⟩⟩

theorem OrderFor.congr {o : List PlacardId} {stored stored' : PlacardId → Bool} {layer layer' : PlacardId → Nat}
    (h : OrderFor o stored layer) (hs : ∀ n, stored' n = stored n) (hl : ∀ n, layer' n = layer n) :
    OrderFor o stored' layer' := by
  rw [show stored' = stored from funext hs, show layer' = layer from funext hl]
  exact h

theorem mem_leaveOrder (n m : PlacardId) (o : List PlacardId) : m ∈ leaveOrder n o ↔ m ∈ o ∧ m ≠ n := by
  simp [leaveOrder]

/-- An order without one of its numbers (R47, R56). -/
theorem OrderFor.leave {o : List PlacardId} {stored : PlacardId → Bool} {layer : PlacardId → Nat}
    (h : OrderFor o stored layer) (n : PlacardId) :
    OrderFor (leaveOrder n o) (fun m => stored m && decide (m ≠ n)) layer where
  once := h.once.filter _
  named m := by rw [mem_leaveOrder, h.named, Bool.and_eq_true, decide_eq_true_eq]
  sorted := h.sorted.filter _

/-- A number that stands in no order joins it after those of its own and of lower layers, and before those of higher ones:
the order stays sorted, whatever layer the number had (R47, R53, R54). -/
theorem OrderFor.join {front back : List PlacardId} {stored : PlacardId → Bool} {layer layer' : PlacardId → Nat}
    (h : OrderFor (front ++ back) stored layer) (n : PlacardId) (fresh : n ∉ front ++ back)
    (same : ∀ m, m ≠ n → layer' m = layer m) (below : ∀ m ∈ front, layer m ≤ layer' n)
    (above : ∀ m ∈ back, layer' n < layer m) :
    OrderFor (front ++ n :: back) (fun m => stored m || decide (m = n)) layer' := by
  have others : ∀ m ∈ front ++ back, layer' m = layer m := fun m hm => same m (fun e => fresh (e ▸ hm))
  obtain ⟨sortedFront, sortedBack, across⟩ := List.pairwise_append.1 h.sorted
  refine ⟨?_, fun m => ?_, ?_⟩
  · exact List.nodup_middle.2 (List.nodup_cons.2 ⟨fresh, h.once⟩)
  · have member := h.named m
    simp only [List.mem_append, List.mem_cons, Bool.or_eq_true, decide_eq_true_eq, ← member]
    tauto
  · refine List.pairwise_append.2 ⟨?_, List.pairwise_cons.2 ⟨fun m hm => ?_, ?_⟩, fun a ha m hm => ?_⟩
    · refine sortedFront.imp_of_mem (fun {a c} ha hc le => ?_)
      rw [others a (List.mem_append_left _ ha), others c (List.mem_append_left _ hc)]
      exact le
    · rw [others m (List.mem_append_right _ hm)]
      exact Nat.le_of_lt (above m hm)
    · refine sortedBack.imp_of_mem (fun {a c} ha hc le => ?_)
      rw [others a (List.mem_append_right _ ha), others c (List.mem_append_right _ hc)]
      exact le
    · rw [others a (List.mem_append_left _ ha)]
      rcases List.mem_cons.1 hm with rfl | hm
      · exact below a ha
      · rw [others m (List.mem_append_right _ hm)]
        exact across a ha m hm

/-! ## The draw order after a change of one placard -/

/-- A placard of an unchanged layer leaves the draw order as it is (R54, R55). -/
theorem orderOk_sameLayer {b : Board} (h : orderOk b) {n : PlacardId} {old new : Placard}
    (stored : b.placards[n] = some old) (layer : new.layer = old.layer) (cells g : Nat) :
    orderOk ⟨b.placards.set n (some new), b.drawOrder, cells, g⟩ := by
  rw [orderOk_iff] at h ⊢
  refine h.congr (fun m => ?_) (fun m => ?_) <;> simp only [set_getFin] <;> split
  · next e => rw [← e, stored]; rfl
  · rfl
  · next e => rw [← e, stored]; exact layer
  · rfl

/-- A placard freed leaves the draw order (R56). -/
theorem orderOk_free {b : Board} (h : orderOk b) (n : PlacardId) (cells g : Nat) :
    orderOk ⟨b.placards.set n none, leaveOrder n b.drawOrder, cells, g⟩ := by
  rw [orderOk_iff] at h ⊢
  have left := h.leave n
  refine ⟨left.once, fun m => ?_, ?_⟩
  · rw [left.named, set_getFin]
    by_cases e : n = m
    · simp [e]
    · simp [e, Ne.symm e]
  · refine left.sorted.imp_of_mem (fun {a m} ha hm le => ?_)
    rw [set_getFin_ne _ _ (Ne.symm ((mem_leaveOrder n a _).1 ha).2),
      set_getFin_ne _ _ (Ne.symm ((mem_leaveOrder n m _).1 hm).2)]
    exact le

/-- A placard that is stored under a number joins the layer it is of (R53, R54). -/
theorem orderOk_join {b : Board} (h : orderOk b) (n : PlacardId) (new : Placard) (cells g : Nat) :
    orderOk ⟨b.placards.set n (some new), b.joinLayer n new.layer (leaveOrder n b.drawOrder), cells, g⟩ := by
  obtain ⟨front, back, split, joined, below, above⟩ := joinLayer_split b n new.layer (leaveOrder n b.drawOrder)
  have left := ((orderOk_iff b).1 h).leave n
  have fresh : n ∉ leaveOrder n b.drawOrder := fun hn => ((mem_leaveOrder n n _).1 hn).2 rfl
  simp only [layerOf_eq] at below above
  have above := above left.sorted
  rw [split] at left fresh
  rw [orderOk_iff, joined]
  have added := left.join (layer' := fun m => layerIn (b.placards.set n (some new))[m]) n fresh
    (fun m hm => by rw [set_getFin_ne _ _ (Ne.symm hm)]) (by rw [set_getFin_self]; exact below)
    (by rw [set_getFin_self]; exact above)
  refine added.congr (fun m => ?_) (fun _ => rfl)
  rw [set_getFin]
  by_cases e : n = m
  · simp [e]
  · simp [e, Ne.symm e]

/-- A FREE number stands in no draw order (R47). -/
theorem leaveOrder_free {b : Board} (h : orderOk b) {n : PlacardId} (free : b.placards[n] = none) :
    leaveOrder n b.drawOrder = b.drawOrder := by
  refine List.filter_eq_self.2 (fun m hm => decide_eq_true (fun e => ?_))
  obtain ⟨-, named, -⟩ := h
  have stored := (named m).1 hm
  rw [e, free] at stored
  cases stored

/-! ## The text pool -/

/-- The cells of a stored placard, 0 for a FREE number (R50). -/
def cellsIn (o : Option Placard) : Nat := (o.map (fun pl => pl.content.cells)).getD 0

theorem sum_present : ∀ l : List (Option Placard),
    ((l.filterMap id).map (fun pl => pl.content.cells)).sum = (l.map cellsIn).sum
  | [] => rfl
  | none :: l => by
    have rest := sum_present l
    simpa [cellsIn] using rest
  | some pl :: l => by
    have rest := sum_present l
    simpa [cellsIn] using rest

theorem sum_map_set {α : Type} (f : α → Nat) (x : α) : ∀ (l : List α) (i : Nat) (h : i < l.length),
    ((l.set i x).map f).sum + f l[i] = (l.map f).sum + f x
  | [], _, h => absurd h (Nat.not_lt_zero _)
  | a :: l, 0, _ => by
    simp only [List.set_cons_zero, List.map_cons, List.sum_cons, List.getElem_cons_zero]
    omega
  | a :: l, i + 1, h => by
    have rest := sum_map_set f x l i (Nat.lt_of_succ_lt_succ h)
    simp only [List.set_cons_succ, List.map_cons, List.sum_cons, List.getElem_cons_succ]
    omega

/-- The cells in use as the rule counts them (R50). -/
def poolOf (v : Vector (Option Placard) 192) : Nat := (v.toList.map cellsIn).sum

theorem cellsOk_iff (b : Board) : cellsOk b ↔ b.cellsUsed = poolOf b.placards ∧ b.cellsUsed ≤ 1024 := by
  unfold cellsOk Board.present poolOf
  rw [sum_present]

/-- One placard changed: its cells go, those of the new one come. -/
theorem poolOf_set (v : Vector (Option Placard) 192) (n : PlacardId) (o : Option Placard) :
    poolOf (v.set n o) + cellsIn v[n] = poolOf v + cellsIn o := by
  unfold poolOf
  rw [Vector.toList_set]
  have changed := sum_map_set cellsIn o v.toList n.val (by rw [Vector.length_toList]; exact n.isLt)
  rw [Vector.getElem_toList] at changed
  exact changed

/-- The text pool after one placard is replaced, the cells in use counted as the board counts them (R50). -/
theorem cellsOk_set {b : Board} (h : cellsOk b) (n : PlacardId) (o : Option Placard) (order : List PlacardId) (g : Nat)
    (room : b.cellsUsed - cellsIn b.placards[n] + cellsIn o ≤ 1024) :
    cellsOk ⟨b.placards.set n o, order, b.cellsUsed - cellsIn b.placards[n] + cellsIn o, g⟩ := by
  obtain ⟨used, -⟩ := (cellsOk_iff b).1 h
  refine (cellsOk_iff _).2 ⟨?_, room⟩
  have freed := poolOf_set b.placards n none
  have changed := poolOf_set b.placards n o
  have nothing : cellsIn none = 0 := rfl
  simp only []
  omega

/-! ## Boards that differ in the state of their placards alone -/

/-- LIVE or DORMANT is no matter of the draw order or of the text pool. -/
theorem boardOk_windows {c c' : Content} (k : keepsRest c c') (h : orderOk c.board ∧ cellsOk c.board) :
    orderOk c'.board ∧ cellsOk c'.board := by
  obtain ⟨-, -, -, -, order, used, -, placards⟩ := k
  have layers : ∀ n : PlacardId, layerIn c'.board.placards[n] = layerIn c.board.placards[n] := fun n => by
    have alike := congrArg layerIn (placards n)
    simpa [layerIn, Option.map_map, Function.comp_def] using alike
  have stored : ∀ n : PlacardId, (c'.board.placards[n]).isSome = (c.board.placards[n]).isSome := fun n => by
    have alike := congrArg Option.isSome (placards n)
    simpa using alike
  have cells : poolOf c'.board.placards = poolOf c.board.placards := by
    unfold poolOf
    refine congrArg List.sum (List.ext_getElem (by simp) (fun i h1 h2 => ?_))
    have alike := congrArg cellsIn (placards ⟨i, by simpa using h1⟩)
    simpa [cellsIn, Option.map_map, Function.comp_def] using alike
  refine ⟨?_, ?_⟩
  · rw [orderOk_iff, order]
    exact ((orderOk_iff _).1 h.1).congr stored layers
  · rw [cellsOk_iff, used, cells]
    exact (cellsOk_iff _).1 h.2

end Sys2Proof.Machine
end

section
/-! What each request for a placard leaves of the board, and the invariant of draw order and text pool. -/

namespace Sys2Proof.Machine

/-! ## Changes of one placard (R52) -/

/-- A placard as a change stores it: its generation stamped, its state decided (R48, R52, R58). -/
def Content.stamp (c : Content) (new : Placard) : Placard :=
  { new with generation := nextGeneration c.board.generation, live := new.liveAt c.clock.state c.clock.second }

theorem changePlacard_content (n : PlacardId) (old : Option Placard) (new : Placard) (order : List PlacardId)
    (cells : Nat) (c : Content) (d : Delivery) : (changePlacard n old new order cells c d).1 =
      { c with board := ⟨c.board.placards.set n (some (c.stamp new)), order, cells,
        nextGeneration c.board.generation⟩ } := rfl

theorem freeNumber_free {b : Board} {n : PlacardId} (h : b.freeNumber = some n) : b.placards[n] = none := by
  have free := List.find?_some h
  simpa using free

/-- What a request for a placard can leave of the board: nothing changed, or its generation advanced with one placard
stored new, changed in its layer, moved to another layer, or freed. -/
inductive BoardChange (b : Board) : Board → Prop where
  | kept : BoardChange b b
  | posted (n : PlacardId) (new : Placard) (free : b.placards[n] = none)
      (room : b.cellsUsed + new.content.cells ≤ 1024) :
      BoardChange b ⟨b.placards.set n (some new), b.joinLayer n new.layer b.drawOrder,
        b.cellsUsed + new.content.cells, nextGeneration b.generation⟩
  | changed (n : PlacardId) (old new : Placard) (stored : b.placards[n] = some old) (layer : new.layer = old.layer)
      (room : b.cellsAfter old new ≤ 1024) :
      BoardChange b ⟨b.placards.set n (some new), b.drawOrder, b.cellsAfter old new, nextGeneration b.generation⟩
  | moved (n : PlacardId) (old new : Placard) (stored : b.placards[n] = some old) (room : b.cellsAfter old new ≤ 1024) :
      BoardChange b ⟨b.placards.set n (some new), b.joinLayer n new.layer (leaveOrder n b.drawOrder),
        b.cellsAfter old new, nextGeneration b.generation⟩
  | freed (n : PlacardId) (old : Placard) (stored : b.placards[n] = some old) :
      BoardChange b ⟨b.placards.set n none, leaveOrder n b.drawOrder, b.cellsUsed - old.content.cells,
        nextGeneration b.generation⟩

theorem postPlacard_board (p : PortId) (f : PostReq) (c : Content) (d : Delivery) :
    BoardChange c.board (postPlacard p f c d).1.board := by
  unfold postPlacard
  split
  · exact .kept
  · next pl _ =>
    split
    · exact .kept
    · split
      · exact .kept
      · split
        · exact .kept
        · next n free =>
          split
          · exact .kept
          · next room => exact .posted n (c.stamp pl) (freeNumber_free free) (Nat.not_lt.1 room)

theorem amendPlacard_board (p : PortId) (f : AmendReq) (n : PlacardId) (old : Placard) (c : Content) (d : Delivery)
    (stored : c.board.placards[n] = some old) : BoardChange c.board (amendPlacard p f n old c d).1.board := by
  unfold amendPlacard
  split
  · exact .kept
  · next new _ =>
    split
    · exact .kept
    · split
      · exact .kept
      · split
        · exact .kept
        · split
          · exact .kept
          · next room =>
            simp only [changePlacard_content]
            by_cases layer : new.layer = old.layer
            · rw [if_pos layer]
              exact .changed n old (c.stamp new) stored layer (Nat.not_lt.1 room)
            · rw [if_neg layer]
              exact .moved n old (c.stamp new) stored (Nat.not_lt.1 room)

theorem withText_content {text : List Nat} {old new : PlacardContent} (h : old.withText text = some new) :
    ∃ chars font align, old = .text chars font align ∧ new = .text text font align := by
  cases old with
  | text chars font align => exact ⟨chars, font, align, rfl, (Option.some.inj h).symm⟩
  | _ => cases h

theorem setText_board (p : PortId) (text : List Nat) (n : PlacardId) (old : Placard) (c : Content) (d : Delivery)
    (stored : c.board.placards[n] = some old) : BoardChange c.board (setText p text n old c d).1.board := by
  unfold setText
  split
  · exact .kept
  · next content _ =>
    simp only []
    split
    · exact .kept
    · split
      · exact .kept
      · split
        · exact .kept
        · next room => exact .changed n old (c.stamp { old with content := content }) stored rfl (Nat.not_lt.1 room)

theorem withdrawPlacard_board (p : PortId) (n : PlacardId) (old : Placard) (c : Content) (d : Delivery)
    (stored : c.board.placards[n] = some old) : BoardChange c.board (withdrawPlacard p n old c d).1.board := by
  unfold withdrawPlacard
  simp only []
  split
  · exact .kept
  · split
    · exact .kept
    · exact .freed n old stored

theorem placardRequest_board (number : Nat) (valid : Bool)
    (f : PlacardId → Placard → Content → Delivery → Content × Delivery × Reply) (c : Content) (d : Delivery)
    (h : ∀ n pl, c.board.placards[n] = some pl → BoardChange c.board (f n pl c d).1.board) :
    BoardChange c.board (placardRequest number valid f c d).1.board := by
  rcases placardRequest_content number valid f c d with e | ⟨n, pl, stored, e⟩ <;> rw [e]
  · exact .kept
  · exact h n pl stored

/-! ## Draw order and text pool (R47, R50) -/

theorem BoardChange.order {b b' : Board} (h : BoardChange b b') (k : orderOk b) : orderOk b' := by
  cases h with
  | kept => exact k
  | posted n new free room =>
    have joined := orderOk_join k n new (b.cellsUsed + new.content.cells) (nextGeneration b.generation)
    rwa [leaveOrder_free k free] at joined
  | changed n old new stored layer room => exact orderOk_sameLayer k stored layer _ _
  | moved n old new stored room => exact orderOk_join k n new _ _
  | freed n old stored => exact orderOk_free k n _ _

theorem BoardChange.pool {b b' : Board} (h : BoardChange b b') (k : cellsOk b) : cellsOk b' := by
  have replaced (n : PlacardId) (o o' : Option Placard) (stored : b.placards[n] = o) (order : List PlacardId) (g : Nat)
      (room : b.cellsUsed - cellsIn o + cellsIn o' ≤ 1024) :
      cellsOk ⟨b.placards.set n o', order, b.cellsUsed - cellsIn o + cellsIn o', g⟩ := by
    subst stored
    exact cellsOk_set k n o' order g room
  cases h with
  | kept => exact k
  | posted n new free room => exact replaced n none (some new) free _ _ room
  | changed n old new stored layer room => exact replaced n (some old) (some new) stored _ _ room
  | moved n old new stored room => exact replaced n (some old) (some new) stored _ _ room
  | freed n old stored =>
    exact replaced n (some old) none stored _ _ (Nat.le_trans (Nat.sub_le _ _) k.2)

/-! ## Every command -/

/-- Draw order and text pool of the board. -/
def Content.boardOk (c : Content) : Prop := orderOk c.board ∧ cellsOk c.board

theorem BoardChange.boardOk {c c' : Content} (h : BoardChange c.board c'.board) (k : c.boardOk) : c'.boardOk :=
  ⟨h.order k.1, h.pool k.2⟩

theorem boardOk_cleared (g : Nat) :
    orderOk ⟨Vector.replicate 192 none, [], 0, g⟩ ∧ cellsOk ⟨Vector.replicate 192 none, [], 0, g⟩ := by
  refine ⟨⟨List.nodup_nil, fun n => ?_, List.Pairwise.nil⟩, (cellsOk_iff _).2 ⟨?_, Nat.zero_le _⟩⟩
  · simp
  · rw [poolOf, Vector.toList_replicate, List.map_replicate, List.sum_replicate]
    exact (smul_zero 192).symm

theorem setClock_keepsRest (t : Nat) (c : Content) (d : Delivery) : keepsRest c (setClock t c d).1 := by
  have steps : keepsRest c (stepClock t c d).1 := by
    simp only [stepClock_eq]
    exact (followClock_kept _ _ _ _ _ { c with clock := Clock.at t } d).2.2
  unfold setClock
  simp only []
  split
  · exact keepsRest_refl c
  · split
    · simp only [startClock_eq]
      exact (followClock_kept _ _ _ _ _ { c.restamp (Clock.at t).second with clock := Clock.at t } d).2.2
    · split
      · exact keepsRest_refl c
      · split
        · exact keepsRest_refl c
        · exact steps
    all_goals
      split
      · exact keepsRest_refl c
      · exact steps

theorem newDay_keepsRest (t : Nat) (c : Content) (d : Delivery) : keepsRest c (newDay t c d).1 := by
  by_cases ht : clockLimit < t
  · rw [newDay_refused t c d ht]
    exact keepsRest_refl c
  · simp only [newDay_eq t c d ht]
    exact keepsRest_trans (evaluateWindows_kept _ { c.emptyLists with clock := Clock.at t } _).2
      (followClock_kept _ _ _ _ _ _ _).2.2

theorem countClock_keepsRest (c : Content) (d : Delivery) : keepsRest c (countClock c d).1 := by
  rw [countClock_eq]
  exact (followClock_kept _ _ _ _ _ { c with clock := c.clock.count } d).2.2

/-- What the effect of a command other than RESETN and BOARD_CLEAR can be on the board: none, its windows evaluated, or one
placard changed. -/
theorem effect_changes (i : Instr) (c : Content) (d : Delivery) (reset : ∀ rk0 rk1 rk2 rk3, i ≠ .resetn rk0 rk1 rk2 rk3)
    (clear : ∀ p, i ≠ .boardClear p) :
    keepsRest c (effect i c d) ∨ BoardChange c.board (effect i c d).board := by
  cases moves : movesBoard i with
  | false => exact .inr (effect_board i c d moves ▸ .kept)
  | true =>
    cases i with
    | resetn => exact absurd rfl (reset _ _ _ _)
    | boardClear => exact absurd rfl (clear _)
    | clockSet p t => exact .inl (setClock_keepsRest t c d)
    | newDay p t => exact .inl (newDay_keepsRest t c d)
    | countInterval => exact .inl (countClock_keepsRest c d)
    | post p f => exact .inr (postPlacard_board p f c d)
    | amend p number f =>
      exact .inr (placardRequest_board _ _ _ c d (fun n pl stored => amendPlacard_board p f n pl c d stored))
    | textSet p number text =>
      exact .inr (placardRequest_board _ _ _ c d (fun n pl stored => setText_board p text n pl c d stored))
    | withdraw p number =>
      exact .inr (placardRequest_board _ _ _ c d (fun n pl stored => withdrawPlacard_board p n pl c d stored))
    | _ => cases moves

theorem effect_boardOk (i : Instr) (c : Content) (d : Delivery) (h : c.boardOk) : (effect i c d).boardOk := by
  by_cases reset : ∃ rk0 rk1 rk2 rk3, i = .resetn rk0 rk1 rk2 rk3
  · obtain ⟨_, _, _, _, rfl⟩ := reset
    exact boardOk_cleared 0
  · by_cases clear : ∃ p, i = .boardClear p
    · obtain ⟨p, rfl⟩ := clear
      rw [effect, clearAll_eq]
      exact boardOk_cleared _
    · rcases effect_changes i c d (fun a b x y e => reset ⟨a, b, x, y, e⟩) (fun p e => clear ⟨p, e⟩) with k | k
      · exact boardOk_windows k h
      · exact k.boardOk h

/-- Settles O7: every command leaves draw order and text pool as they are, evaluates windows, clears the board, or changes one
placard, and each of these keeps both. -/
theorem stepsKeepDrawOrderAndTextPool : Obligations.StepsKeepDrawOrderAndTextPool := by
  unfold Obligations.StepsKeepDrawOrderAndTextPool
  intro s t h step
  exact step_keeps_content Content.boardOk effect_boardOk s t step h

/-! ## The board generation (R58) -/

/-- A change of one placard keeps the generation or advances it (R58). -/
theorem BoardChange.generation {b b' : Board} (h : BoardChange b b') :
    b'.generation = b.generation ∨ b'.generation = nextGeneration b.generation := by
  cases h with
  | kept => exact .inl rfl
  | _ => exact .inr rfl

/-- No command but RESETN sets the generation back, and none lets it pass its limit (R58). -/
theorem effect_generation (i : Instr) (c : Content) (d : Delivery)
    (reset : ∀ rk0 rk1 rk2 rk3, i ≠ .resetn rk0 rk1 rk2 rk3) (h : c.board.generation ≤ 4294967295) :
    c.board.generation ≤ (effect i c d).board.generation ∧ (effect i c d).board.generation ≤ 4294967295 := by
  have stepped : (effect i c d).board.generation = c.board.generation ∨
      (effect i c d).board.generation = nextGeneration c.board.generation := by
    by_cases clear : ∃ p, i = .boardClear p
    · obtain ⟨p, rfl⟩ := clear
      rw [effect, clearAll_eq]
      exact .inr rfl
    · rcases effect_changes i c d reset (fun p e => clear ⟨p, e⟩) with k | k
      · obtain ⟨-, -, -, -, -, -, generation, -⟩ := k
        exact .inl generation
      · exact k.generation
  unfold nextGeneration at stepped
  omega

end Sys2Proof.Machine
end

section
/-! No command but RESETN changes the rank of a port (R181), and none sets the board generation back (R58). -/

namespace Sys2Proof.Machine

/-! ## The board and its clearing -/

theorem changePlacard_ranks (n : PlacardId) (old : Option Placard) (new : Placard) (order : List PlacardId)
    (cells : Nat) (c : Content) (d : Delivery) : SameRanks d (changePlacard n old new order cells c d).2 := by
  unfold changePlacard
  exact ((mapWorks_ranks _ d).trans (raiseWhere_ranks ..)).trans (checkPlacard_ranks ..)

theorem postPlacard_ranks (p : PortId) (f : PostReq) (c : Content) (d : Delivery) :
    SameRanks d (postPlacard p f c d).2.1 := by
  unfold postPlacard
  split
  · exact sameRanks_refl d
  · split
    · exact sameRanks_refl d
    · split
      · exact sameRanks_refl d
      · split
        · exact sameRanks_refl d
        · split
          · exact sameRanks_refl d
          · exact changePlacard_ranks ..

theorem amendPlacard_ranks (p : PortId) (f : AmendReq) (n : PlacardId) (old : Placard) (c : Content) (d : Delivery) :
    SameRanks d (amendPlacard p f n old c d).2.1 := by
  unfold amendPlacard
  split
  · exact sameRanks_refl d
  · split
    · exact sameRanks_refl d
    · split
      · exact sameRanks_refl d
      · split
        · exact sameRanks_refl d
        · split
          · exact sameRanks_refl d
          · exact changePlacard_ranks ..

theorem setText_ranks (p : PortId) (text : List Nat) (n : PlacardId) (old : Placard) (c : Content) (d : Delivery) :
    SameRanks d (setText p text n old c d).2.1 := by
  unfold setText
  split
  · exact sameRanks_refl d
  · simp only []
    split
    · exact sameRanks_refl d
    · split
      · exact sameRanks_refl d
      · split
        · exact sameRanks_refl d
        · exact changePlacard_ranks ..

theorem removePlacard_ranks (n : PlacardId) (old : Placard) (c : Content) (d : Delivery) :
    SameRanks d (removePlacard n old c d).2 := by
  unfold removePlacard
  exact ((mapWorks_ranks _ d).trans (raiseWhere_ranks ..)).trans
    (sameRanks_foldl _ (fun e k => endConfirmation_ranks k _ e) _ _)

theorem withdrawPlacard_ranks (p : PortId) (n : PlacardId) (old : Placard) (c : Content) (d : Delivery) :
    SameRanks d (withdrawPlacard p n old c d).2.1 := by
  unfold withdrawPlacard
  simp only []
  split
  · exact sameRanks_refl d
  · split
    · exact sameRanks_refl d
    · exact removePlacard_ranks ..

theorem placardRequest_ranks (number : Nat) (valid : Bool)
    (f : PlacardId → Placard → Content → Delivery → Content × Delivery × Reply) (c : Content) (d : Delivery)
    (h : ∀ n pl, SameRanks d (f n pl c d).2.1) : SameRanks d (placardRequest number valid f c d).2.1 := by
  unfold placardRequest
  split
  · exact sameRanks_refl d
  · split
    · exact sameRanks_refl d
    · split
      · exact sameRanks_refl d
      · exact h _ _

theorem openConfirmation_ranks (p : PortId) (timeout : Nat) (t : Tag) (n : PlacardId) (old : Placard) (c : Content)
    (d : Delivery) : SameRanks d (openConfirmation p timeout t n old c d).2.1 := by
  unfold openConfirmation
  refine SameRanks.trans ?_ (checkConfirmation_ranks ..)
  refine (mapPort_ranks p (fun pt => { pt with tags := pt.tags.set t .confirm }) (fun _ => rfl) d).trans ?_
  exact sameRanks_of_ports rfl

theorem confirmRequest_ranks (p : PortId) (tag number timeout : Nat) (c : Content) (d : Delivery) : SameRanks d
    (taggedRequest p tag (fun t => placardRequest number true (openConfirmation p timeout t)) c d).2.1 := by
  unfold taggedRequest
  split
  · exact sameRanks_refl d
  · split
    · exact placardRequest_ranks _ _ _ c d (fun _ _ => openConfirmation_ranks ..)
    · exact sameRanks_refl d

theorem completeAll_ranks (xs : List (PortId × Completion)) (d : Delivery) : SameRanks d (d.completeAll xs) := by
  unfold Delivery.completeAll
  exact sameRanks_foldl _ (fun e x => complete_ranks x.1 x.2 e) xs d

theorem clearAll_ranks (c : Content) (d : Delivery) : SameRanks d (clearAll c d).2.1 := by
  rw [clearAll_delivery]
  exact (completeAll_ranks (clearCompletions c d) d).trans (sameRanks_of_ports rfl)

/-! ## The clock -/

theorem evaluateWindows_ranks (now : Nat) (c : Content) (d : Delivery) :
    SameRanks d (evaluateWindows now c d).2 := by
  refine foldl_keeps (fun cd : Content × Delivery => SameRanks d cd.2) _ (fun cd n h => ?_) _ _ (sameRanks_refl d)
  unfold evaluateWindow
  split
  · exact h
  · simp only []
    split
    · exact (h.trans (mapWorks_ranks _ _)).trans (raiseWhere_ranks ..)
    · exact h

theorem afterSecond_ranks (hyst : Bool) (c : Content) (d : Delivery) : SameRanks d (afterSecond hyst c d).2 := by
  unfold afterSecond
  refine SameRanks.trans ?_ (evaluateWindows_ranks _ _ _)
  refine sameRanks_foldl _ (fun e l => SameRanks.trans ?_ (raiseListChange_ranks ..)) _ d
  exact sameRanks_foldl _ (fun e (x : Entry) => sameRanks_foldl _ (fun e n => notify_ranks n x.source e) _ e) _ e

theorem limitNotice_ranks (entered : Bool) (d : Delivery) : SameRanks d (limitNotice entered d) := by
  unfold limitNotice
  split
  · exact notifyAll_ranks ..
  · exact sameRanks_refl d

theorem followClock_ranks (hyst second minute blink limit : Bool) (c : Content) (d : Delivery) :
    SameRanks d (followClock hyst second minute blink limit c d).2 := by
  have passes : SameRanks d (if second then afterSecond hyst c d else (c, d)).2 := by
    split
    · exact afterSecond_ranks hyst c d
    · exact sameRanks_refl d
  have raised (b : Board) (yes : Bool) (cause : Cause) (test : Panel → Bool) (e : Delivery) :
      SameRanks e (if yes then e.raiseWhere b cause test else e) := by
    split
    · exact raiseWhere_ranks ..
    · exact sameRanks_refl e
  exact ((passes.trans (raised ..)).trans (raised ..)).trans (limitNotice_ranks limit _)

theorem setClock_ranks (t : Nat) (c : Content) (d : Delivery) : SameRanks d (setClock t c d).2.1 := by
  have steps : SameRanks d (stepClock t c d).2.1 := by
    simp only [stepClock_eq]
    exact followClock_ranks ..
  have slews (v : Int) : SameRanks d (slewClock v c d).2.1 := limitNotice_ranks ..
  unfold setClock
  simp only []
  split
  · exact sameRanks_refl d
  · split
    · simp only [startClock_eq]
      exact followClock_ranks ..
    · split
      · exact sameRanks_refl d
      · split
        · exact slews _
        · exact steps
    all_goals
      split
      · exact slews _
      · exact steps

theorem newDay_ranks (t : Nat) (c : Content) (d : Delivery) : SameRanks d (newDay t c d).2.1 := by
  by_cases ht : clockLimit < t
  · rw [newDay_refused t c d ht]
    exact sameRanks_refl d
  · simp only [newDay_eq t c d ht]
    exact ((raiseWhere_ranks ..).trans (evaluateWindows_ranks ..)).trans (followClock_ranks ..)

/-! ## Panels, links, groups and ports: the requests -/

theorem defineRequest_ranks (panel : Nat) (address : Byte) (link drop cls width height level refresh : Nat) (c : Content)
    (d : Delivery) : SameRanks d (defineRequest panel address link drop cls width height level refresh c d).2.1 := by
  unfold defineRequest definePanel
  split
  · split
    · split
      · exact sameRanks_refl d
      · split
        · exact sameRanks_refl d
        · exact sameRanks_of_ports rfl
    · exact sameRanks_refl d
  · exact sameRanks_refl d

theorem leaveGroup_ranks (b : Board) (p : PanelId) (d : Delivery) : SameRanks d (d.leaveGroup b p) :=
  (dropOut_ranks b p d).trans (sameRanks_of_ports rfl)

theorem removePanel_ranks (b : Board) (p : PanelId) (q : Panel) (d : Delivery) :
    SameRanks d (removePanel b p q d) := by
  unfold removePanel
  exact (((mapWorks_ranks _ d).trans (leaveGroup_ranks b p _)).trans (mapWorks_ranks _ _)).trans
    (checkConfirmations_ranks b _)

theorem removeRequest_ranks (panel : Nat) (c : Content) (d : Delivery) :
    SameRanks d (removeRequest panel c d).2.1 := by
  unfold removeRequest
  split
  · exact sameRanks_refl d
  · split
    · exact sameRanks_refl d
    · exact removePanel_ranks ..

theorem restoreRequest_ranks (panel : Nat) (c : Content) (d : Delivery) :
    SameRanks d (restoreRequest panel c d).2.1 := by
  unfold restoreRequest
  split
  · exact sameRanks_refl d
  · split
    · exact sameRanks_refl d
    · split
      · exact sameRanks_refl d
      · exact mapWorks_ranks ..

theorem setupLink_ranks (link divider timeout startLevel : Nat) (c : Content) (d : Delivery) :
    SameRanks d (setupLink link divider timeout startLevel c d).2.1 := by
  unfold setupLink
  split
  · exact sameRanks_refl d
  · split
    · exact sameRanks_refl d
    · exact mapWorks_ranks ..

theorem enableLink_ranks (link : Nat) (c : Content) (d : Delivery) : SameRanks d (enableLink link c d).2.1 := by
  unfold enableLink
  split
  · exact sameRanks_refl d
  · simp only []
    split
    · exact sameRanks_refl d
    · exact sameRanks_of_ports rfl

theorem disablePanel_ranks (b : Board) (d : Delivery) (p : PanelId) : SameRanks d (disablePanel b d p) := by
  unfold disablePanel
  split
  · exact sameRanks_refl d
  · exact (mapWorks_ranks _ d).trans (checkConfirmations_ranks b _)

theorem disableLink_ranks (link : Nat) (c : Content) (d : Delivery) : SameRanks d (disableLink link c d).2.1 := by
  unfold disableLink
  split
  · exact sameRanks_refl d
  · split
    · exact sameRanks_refl d
    · exact ((mapWorks_ranks _ d).trans (sameRanks_foldl _ (disablePanel_ranks c.board) _ _)).trans (dropOutAll_ranks ..)

theorem setupGroup_ranks (group : Nat) (members : List Nat) (deadline : Nat) (c : Content) (d : Delivery) :
    SameRanks d (setupGroup group members deadline c d).2.1 := by
  unfold setupGroup
  split
  · split
    · exact sameRanks_refl d
    · split
      · exact sameRanks_refl d
      · split
        · exact sameRanks_refl d
        · exact mapGroup_ranks ..
  · exact sameRanks_refl d

theorem armRequest_ranks (p : PortId) (group : Nat) (c : Content) (d : Delivery) :
    SameRanks d (armRequest p group c d).2.1 := by
  unfold armRequest
  split
  · exact sameRanks_refl d
  · split
    · exact sameRanks_refl d
    · split
      · exact sameRanks_refl d
      · exact groupArm_ranks ..

theorem takeNotice_ranks (p : PortId) (c : Content) (d : Delivery) : SameRanks d (takeNotice p c d).2.1 := by
  unfold takeNotice
  split
  · exact sameRanks_refl d
  · split
    · exact sameRanks_refl d
    · exact mapPort_ranks p (Port.removeNotice _) (fun _ => rfl) d

theorem maskNotices_ranks (p : PortId) (kinds : BitVec 16) (c : Content) (d : Delivery) :
    SameRanks d (maskNotices p kinds c d).2.1 := by
  unfold maskNotices
  split
  · exact sameRanks_refl d
  · exact mapPort_ranks p _ (by intro; rfl) d

/-! ## A select period (R182, R183) -/

theorem Port.refuseFrame_rank (st : Status) (kind tag : Byte) (pt : Port) :
    (pt.refuseFrame st kind tag).rank = pt.rank := by
  unfold Port.refuseFrame
  split <;> rfl

theorem Port.judged_rank (pt : Port) (j : Judgement) : (pt.judged j).rank = pt.rank := by
  unfold Port.judged
  split
  · rfl
  · exact Port.refuseFrame_rank ..
  · split
    · rfl
    · exact Port.refuseFrame_rank ..

theorem Port.headLeaves_rank (clocks : Nat) (pt : Port) : (pt.headLeaves clocks).rank = pt.rank := by
  unfold Port.headLeaves
  split
  · rfl
  · split
    · exact Port.drain_rank _
    · rfl

theorem Port.transfer_rank (p : PortId) (heights : List Nat) (fdi : List Bool) (pt : Port) :
    (pt.transfer p heights fdi).rank = pt.rank := by
  unfold Port.transfer
  split
  · rfl
  · exact (Port.judged_rank _ _).trans (Port.headLeaves_rank fdi.length pt)

/-! ## Frames, replies and deadlines: the events -/

theorem arriveNull_ranks (b : Board) (p : PanelId) (candidate : Bool) (d : Delivery) :
    SameRanks d (arriveNull b p candidate d) := by
  unfold arriveNull
  split
  · split
    · exact arrive_ranks ..
    · exact sameRanks_refl d
  · exact sameRanks_refl d

theorem copyComplete_ranks (n : LaneId) (c : Content) (d : Delivery) : SameRanks d (copyComplete n c d) := by
  unfold copyComplete
  simp only []
  split
  · exact sameRanks_refl d
  · split
    · exact sameRanks_refl d
    · split
      · exact sameRanks_refl d
      · exact mapWorks_ranks ..

theorem endCoding_ranks (n : LaneId) (c : Content) (d : Delivery) : SameRanks d (endCoding n c d) := by
  unfold endCoding
  simp only []
  split
  · split
    · exact sameRanks_refl d
    · split
      · split
        · exact mapWorks_ranks ..
        · exact (((mapWorks_ranks _ d).trans (mapWorks_ranks _ _)).trans (checkConfirmations_ranks ..)).trans
            (arriveNull_ranks ..)
      · exact sameRanks_refl d
  · exact sameRanks_refl d

theorem deliverPlain_ranks (b : Board) (p : PanelId) (q : Panel) (f : FrameRecord) (d : Delivery) :
    SameRanks d (deliverPlain b p q f d) := (mapWorks_ranks _ d).trans (checkConfirmations_ranks ..)

theorem deliverStaged_ranks (b : Board) (g : GroupId) (p : PanelId) (f : FrameRecord) (d : Delivery) :
    SameRanks d (deliverStaged b g p f d) := by
  unfold deliverStaged
  simp only []
  split
  · exact arrive_ranks ..
  · exact (arrive_ranks b g _ d).trans (mapWorks_ranks _ _)

theorem reportDelivered_ranks (b : Board) (f : FrameRecord) (d : Delivery) : SameRanks d (reportDelivered b f d) := by
  unfold reportDelivered
  split
  · exact sameRanks_refl d
  · split
    · exact sameRanks_refl d
    · split
      · exact deliverStaged_ranks ..
      · exact deliverPlain_ranks ..

theorem reportFailed_ranks (b : Board) (p : PanelId) (d : Delivery) : SameRanks d (reportFailed b p d) := by
  unfold reportFailed
  split
  · exact sameRanks_refl d
  · split
    · exact sameRanks_refl d
    · refine SameRanks.trans ?_ (checkConfirmations_ranks b _)
      have failed (q r : Panel) : SameRanks d
          (((d.mapWorks (Works.putPanel p q)).dropOut b p).mapWorks (Works.putPanel p r)) :=
        ((mapWorks_ranks _ d).trans (dropOut_ranks b p _)).trans (mapWorks_ranks _ _)
      split
      · exact (failed _ _).trans (notifyAll_ranks ..)
      · exact failed _ _

theorem reportRestarted_ranks (b : Board) (p : PanelId) (d : Delivery) : SameRanks d (reportRestarted b p d) := by
  unfold reportRestarted
  split
  · exact sameRanks_refl d
  · split
    · exact sameRanks_refl d
    · exact (mapWorks_ranks _ d).trans (checkConfirmations_ranks ..)

theorem reportOnline_ranks (b : Board) (l : LinkId) (p : PanelId) (d : Delivery) :
    SameRanks d (reportOnline b l p d) := by
  unfold reportOnline
  split
  · exact sameRanks_refl d
  · split
    · exact ((mapWorks_ranks _ d).trans (notifyAll_ranks ..)).trans (checkConfirmations_ranks ..)
    · exact sameRanks_refl d

theorem reportMismatch_ranks (l : LinkId) (p : PanelId) (d : Delivery) : SameRanks d (reportMismatch l p d) := by
  unfold reportMismatch
  split
  · exact sameRanks_refl d
  · split
    · exact (mapWorks_ranks _ d).trans (notifyAll_ranks ..)
    · exact sameRanks_refl d

theorem concludeFrame_ranks (l : LinkId) (o : LinkOutcome) (p : PanelId) (report : Delivery → Delivery) (d : Delivery)
    (h : SameRanks d (report d)) : SameRanks d (concludeFrame l o p report d) :=
  (h.trans (mapWorks_ranks _ _)).trans (mapWorks_ranks _ _)

theorem judgeAck_ranks (b : Board) (l : LinkId) (drop number : Byte) (returned : Digest) (d : Delivery) :
    SameRanks d (judgeAck b l drop number returned d) := by
  unfold judgeAck
  split
  · exact sameRanks_refl d
  · split
    · exact concludeFrame_ranks _ _ _ _ d (reportDelivered_ranks ..)
    · exact concludeFrame_ranks _ _ _ _ d (reportFailed_ranks ..)

theorem judgeNak_ranks (b : Board) (l : LinkId) (drop number reason : Byte) (d : Delivery) :
    SameRanks d (judgeNak b l drop number reason d) := by
  unfold judgeNak
  split
  · exact sameRanks_refl d
  · split
    · exact concludeFrame_ranks _ _ _ _ d (reportFailed_ranks ..)
    · split
      · exact concludeFrame_ranks _ _ _ _ d (reportFailed_ranks ..)
      · exact concludeFrame_ranks _ _ _ _ d (reportRestarted_ranks ..)

theorem judgeIdent_ranks (b : Board) (l : LinkId) (drop cls : Byte) (width height : Nat) (d : Delivery) :
    SameRanks d (judgeIdent b l drop cls width height d) := by
  unfold judgeIdent
  split
  · exact sameRanks_refl d
  · simp only []
    split
    · exact (reportOnline_ranks b l _ d).trans (mapWorks_ranks _ _)
    · exact (reportMismatch_ranks l _ d).trans (mapWorks_ranks _ _)

theorem judgeReply_ranks (b : Board) (l : LinkId) (reply : List Byte) (d : Delivery) :
    SameRanks d (judgeReply b l reply d) := by
  unfold judgeReply
  split
  · exact sameRanks_refl d
  · split
    · exact judgeAck_ranks ..
    · exact judgeNak_ranks ..
    · exact judgeIdent_ranks ..
    · exact sameRanks_refl d

theorem receiveChar_ranks (b : Board) (l : LinkId) (d : Delivery) (x : RxChar) :
    SameRanks d (receiveChar b l d x) := by
  unfold receiveChar
  simp only []
  split
  · exact sameRanks_refl d
  · split
    · exact (mapWorks_ranks _ d).trans (judgeReply_ranks ..)
    · exact mapWorks_ranks ..

theorem receive_ranks (l : LinkId) (rx : List RxChar) (c : Content) (d : Delivery) :
    SameRanks d (receive l rx c d) := sameRanks_foldl _ (receiveChar_ranks c.board l) rx d

theorem replyTimeout_ranks (l : LinkId) (c : Content) (d : Delivery) : SameRanks d (replyTimeout l c d) := by
  unfold replyTimeout
  simp only []
  split
  · split
    · exact (reach_ranks _ d).trans (concludeFrame_ranks _ _ _ _ _ (reportFailed_ranks ..))
    · exact sameRanks_refl d
  · exact sameRanks_refl d

theorem probeFallsDue_ranks (p : PanelId) (d : Delivery) : SameRanks d (probeFallsDue p d) := by
  unfold probeFallsDue
  split
  · exact sameRanks_refl d
  · split
    · exact sameRanks_refl d
    · split
      · exact (reach_ranks _ d).trans (mapWorks_ranks _ _)
      · exact sameRanks_refl d

theorem probeTimeout_ranks (l : LinkId) (d : Delivery) : SameRanks d (probeTimeout l d) := by
  unfold probeTimeout
  simp only []
  split
  · exact sameRanks_refl d
  · split
    · exact (reach_ranks _ d).trans (mapWorks_ranks _ _)
    · exact sameRanks_refl d

theorem endHoldoff_ranks (p : PanelId) (c : Content) (d : Delivery) : SameRanks d (endHoldoff p c d) := by
  unfold endHoldoff
  split
  · exact sameRanks_refl d
  · split
    · exact sameRanks_refl d
    · exact ((reach_ranks _ d).trans (mapWorks_ranks _ _)).trans (raise_ranks ..)

theorem reachRefresh_ranks (p : PanelId) (c : Content) (d : Delivery) : SameRanks d (reachRefresh p c d) := by
  unfold reachRefresh
  split
  · exact sameRanks_refl d
  · split
    · exact sameRanks_refl d
    · exact ((reach_ranks _ d).trans (mapWorks_ranks _ _)).trans (raise_ranks ..)

theorem lapseSwap_ranks (b : Board) (g : GroupId) (x : Swap) (d : Delivery) : SameRanks d (d.lapseSwap b g x) := by
  have noted (e : Delivery) : SameRanks e (e.notifyIncomplete g x) := by
    unfold Delivery.notifyIncomplete
    split
    · exact notify_ranks ..
    · exact notifyAll_ranks ..
  unfold Delivery.lapseSwap
  exact (((showSwap_ranks b x d).trans (noted _)).trans (sameRanks_foldl _ (raise_ranks b .content) _ _)).trans
    (endSwap_ranks ..)

/-! ## Every command -/

/-- The ranks after a command that answers. -/
def RanksKept (i : Instr) (s : State) : Prop := ∀ t, exec i s = .next t → SameRanks s.delivery t.delivery

theorem ranksKept_of_leaves {i : Instr} {s : State} {c : Content} {d : Delivery} (h : Leaves (exec i s) s c d)
    (k : SameRanks s.delivery d) : RanksKept i s := fun t e => by
  cases h.symm.trans e
  exact k.trans (sameRanks_of_ports (settleDelivery_ports ..))

theorem ranksKept_of_event {i : Instr} {s : State} (f : Content → Delivery → Delivery) (e : exec i s = event f s)
    (k : ∀ c d, SameRanks d (f c d)) : RanksKept i s :=
  ranksKept_of_leaves (e ▸ event_leaves f s) (k s.content s.delivery)

theorem ranksKept_of_contentEvent {i : Instr} {s : State} (f : Content → Delivery → Content × Delivery)
    (e : exec i s = contentEvent f s) (k : ∀ c d, SameRanks d (f c d).2) : RanksKept i s :=
  ranksKept_of_leaves (c := (f s.content s.delivery).1) (d := (f s.content s.delivery).2) e (k s.content s.delivery)

theorem taking_ranks (p : PortId) (s : State) : SameRanks s.delivery (s.taking p) :=
  mapPort_ranks p Port.startRequest (fun _ => rfl) s.delivery

theorem ranksKept_of_request {i : Instr} {s : State} (p : PortId)
    (f : Content → Delivery → Content × Delivery × Reply) (e : exec i s = request p i f s)
    (k : ∀ c d, SameRanks d (f c d).2.1) : RanksKept i s := by
  by_cases take : s.canTake p i
  · exact ranksKept_of_leaves (e ▸ request_taken p i f s take)
      (((taking_ranks p s).trans (k _ _)).trans (mapPort_ranks p _ (Port.finishRequest_rank i _) _))
  · intro t h
    rw [e, request_left p i f s take] at h
    cases h
    exact sameRanks_refl _

theorem ranksKept_of_supervised {i : Instr} {s : State} (p : PortId)
    (f : Content → Delivery → Content × Delivery × Reply) (e : exec i s = request p i (supervised p f) s)
    (k : ∀ c d, SameRanks d (f c d).2.1) : RanksKept i s :=
  ranksKept_of_request p (supervised p f) e (fun c d => by
    unfold supervised
    split
    · exact sameRanks_refl d
    · exact k c d)

theorem ranksKept_of_query {i : Instr} {s : State} (p : PortId) (f : Content → Delivery → Reply)
    (e : exec i s = query p i f s) : RanksKept i s :=
  ranksKept_of_request p _ e (fun _ d => sameRanks_refl d)

/-- An event that changes the works alone. -/
theorem ranksKept_of_works {i : Instr} {s : State} (f : Content → Delivery → Works → Works)
    (e : exec i s = event (fun c d => d.mapWorks (f c d)) s) : RanksKept i s :=
  ranksKept_of_event _ e (fun _ d => mapWorks_ranks _ d)

theorem exec_ranks (i : Instr) (s : State) (reset : ∀ rk0 rk1 rk2 rk3, i ≠ .resetn rk0 rk1 rk2 rk3) :
    RanksKept i s := by
  cases i with
  | resetn => exact absurd rfl (reset _ _ _ _)
  | transfer p fdi =>
    intro t h
    change execTransfer p fdi s = .next t at h
    unfold execTransfer at h
    split at h <;> cases h
    · exact sameRanks_refl _
    · exact mapPort_ranks p _ (Port.transfer_rank p _ fdi) _
  | depPut p list trip line destination scheduled =>
    exact ranksKept_of_request p
      (listRequest list trip (decide (line ≤ 63 ∧ destination ≤ 127 ∧ scheduled ≤ 107999))
        (putTrip p trip line destination scheduled)) rfl
      (fun c d => (listRequest_spares _ _ _ _ c d (fun l => putTrip_spares _ _ _ _ _ l c d)).ranks)
  | depPredict p list trip predicted =>
    exact ranksKept_of_request p (entryRequest list trip (predictTrip p predicted)) rfl
      (fun c d => (entryRequest_spares _ _ _ c d (fun l e => predictTrip_spares _ _ l e c d)).ranks)
  | depArrive p list trip =>
    exact ranksKept_of_request p (entryRequest list trip (arriveTrip p)) rfl
      (fun c d => (entryRequest_spares _ _ _ c d (fun l e => arriveTrip_spares _ l e c d)).ranks)
  | depDepart p list trip =>
    exact ranksKept_of_request p (entryRequest list trip departTrip) rfl
      (fun c d => (entryRequest_spares _ _ _ c d (fun l e => departTrip_spares l e c d)).ranks)
  | depCancel p list trip =>
    exact ranksKept_of_request p (entryRequest list trip (cancelTrip p)) rfl
      (fun c d => (entryRequest_spares _ _ _ c d (fun l e => cancelTrip_spares _ l e c d)).ranks)
  | depRead p list => exact ranksKept_of_query p (fun c _ => readList list c) rfl
  | destSet p index text =>
    exact ranksKept_of_request p (setDestination index text) rfl (fun c d => (setDestination_spares _ _ c d).ranks)
  | clockSet p t => exact ranksKept_of_request p (setClock t) rfl (setClock_ranks t)
  | newDay p t => exact ranksKept_of_supervised p (newDay t) rfl (newDay_ranks t)
  | clockRead p => exact ranksKept_of_query p (fun c _ => readClock c.clock) rfl
  | settings p pairs =>
    exact ranksKept_of_supervised p (changeSettings pairs) rfl (fun c d => (changeSettings_spares _ c d).ranks)
  | post p f =>
    exact ranksKept_of_request p (postPlacard p f) rfl (postPlacard_ranks p _)
  | amend p number f =>
    exact ranksKept_of_request p (placardRequest number (amendValid f) (amendPlacard p f)) rfl (fun c d =>
      placardRequest_ranks _ _ _ c d (fun n pl => amendPlacard_ranks p _ n pl c d))
  | textSet p number text =>
    exact ranksKept_of_request p (placardRequest number (textValid 160 text) (setText p text)) rfl (fun c d =>
      placardRequest_ranks _ _ _ c d (fun n pl => setText_ranks p _ n pl c d))
  | withdraw p number =>
    exact ranksKept_of_request p (placardRequest number true (withdrawPlacard p)) rfl (fun c d =>
      placardRequest_ranks _ _ _ c d (fun n pl => withdrawPlacard_ranks p n pl c d))
  | boardRead p number => exact ranksKept_of_query p (fun c _ => readPlacard number c.board) rfl
  | confirmShown p tag number timeout =>
    exact ranksKept_of_request p
      (taggedRequest p tag (fun t => placardRequest number true (openConfirmation p timeout t))) rfl
      (confirmRequest_ranks p tag number timeout)
  | take p tag hold wait =>
    exact ranksKept_of_request p (takeRequest p tag hold wait) rfl (fun c d => (takeRequest_spares _ _ _ _ c d).ranks)
  | release p hold =>
    exact ranksKept_of_request p (releaseRequest p hold) rfl (fun c d => (releaseRequest_spares _ _ c d).ranks)
  | handover p hold heir =>
    exact ranksKept_of_request p (handoverRequest p hold heir) rfl (fun c d => (handoverRequest_spares _ _ _ c d).ranks)
  | holdSetup p hold limit group =>
    exact ranksKept_of_supervised p (setupHold hold limit group) rfl (fun c d => (setupHold_spares _ _ _ c d).ranks)
  | holdRead p hold => exact ranksKept_of_query p (fun c d => readHold hold c d.works.now) rfl
  | holdExpiry hold =>
    exact ranksKept_of_contentEvent (expireHold hold) rfl (fun c d => (expireHold_spares hold c d).ranks)
  | waitTimeout hold port =>
    refine ranksKept_of_contentEvent (fun c d => match c.holds[hold].waiterOf port with
      | none => (c, d)
      | some x => endWait hold x .timeout (b1 hold.val) c (d.reach x.deadline)) rfl (fun c d => ?_)
    split
    · exact sameRanks_refl d
    · exact (reach_ranks _ d).trans (complete_ranks ..)
  | panelDefine p panel address link drop cls width height level refresh =>
    exact ranksKept_of_supervised p (defineRequest panel address link drop cls width height level refresh) rfl
      (defineRequest_ranks panel address link drop cls width height level refresh)
  | panelRemove p panel =>
    exact ranksKept_of_supervised p (removeRequest panel) rfl (removeRequest_ranks _)
  | panelRestore p panel =>
    exact ranksKept_of_supervised p (restoreRequest panel) rfl (restoreRequest_ranks _)
  | panelRead p panel => exact ranksKept_of_query p (fun _ d => readPanel panel d.works) rfl
  | fontSetup p font height =>
    exact ranksKept_of_supervised p (setupFont font height) rfl (fun c d => (setupFont_spares _ _ c d).ranks)
  | glyphLoad p font entries =>
    exact ranksKept_of_supervised p (loadGlyphs font entries) rfl (fun c d => (loadGlyphs_spares _ _ c d).ranks)
  | tokenSet p token text =>
    exact ranksKept_of_supervised p (setToken token text) rfl (fun c d => (setToken_spares _ _ c d).ranks)
  | tickerSetup p ticker font window period columns lowWater =>
    exact ranksKept_of_supervised p (setupTicker ticker font window period columns lowWater) rfl
      (fun c d => (setupTicker_spares _ _ _ _ _ _ c d).ranks)
  | tickerFeed p ticker chars =>
    exact ranksKept_of_request p (feedTicker p ticker chars) rfl (fun c d => (feedTicker_spares _ _ _ c d).ranks)
  | tickerFlush p ticker =>
    exact ranksKept_of_request p (flushTicker ticker) rfl (fun c d => (flushTicker_spares _ c d).ranks)
  | tickerRead p ticker => exact ranksKept_of_query p (fun c d => readTicker ticker c d.works.now) rfl
  | scrollStep ticker =>
    exact ranksKept_of_contentEvent (scrollTicker ticker) rfl (fun c d => (scrollTicker_spares ticker c d).ranks)
  | linkSetup p link divider timeout startLevel =>
    exact ranksKept_of_supervised p (setupLink link divider timeout startLevel) rfl (setupLink_ranks _ _ _ _)
  | linkEnable p link =>
    exact ranksKept_of_supervised p (enableLink link) rfl (enableLink_ranks _)
  | linkDisable p link =>
    exact ranksKept_of_supervised p (disableLink link) rfl (disableLink_ranks _)
  | linkRead p link => exact ranksKept_of_query p (fun _ d => readLink link d.works) rfl
  | groupSetup p group members deadline =>
    exact ranksKept_of_supervised p (setupGroup group members deadline) rfl (setupGroup_ranks _ _ _)
  | groupArm p group =>
    exact ranksKept_of_request p (armRequest p group) rfl (armRequest_ranks p _)
  | groupRead p group => exact ranksKept_of_query p (fun _ d => readGroup group d) rfl
  | groupDeadline group =>
    refine ranksKept_of_event (fun c d => match d.groups[group].swap with
      | none => d
      | some k => (d.reach k.deadline).lapseSwap c.board group k) rfl (fun c d => ?_)
    split
    · exact sameRanks_refl d
    · exact (reach_ranks _ d).trans (lapseSwap_ranks ..)
  | cancelSplit p tag =>
    exact ranksKept_of_request p (cancelSplit p tag) rfl (fun c d => (cancelSplit_spares _ _ c d).ranks)
  | noticeTake p => exact ranksKept_of_request p (takeNotice p) rfl (takeNotice_ranks p)
  | noticeMask p kinds =>
    exact ranksKept_of_request p (maskNotices p kinds) rfl (maskNotices_ranks p _)
  | partStatus p => exact ranksKept_of_query p partStatus rfl
  | boardClear p => exact ranksKept_of_supervised p clearAll rfl clearAll_ranks
  | countInterval =>
    intro t h
    cases h
    have counted : SameRanks s.delivery (countClock s.content (s.delivery.reach s.nextCount)).2 := by
      rw [countClock_eq]
      exact (reach_ranks _ _).trans (followClock_ranks ..)
    exact counted.trans (sameRanks_of_ports rfl)
  | confirmDeadline p tag =>
    refine ranksKept_of_event (fun c d => match d.confirmationOf p tag with
      | none => d
      | some k => (d.reach k.deadline).endConfirmation k (k.lapse c.board d.works)) rfl (fun c d => ?_)
    split
    · exact sameRanks_refl d
    · exact (reach_ranks _ d).trans (endConfirmation_ranks ..)
  | holdoffEnd panel => exact ranksKept_of_event (endHoldoff panel) rfl (endHoldoff_ranks panel)
  | refreshDeadline panel => exact ranksKept_of_event (reachRefresh panel) rfl (reachRefresh_ranks panel)
  | contextCopyComplete lane => exact ranksKept_of_event (copyComplete lane) rfl (copyComplete_ranks lane)
  | strip lane => exact ranksKept_of_works (fun c _ => stripStep lane c) rfl
  | fifoRoom lane sent =>
    refine ranksKept_of_event (fun _ d => match d.works.lanes[lane].context with
      | none => d
      | some x => d.mapWorks (Works.sendBytes x.link sent)) rfl (fun _ d => ?_)
    split
    · exact sameRanks_refl d
    · exact mapWorks_ranks ..
  | codingEnd lane => exact ranksKept_of_event (endCoding lane) rfl (endCoding_ranks lane)
  | frameStart link =>
    refine ranksKept_of_event
      (fun _ d => if d.works.mayStart link then d.mapWorks (Works.startFrame link) else d) rfl (fun _ d => ?_)
    split
    · exact mapWorks_ranks ..
    · exact sameRanks_refl d
  | underflow link => exact ranksKept_of_works (fun _ _ => Works.underflow link) rfl
  | breakEnd link => exact ranksKept_of_works (fun _ _ => Works.breakEnd link) rfl
  | lastByteSent link => exact ranksKept_of_works (fun _ _ => Works.lastByteSent link) rfl
  | ack link rx => exact ranksKept_of_event (receive link rx) rfl (receive_ranks link rx)
  | nak link rx => exact ranksKept_of_event (receive link rx) rfl (receive_ranks link rx)
  | replyTimeout link => exact ranksKept_of_event (replyTimeout link) rfl (replyTimeout_ranks link)
  | probeDue panel => exact ranksKept_of_event (fun _ => probeFallsDue panel) rfl (fun _ => probeFallsDue_ranks panel)
  | probeSent link => exact ranksKept_of_works (fun _ _ => Works.probeSent link) rfl
  | ident link rx => exact ranksKept_of_event (receive link rx) rfl (receive_ranks link rx)
  | probeTimeout link => exact ranksKept_of_event (fun _ => probeTimeout link) rfl (fun _ => probeTimeout_ranks link)
  | showEnd link => exact ranksKept_of_works (fun _ _ => Works.showEnd link) rfl
  | resetnLow =>
    intro t h
    cases h
    exact mapPorts_ranks _ (by intro; rfl) _

/-- Settles O14: the generation by the effect of the command on the board, the ranks command by command. -/
theorem generationAndRanksBetweenResets : Obligations.GenerationAndRanksBetweenResets := by
  unfold Obligations.GenerationAndRanksBetweenResets
  intro i s t reset bound h
  have generation : s.content.board.generation ≤ t.content.board.generation ∧
      t.content.board.generation ≤ 4294967295 := by
    rcases exec_effect i s t h with e | ⟨d, e⟩ <;> rw [e]
    · exact ⟨Nat.le_refl _, bound⟩
    · exact effect_generation i s.content d reset bound
  exact ⟨generation.1, generation.2, (exec_ranks i s reset t h).rank⟩

end Sys2Proof.Machine
end

section
/-! Matching by the masked address bits (R45), CANCEL_SPLIT and the place of a completion (R184 to R186). -/

namespace Sys2Proof.Machine

/-! ## Matching (R45) -/

/-- Two bytes agree under a mask exactly when their bits do where the mask has one. -/
theorem masked_eq_iff (x y mask : Byte) :
    x &&& mask = y &&& mask ↔ ∀ k < 8, mask.getLsbD k = true → x.getLsbD k = y.getLsbD k := by
  constructor
  · intro h k _ on
    have bit := congrArg (fun z : Byte => z.getLsbD k) h
    simpa [BitVec.getLsbD_and, on] using bit
  · intro h
    refine BitVec.eq_of_getLsbD_eq (fun k hk => ?_)
    rw [BitVec.getLsbD_and, BitVec.getLsbD_and]
    cases on : mask.getLsbD k with
    | false => rw [Bool.and_false, Bool.and_false]
    | true => rw [h k hk on]

theorem matchesPanel_iff (pl : Placard) (q : Panel) : pl.matchesPanel q = true ↔
    ∀ k < 8, pl.mask.getLsbD k = true → q.address.getLsbD k = pl.base.getLsbD k := by
  rw [Placard.matchesPanel, decide_eq_true_eq, masked_eq_iff]

/-- The placard that a POST describes, and what its fields are. -/
theorem postedPlacard_eq {p : PortId} {f : PostReq} {pl : Placard} (h : postedPlacard p f = some pl) :
    ∃ content background hold, contentOf f.content = some content ∧ backgroundOf f.background = some background ∧
      holdOf f.hold = some hold ∧ pl = {
        owner := p, base := f.base, mask := f.mask, x := min f.x 511, w := min f.w 512, y := min f.y 95
        h := min f.h 96, layer := f.layer, content := content, foreground := f.foreground, background := background
        blink := f.flags.testBit 0, invert := f.flags.testBit 1, windowStart := f.windowStart
        windowEnd := f.windowEnd, hold := hold, generation := 0, live := false } := by
  unfold postedPlacard at h
  split at h
  · next content background hold hc hb hh =>
    split at h
    · exact ⟨content, background, hold, hc, hb, hh, (Option.some.inj h).symm⟩
    · cases h
  · cases h

/-- Settles O35, bit by bit. -/
theorem matchingComparesTheMaskedBits : Obligations.MatchingComparesTheMaskedBits := by
  unfold Obligations.MatchingComparesTheMaskedBits
  intro pl q
  refine ⟨matchesPanel_iff pl q, fun base same => ?_, fun _ _ => rfl, fun p f new posted => ?_, fun w n undefined x hx => ?_⟩
  · rw [Bool.eq_iff_iff, matchesPanel_iff, matchesPanel_iff]
    exact forall₃_congr (fun k hk on => by rw [same k hk on])
  · obtain ⟨_, _, _, -, -, -, rfl⟩ := postedPlacard_eq posted
    exact ⟨rfl, rfl⟩
  · rintro rfl
    have defined := (mem_panelList w x.1 x.2).1 (List.mem_filter.1 hx).1
    rw [undefined] at defined
    cases defined

/-! ## Requests that refuse or answer without a change -/

/-- A request whose block refuses it. -/
theorem refuses_of_request (p : PortId) (i : Instr) (f : Content → Delivery → Content × Delivery × Reply) (s : State)
    (st : Status) (e : exec i s = request p i f s) (take : s.canTake p i)
    (k : f s.content (s.taking p) = (s.content, s.taking p, refuse st)) : Refuses p i st s :=
  replies_of_request p i f s _ _ _ e take k

/-- A supervisor request whose block refuses it. -/
theorem refuses_of_supervised (p : PortId) (i : Instr) (f : Content → Delivery → Content × Delivery × Reply) (s : State)
    (st : Status) (e : exec i s = request p i (supervised p f) s) (take : s.canTake p i) (rank : s.isSupervisor p)
    (k : f s.content (s.taking p) = (s.content, s.taking p, refuse st)) : Refuses p i st s :=
  replies_of_supervised p i f s _ _ _ e take rank k

/-- A request taken from the queue leaves the tags of its port as they are. -/
theorem taking_tags (p : PortId) (s : State) : ((s.taking p).ports[p]).tags = (s.delivery.ports[p]).tags := by
  rw [State.taking, Delivery.mapPort_ports, modifyAt_getFin_self]
  rfl

/-! ## CANCEL_SPLIT (R186) -/

theorem cancelSplit_free {p : PortId} {tag : Tag} {d : Delivery} (h : (d.ports[p]).tags[tag] = .free) (c : Content) :
    cancelSplit p tag.val c d = (c, d, refuse .notFound) := by
  simp only [cancelSplit, index?_val, h]

theorem cancelSplit_ended {p : PortId} {tag : Tag} {d : Delivery} (h : (d.ports[p]).tags[tag] = .ended) (c : Content) :
    cancelSplit p tag.val c d = (c, d, okWith [0x08]) := by
  simp only [cancelSplit, index?_val, h]
  rfl

theorem cancelSplit_take {p : PortId} {tag : Tag} {d : Delivery} {h : HoldId} {x : Waiter} {c : Content}
    (t : (d.ports[p]).tags[tag] = .take h) (w : (c.holds[h]).waiterOf p = some x) : cancelSplit p tag.val c d =
      (c.setHold h { c.holds[h] with waiters := leaveQueue x.port (c.holds[h]).waiters },
        d.complete x.port ⟨x.tag, 0x40, .cancelled, []⟩, okWith [0x07]) := by
  simp only [cancelSplit, index?_val, t, cancelWait, w]
  rfl

theorem cancelSplit_confirm {p : PortId} {tag : Tag} {d : Delivery} {k : Confirmation}
    (t : (d.ports[p]).tags[tag] = .confirm) (found : d.confirmationOf p tag = some k) (c : Content) :
    cancelSplit p tag.val c d = (c, d.endConfirmation k ⟨k.tag, 0x35, .cancelled, []⟩, okWith [0x07]) := by
  simp only [cancelSplit, index?_val, t, cancelConfirm, found]
  rfl

/-- Settles O23: the four states of a tag, and the lemmas on `offer` and `drain` for the place of a completion. -/
theorem cancelSplitEndsTheTag : Obligations.CancelSplitEndsTheTag := by
  unfold Obligations.CancelSplitEndsTheTag
  refine ⟨fun p x d => ⟨fun idle none room => ?_, fun waits => ?_⟩, fun pt idle => drain_eq pt idle, fun _ _ _ => rfl,
    fun p v s above take => ?_, fun p tag s => ?_⟩
  · simp only [Delivery.complete, Delivery.mapPort, modifyAt, offer_placed x _ idle none room]
    rfl
  · simp only [Delivery.complete, Delivery.mapPort, modifyAt, offer_waits x _ waits]
  · refine refuses_of_request p _ (cancelSplit p v) s _ rfl take ?_
    simp only [cancelSplit, index?_of_le above]
  · intro i take
    have tags := taking_tags p s
    refine ⟨fun free => ?_, fun ended => ?_, fun h x held waits => ?_, fun k held found => ?_⟩
    · exact refuses_of_request p i (cancelSplit p tag.val) s _ rfl take (cancelSplit_free (tags ▸ free) _)
    · exact replies_of_request p i (cancelSplit p tag.val) s _ _ _ rfl take (cancelSplit_ended (tags ▸ ended) _)
    · exact replies_of_request p i (cancelSplit p tag.val) s _ _ _ rfl take (cancelSplit_take (tags ▸ held) waits)
    · exact replies_of_request p i (cancelSplit p tag.val) s _ _ _ rfl take
        (cancelSplit_confirm (d := s.taking p) (tags ▸ held) found _)

end Sys2Proof.Machine
end

section
/-! POST: its checks in their order (R51), the fields of the placard (R43, R44), and what a change does to the board and to
the panels it matches (R52). -/

namespace Sys2Proof.Machine

/-! ## The fields of a request (R43, R44) -/

theorem index?_val_eq {n v : Nat} {i : Fin n} (h : index? n v = some i) : i.val = v := by
  unfold index? at h
  split at h
  · exact congrArg Fin.val (Option.some.inj h).symm
  · cases h

theorem alignOf_code {v : Nat} {a : Align} (h : alignOf v = some a) : a.code.toNat = v := by
  match v, h with
  | 0, h => cases h; rfl
  | 1, h => cases h; rfl
  | 2, h => cases h; rfl

theorem backgroundOf_eq {v : Nat} (h : v ≤ 4) : backgroundOf v = some (if v = 4 then none else some v) := by
  unfold backgroundOf
  by_cases clear : v = 4
  · rw [if_neg (by omega), if_pos clear, if_pos clear]
  · rw [if_pos (by omega), if_neg clear]

theorem holdOf_val {o : Option Nat} {h : Option HoldId} (k : holdOf o = some h) : h.map Fin.val = o := by
  cases o with
  | none => cases k; rfl
  | some v =>
    obtain ⟨i, hi, rfl⟩ := Option.map_eq_some_iff.1 k
    exact congrArg some (index?_val_eq hi)

/-- The content that a POST's kind fields make is of the kind and the fields given (R44). -/
theorem contentOf_given {r : ContentReq} {content : PlacardContent} (h : contentOf r = some content) :
    kindGiven r content := by
  cases r with
  | text chars font align =>
    simp only [contentOf] at h
    split at h
    · next f a hf ha =>
      split at h
      · cases h
        exact ⟨rfl, index?_val_eq hf, alignOf_code ha⟩
      · cases h
    · cases h
  | departures list firstRow rowCount rowFont badgeFont =>
    simp only [contentOf] at h
    split at h
    · next l r g hl hr hg =>
      split at h
      · cases h
        exact ⟨index?_val_eq hl, rfl, rfl, index?_val_eq hr, index?_val_eq hg⟩
      · cases h
    · cases h
  | ticker t =>
    obtain ⟨i, hi, rfl⟩ := Option.map_eq_some_iff.1 h
    exact index?_val_eq hi
  | clock font =>
    obtain ⟨i, hi, rfl⟩ := Option.map_eq_some_iff.1 h
    exact index?_val_eq hi
  | glyph font g =>
    simp only [contentOf] at h
    split at h
    · next f hf =>
      split at h
      · cases h
        exact ⟨index?_val_eq hf, rfl⟩
      · cases h
    · cases h
  | unknown code rest => cases h

/-- The cells that a POST asks for (R50). -/
def askedCells : ContentReq → Nat
  | .text chars _ _ => textCells chars
  | _ => 0

theorem cells_given {r : ContentReq} {content : PlacardContent} (h : kindGiven r content) : content.cells = askedCells r := by
  cases r <;> cases content <;> simp_all [kindGiven, PlacardContent.cells, askedCells, cellsFor, textCells]

/-! ## A change of one placard, as the rules state it (R52, R58 to R60) -/

/-- The board after placard `n` is stored anew. -/
def Board.store (b : Board) (n : PlacardId) (pl : Placard) (order : List PlacardId) (cells : Nat) : Board :=
  ⟨b.placards.set n (some pl), order, cells, nextGeneration b.generation⟩

theorem changePlacard_new (n : PlacardId) (new : Placard) (order : List PlacardId) (cells : Nat) (c : Content)
    (d : Delivery) : changePlacard n none new order cells c d =
      let pl := c.stamp new
      let b := c.board.store n pl order cells
      ({ c with board := b }, ((d.mapWorks (Works.recomputeInterest b pl.matchesPanel)).raiseWhere b
        (if pl.layer = 3 then .urgent else .content) pl.matchesPanel).checkPlacard b n) := by
  have touched : (fun q => new.matchesPanel q || Option.any (fun pl : Placard => pl.matchesPanel q) none) =
      (c.stamp new).matchesPanel := funext (fun q => Bool.or_false _)
  have cause : (if new.layer = 3 ∨ Option.any (fun pl : Placard => decide (pl.layer = 3)) none = true then Cause.urgent
      else .content) = if (c.stamp new).layer = 3 then .urgent else .content := if_congr (by simp [Content.stamp]) rfl rfl
  unfold changePlacard
  simp only [touched, cause]
  rfl

theorem changePlacard_old (n : PlacardId) (old new : Placard) (order : List PlacardId) (cells : Nat) (c : Content)
    (d : Delivery) : changePlacard n (some old) new order cells c d =
      let pl := c.stamp new
      let b := c.board.store n pl order cells
      let touched (q : Panel) : Bool := pl.matchesPanel q || old.matchesPanel q
      ({ c with board := b }, ((d.mapWorks (Works.recomputeInterest b touched)).raiseWhere b
        (if pl.layer = 3 ∨ old.layer = 3 then .urgent else .content) touched).checkPlacard b n) := by
  have cause : (if new.layer = 3 ∨ Option.any (fun pl : Placard => decide (pl.layer = 3)) (some old) = true then
      Cause.urgent else .content) = if (c.stamp new).layer = 3 ∨ old.layer = 3 then .urgent else .content :=
    if_congr (by simp [Content.stamp]) rfl rfl
  unfold changePlacard
  simp only [cause]
  rfl

/-- The response to a change that stored placard `n`. -/
theorem placardReply_store (n : PlacardId) (data : Placard → List Byte) (pl : Placard) (order : List PlacardId)
    (cells : Nat) (c : Content) :
    placardReply n data { c with board := c.board.store n pl order cells } = okWith (data pl) := by
  simp only [placardReply, Board.store, set_getFin_self]

/-- The place of a number that joins a layer, by the layers of the placards (R47). -/
theorem joinLayer_place (b : Board) (n : PlacardId) (layer : Nat) (order : List PlacardId) : ∃ front back,
    order = front ++ back ∧ b.joinLayer n layer order = front ++ n :: back ∧
      (order.Pairwise (fun m n => b.layerOf m ≤ b.layerOf n) →
        (∀ m ∈ front, ∀ x, b.placards[m] = some x → x.layer ≤ layer) ∧
          ∀ m ∈ back, ∀ x, b.placards[m] = some x → layer < x.layer) := by
  have layerOf {m : PlacardId} {x : Placard} (h : b.placards[m] = some x) : b.layerOf m = x.layer := by
    rw [layerOf_eq, h]
    rfl
  obtain ⟨front, back, split, joined, below, above⟩ := joinLayer_split b n layer order
  refine ⟨front, back, split, joined, fun sorted => ⟨fun m hm x hx => ?_, fun m hm x hx => ?_⟩⟩
  · exact layerOf hx ▸ below m hm
  · exact layerOf hx ▸ above sorted m hm

theorem freeNumber_eq {b : Board} {n : PlacardId} (free : b.placards[n] = none)
    (lower : ∀ m < n, b.placards[m] ≠ none) : b.freeNumber = some n :=
  find_finRange _ n (Option.isNone_iff_eq_none.2 free)
    (fun m hm => Option.isNone_eq_false_iff.2 (Option.isSome_iff_ne_none.2 (lower m hm)))

theorem rank_not_feed {s : State} {p : PortId} (h : s.isSupervisor p) : ((s.taking p).ports[p]).rank ≠ .feed := by
  rw [taking_rank, h]
  decide

/-! ## POST (R51, R53) -/

theorem postPlacard_refused_value {p : PortId} {f : PostReq} (h : ¬ postInRange f) (c : Content) (d : Delivery) :
    postPlacard p f c d = (c, d, refuse .badValue) := by
  have none : postedPlacard p f = none := Option.not_isSome_iff_eq_none.1 (mt (postedPlacard_isSome p f).1 h)
  simp only [postPlacard, none]

theorem postPlacard_refused_layer {p : PortId} {f : PostReq} {pl : Placard} (h : postedPlacard p f = some pl)
    {d : Delivery} (layer : pl.layer = 3) (rank : (d.ports[p]).rank = .feed) (c : Content) :
    postPlacard p f c d = (c, d, refuse .denied) := by
  simp only [postPlacard, h]
  rw [if_pos ⟨layer, rank⟩]

theorem postPlacard_refused_hold {p : PortId} {f : PostReq} {pl : Placard} (h : postedPlacard p f = some pl)
    {c : Content} {d : Delivery} (layer : ¬ (pl.layer = 3 ∧ (d.ports[p]).rank = .feed))
    (hold : ¬ c.holdMet p pl.hold = true) : postPlacard p f c d = (c, d, refuse .notOwner) := by
  simp only [postPlacard, h]
  rw [if_neg layer, if_pos (by simpa using hold)]

theorem postPlacard_refused_room {p : PortId} {f : PostReq} {pl : Placard} (h : postedPlacard p f = some pl)
    {c : Content} {d : Delivery} (layer : ¬ (pl.layer = 3 ∧ (d.ports[p]).rank = .feed))
    (hold : c.holdMet p pl.hold = true)
    (full : (∀ n : PlacardId, c.board.placards[n] ≠ none) ∨ 1024 < c.board.cellsUsed + pl.content.cells) :
    postPlacard p f c d = (c, d, refuse .noRoom) := by
  simp only [postPlacard, h]
  rw [if_neg layer, if_neg (by simp [hold])]
  split
  · rfl
  · next n found =>
    rcases full with full | full
    · exact absurd (freeNumber_free found) (full n)
    · exact if_pos full

theorem postPlacard_passed {p : PortId} {f : PostReq} {pl : Placard} (h : postedPlacard p f = some pl)
    {c : Content} {d : Delivery} (layer : ¬ (pl.layer = 3 ∧ (d.ports[p]).rank = .feed))
    (hold : c.holdMet p pl.hold = true) {n : PlacardId} (found : c.board.freeNumber = some n)
    (room : c.board.cellsUsed + pl.content.cells ≤ 1024) : postPlacard p f c d =
      let r := changePlacard n none pl (c.board.joinLayer n pl.layer c.board.drawOrder)
        (c.board.cellsUsed + pl.content.cells) c d
      (r.1, r.2, okWith (b1 n.val ++ [if (c.stamp pl).live then 0x01 else 0x02] ++
        b4 (nextGeneration c.board.generation))) := by
  simp only [postPlacard, h]
  rw [if_neg layer, if_neg (by simp [hold])]
  simp only [found]
  rw [if_neg (Nat.not_lt.2 room)]
  simp only [changePlacard_new, placardReply_store]
  rfl

/-- Settles O36: the checks of a POST one by one, then the placard of `postedPlacard_eq` as `changePlacard_new` stores it. -/
theorem postCreatesAPlacard : Obligations.PostCreatesAPlacard := by
  unfold Obligations.PostCreatesAPlacard
  intro p f s i b cells g take
  refine ⟨fun bad => refuses_of_request p i (postPlacard p f) s _ rfl take (postPlacard_refused_value bad _ _),
    fun inRange => ?_⟩
  obtain ⟨pl, posted⟩ := Option.isSome_iff_exists.1 ((postedPlacard_isSome p f).2 inRange)
  obtain ⟨content, background, hold, hc, hb, hh, fields⟩ := postedPlacard_eq posted
  have layer : pl.layer = f.layer := by rw [fields]
  have bound : pl.hold.map Fin.val = f.hold := by rw [fields]; exact holdOf_val hh
  have given : kindGiven f.content pl.content := by rw [fields]; exact contentOf_given hc
  have asked : pl.content.cells = cells := cells_given given
  have met : s.content.holdMet p pl.hold = true ↔ holdTakenBy p s.content f.hold := by rw [holdMet_iff, bound]
  refine ⟨fun top rank => ?_, fun granted => ⟨fun unmet => ?_, fun held => ⟨fun full => ?_, fun n free lower room => ?_⟩⟩⟩
  · exact refuses_of_request p i (postPlacard p f) s _ rfl take
      (postPlacard_refused_layer posted (layer.trans top) ((taking_rank p p s).trans rank) _)
  all_goals
    have may : ¬ (pl.layer = 3 ∧ ((s.taking p).ports[p]).rank = .feed) := fun ⟨top, feed⟩ =>
      rank_not_feed (granted (layer ▸ top)) feed
  · exact refuses_of_request p i (postPlacard p f) s _ rfl take (postPlacard_refused_hold posted may (mt met.1 unmet))
  · exact refuses_of_request p i (postPlacard p f) s _ rfl take
      (postPlacard_refused_room posted may (met.2 held) (asked.symm ▸ full))
  · obtain ⟨front, back, split, joined, place⟩ := joinLayer_place b n f.layer b.drawOrder
    refine ⟨s.content.stamp pl, front, back, split, fun ok => place ok.2.2, ?_⟩
    have answer := postPlacard_passed (d := s.taking p) posted may (met.2 held) (freeNumber_eq free lower)
      (asked.symm ▸ room)
    simp only [changePlacard_new, layer, asked] at answer
    have drawn : s.content.board.joinLayer n f.layer s.content.board.drawOrder = front ++ n :: back := joined
    rw [drawn] at answer
    have background : pl.background = if f.background = 4 then none else some f.background := by
      obtain ⟨-, -, -, -, code, -⟩ := inRange
      rw [fields]
      exact Option.some.inj (hb.symm.trans (backgroundOf_eq code))
    exact ⟨congrArg Placard.owner fields, congrArg Placard.base fields, congrArg Placard.mask fields,
      congrArg Placard.x fields, congrArg Placard.w fields, congrArg Placard.y fields, congrArg Placard.h fields, layer,
      given, congrArg Placard.foreground fields, background, congrArg Placard.blink fields,
      congrArg Placard.invert fields, congrArg Placard.windowStart fields, congrArg Placard.windowEnd fields, bound, rfl,
      rfl, replies_of_request p i (postPlacard p f) s _ _ _ rfl take answer⟩

end Sys2Proof.Machine
end

section
/-! AMEND, TEXT_SET and WITHDRAW: the checks in their order (R51), the fields that a request carries, keeps and removes
(R54, R55), and the placard freed (R56). -/

namespace Sys2Proof.Machine

/-! ## The placard that a request names (R51) -/

theorem placardRequest_above {number : Nat} (h : 191 < number) (valid : Bool)
    (f : PlacardId → Placard → Content → Delivery → Content × Delivery × Reply) (c : Content) (d : Delivery) :
    placardRequest number valid f c d = (c, d, refuse .badValue) := by
  simp only [placardRequest, index?_of_le h]

theorem placardRequest_invalid (number : Nat) {valid : Bool} (h : valid = false)
    (f : PlacardId → Placard → Content → Delivery → Content × Delivery × Reply) (c : Content) (d : Delivery) :
    placardRequest number valid f c d = (c, d, refuse .badValue) := by
  unfold placardRequest
  split
  · rfl
  · rw [h]
    rfl

theorem placardRequest_free {n : PlacardId} {c : Content} (h : c.board.placards[n] = none)
    (f : PlacardId → Placard → Content → Delivery → Content × Delivery × Reply) (d : Delivery) :
    placardRequest n.val true f c d = (c, d, refuse .notFound) := by
  simp only [placardRequest, index?_val, Bool.not_true, h]
  rfl

theorem placardRequest_stored {n : PlacardId} {pl : Placard} {c : Content} (h : c.board.placards[n] = some pl)
    (f : PlacardId → Placard → Content → Delivery → Content × Delivery × Reply) (d : Delivery) :
    placardRequest n.val true f c d = f n pl c d := by
  simp only [placardRequest, index?_val, Bool.not_true, h]
  rfl

/-! ## The text of a placard and its cells (R50) -/

/-- The text of a placard, empty for a kind other than TEXT. -/
def PlacardContent.words : PlacardContent → List Nat
  | .text chars _ _ => chars
  | _ => []

theorem textCells_nil : textCells [] = 0 := by
  decide

theorem cells_words (content : PlacardContent) : content.cells = textCells content.words := by
  cases content with
  | text => rfl
  | departures => exact textCells_nil.symm
  | ticker => exact textCells_nil.symm
  | clock => exact textCells_nil.symm
  | glyph => exact textCells_nil.symm

/-! ## The fields of an AMEND (R54) -/

theorem pick_val {n : Nat} (v : Option Nat) (old : Fin n) (h : ∀ x, v = some x → x < n) :
    (pick v old).val = v.getD old.val := by
  cases v with
  | none => rfl
  | some x => simp only [pick, Option.bind_some, index?_of_lt (h x rfl), Option.getD_some]

theorem pickAlign_code (v : Option Nat) (old : Align) (h : ∀ x, v = some x → x ≤ 2) :
    ((v.bind alignOf).getD old).code.toNat = v.getD old.code.toNat := by
  cases v with
  | none => rfl
  | some x =>
    obtain ⟨a, ha⟩ := Option.isSome_iff_exists.1 ((alignOf_isSome x).2 (h x rfl))
    simp only [Option.bind_some, ha, Option.getD_some, alignOf_code ha]

theorem pickBackground (v : Option Nat) (old : Option Nat) (h : ∀ x, v = some x → x ≤ 4) :
    (v.bind backgroundOf).getD old = (v.map (fun x => if x = 4 then none else some x)).getD old := by
  cases v with
  | none => rfl
  | some x => simp only [Option.bind_some, backgroundOf_eq (h x rfl), Option.map_some, Option.getD_some]

theorem changedField_eq (change : Change) (stored : Option Nat) :
    changedField change stored = amendedField change stored := by
  cases change <;> rfl

/-- The hold of a placard after an AMEND (R54). -/
def amendedHold (change : Change) (stored : Option HoldId) : Option HoldId :=
  match change with
  | .keep => stored
  | .set v => index? 32 v
  | .remove => none

theorem amendedHold_val (change : Change) (stored : Option HoldId) (h : ∀ v, change = .set v → v ≤ 31) :
    (amendedHold change stored).map Fin.val = amendedField change (stored.map Fin.val) := by
  cases change with
  | keep => rfl
  | remove => rfl
  | set v => simp only [amendedHold, amendedField, index?_of_lt (Nat.lt_succ_of_le (h v rfl)), Option.map_some]

theorem isSome_false {α : Type} {o : Option α} : o.isSome = false ↔ o = none := Option.isSome_eq_false_iff.trans
  Option.isNone_iff_eq_none

/-- A content is amended exactly when no field carried is of another kind (R44). -/
theorem amendedContent_isSome (f : AmendReq) (content : PlacardContent) :
    (amendedContent f content).isSome = true ↔ amendFitsKind f content := by
  have guarded (bad : Bool) (new : PlacardContent) :
      ((if bad then none else some new).isSome = true) ↔ bad = false := by cases bad <;> simp
  cases content <;>
    simp only [amendedContent, amendFitsKind, guarded, Bool.or_eq_false_iff, isSome_false, and_assoc]

/-- An amended content keeps its kind and each kind field that is not carried (R54). -/
theorem amendedContent_amended {f : AmendReq} {old new : PlacardContent} (inRange : amendInRange f)
    (h : amendedContent f old = some new) : kindAmended f old new := by
  obtain ⟨-, -, font, align, list, -, -, rowFont, badgeFont, ticker, -⟩ := inRange
  have third {v : Option Nat} (k : ∀ x, v = some x → x ≤ 3) : ∀ x, v = some x → x < 4 :=
    fun x hx => Nat.lt_succ_of_le (k x hx)
  cases old with
  | text chars font' align' =>
    simp only [amendedContent] at h
    split at h
    · cases h
    · cases h
      exact ⟨rfl, pick_val _ _ (third font), pickAlign_code _ _ align⟩
  | departures list' firstRow rowCount rowFont' badgeFont' =>
    simp only [amendedContent] at h
    split at h
    · cases h
    · cases h
      exact ⟨pick_val _ _ (fun x hx => Nat.lt_succ_of_le (list x hx)), rfl, rfl, pick_val _ _ (third rowFont),
        pick_val _ _ (third badgeFont)⟩
  | ticker t =>
    simp only [amendedContent] at h
    split at h
    · cases h
    · cases h
      exact pick_val _ _ (fun x hx => Nat.lt_succ_of_le (ticker x hx))
  | clock font' =>
    simp only [amendedContent] at h
    split at h
    · cases h
    · cases h
      exact pick_val _ _ (third font)
  | glyph font' g =>
    simp only [amendedContent] at h
    split at h
    · cases h
    · cases h
      exact ⟨pick_val _ _ (third font), rfl⟩

/-- The text of an amended content. -/
theorem words_amended {f : AmendReq} {old new : PlacardContent} (fits : amendFitsKind f old)
    (h : kindAmended f old new) : new.words = f.text.getD old.words := by
  cases old <;> cases new <;> simp_all [kindAmended, amendFitsKind, PlacardContent.words]

/-- The placard that an AMEND makes of `old` with content `content`: each field carried has its value, each named absent is
removed, and each not carried is kept (R54). -/
def amendedAs (f : AmendReq) (old : Placard) (content : PlacardContent) : Placard :=
  { old with
    base := f.base.getD old.base
    mask := f.mask.getD old.mask
    x := (f.x.map (min 511)).getD old.x
    w := (f.w.map (min 512)).getD old.w
    y := (f.y.map (min 95)).getD old.y
    h := (f.h.map (min 96)).getD old.h
    layer := f.layer.getD old.layer
    content := content
    foreground := f.foreground.getD old.foreground
    background := (f.background.bind backgroundOf).getD old.background
    blink := (f.flags.map (fun v => v.testBit 0)).getD old.blink
    invert := (f.flags.map (fun v => v.testBit 1)).getD old.invert
    windowStart := amendedField f.windowStart old.windowStart
    windowEnd := amendedField f.windowEnd old.windowEnd
    hold := amendedHold f.hold old.hold }

/-- An AMEND passes its checks on the kind and on the window (R43 note 2, R44). -/
def amendFits (f : AmendReq) (old : Placard) : Prop :=
  amendFitsKind f old.content ∧
    inOrder (amendedField f.windowStart old.windowStart) (amendedField f.windowEnd old.windowEnd)

theorem amendedPlacard_eq (f : AmendReq) (old : Placard) : amendedPlacard f old =
    match amendedContent f old.content with
    | none => none
    | some content =>
      if windowOrdered (amendedField f.windowStart old.windowStart) (amendedField f.windowEnd old.windowEnd) then
        some (amendedAs f old content)
      else none := by
  unfold amendedPlacard amendedAs
  simp only [changedField_eq]
  rfl

theorem amendedPlacard_none {f : AmendReq} {old : Placard} (h : ¬ amendFits f old) : amendedPlacard f old = none := by
  rw [amendedPlacard_eq]
  split
  · rfl
  · next content amended =>
    refine if_neg (fun ordered => h ⟨(amendedContent_isSome f old.content).1 ?_, (windowOrdered_iff _ _).1 ordered⟩)
    rw [amended]
    rfl

theorem amendedPlacard_some {f : AmendReq} {old : Placard} (h : amendFits f old) :
    ∃ content, amendedContent f old.content = some content ∧ amendedPlacard f old = some (amendedAs f old content) := by
  obtain ⟨kind, ordered⟩ := h
  obtain ⟨content, amended⟩ := Option.isSome_iff_exists.1 ((amendedContent_isSome f old.content).2 kind)
  refine ⟨content, amended, ?_⟩
  rw [amendedPlacard_eq, amended]
  exact if_pos ((windowOrdered_iff _ _).2 ordered)

/-! ## The checks of an AMEND (R51) -/

section
variable {p : PortId} {f : AmendReq} {n : PlacardId} {old new : Placard} {c : Content} {d : Delivery}

theorem amendPlacard_refused_fields (h : amendedPlacard f old = none) :
    amendPlacard p f n old c d = (c, d, refuse .badValue) := by
  simp only [amendPlacard, h]

theorem amendPlacard_refused_layer (h : amendedPlacard f old = some new)
    (layer : new.layer = 3 ∧ old.layer ≠ 3 ∧ (d.ports[p]).rank = .feed) :
    amendPlacard p f n old c d = (c, d, refuse .denied) := by
  simp only [amendPlacard, h]
  exact if_pos layer

theorem amendPlacard_refused_owner (h : amendedPlacard f old = some new)
    (layer : ¬ (new.layer = 3 ∧ old.layer ≠ 3 ∧ (d.ports[p]).rank = .feed))
    (other : old.owner ≠ p ∨ ¬ (c.holdMet p old.hold = true ∧ c.holdMet p new.hold = true)) :
    amendPlacard p f n old c d = (c, d, refuse .notOwner) := by
  simp only [amendPlacard, h]
  rw [if_neg layer]
  by_cases owner : old.owner = p
  · rw [if_neg (not_not.2 owner), if_pos (by simpa [owner, -not_and, not_and_or] using other)]
  · exact if_pos owner

theorem amendPlacard_met (h : amendedPlacard f old = some new)
    (layer : ¬ (new.layer = 3 ∧ old.layer ≠ 3 ∧ (d.ports[p]).rank = .feed)) (owner : old.owner = p)
    (met : c.holdMet p old.hold = true ∧ c.holdMet p new.hold = true) : amendPlacard p f n old c d =
      if 1024 < c.board.cellsAfter old new then (c, d, refuse .noRoom)
      else
        let order := if new.layer = old.layer then c.board.drawOrder
          else c.board.joinLayer n new.layer (leaveOrder n c.board.drawOrder)
        let r := changePlacard n (some old) new order (c.board.cellsAfter old new) c d
        (r.1, r.2, okWith (b4 (nextGeneration c.board.generation) ++ [if (c.stamp new).live then 0x01 else 0x02])) := by
  obtain ⟨before, after⟩ := met
  simp only [amendPlacard, h]
  rw [if_neg layer, if_neg (not_not.2 owner), if_neg (by simp [before, after])]
  simp only [changePlacard_old, placardReply_store]
  rfl

end

/-! ## The checks of a TEXT_SET (R51, R55) -/

section
variable {p : PortId} {text : List Nat} {n : PlacardId} {old : Placard} {c : Content} {d : Delivery}

theorem setText_refused_kind (h : old.content.isText = false) :
    setText p text n old c d = (c, d, refuse .state) := by
  unfold setText
  split
  · rfl
  · next content replaced =>
    obtain ⟨_, _, _, e, -⟩ := withText_content replaced
    rw [e] at h
    cases h

theorem setText_refused_owner {chars : List Nat} {font : FontId} {align : Align} (h : old.content = .text chars font align)
    (other : old.owner ≠ p ∨ ¬ c.holdMet p old.hold = true) : setText p text n old c d = (c, d, refuse .notOwner) := by
  simp only [setText, h, PlacardContent.withText]
  by_cases owner : old.owner = p
  · rw [if_neg (not_not.2 owner), if_pos (by simpa [owner] using other)]
  · exact if_pos owner

theorem setText_met {chars : List Nat} {font : FontId} {align : Align} (h : old.content = .text chars font align)
    (owner : old.owner = p) (met : c.holdMet p old.hold = true) : setText p text n old c d =
      let new := { old with content := .text text font align }
      if 1024 < c.board.cellsAfter old new then (c, d, refuse .noRoom)
      else
        let r := changePlacard n (some old) new c.board.drawOrder (c.board.cellsAfter old new) c d
        (r.1, r.2, okWith (b4 (nextGeneration c.board.generation))) := by
  simp only [setText, h, PlacardContent.withText]
  rw [if_neg (not_not.2 owner), if_neg (by simp [met])]
  simp only [changePlacard_old, placardReply_store]
  rfl

end

/-- The cells in use after the text of a placard is replaced (R50). -/
theorem cellsAfter_words (b : Board) (old new : Placard) {text : List Nat} (h : new.content.words = text) :
    b.cellsAfter old new = b.cellsUsed - textCells old.content.words + textCells text := by
  rw [Board.cellsAfter, cells_words, cells_words, h]

end Sys2Proof.Machine
end

section
/-! AMEND and TEXT_SET settled (R51, R54, R55). -/

namespace Sys2Proof.Machine

/-! ## A request about a placard, from the queue to its reply -/

section
variable {p : PortId} {i : Instr} {number : Nat} {valid : Bool} {s : State}
  {f : PlacardId → Placard → Content → Delivery → Content × Delivery × Reply}

/-- A request about a placard whose number or one of whose values is out of range. -/
theorem refuses_of_badPlacard (e : exec i s = request p i (placardRequest number valid f) s) (take : s.canTake p i)
    (bad : 191 < number ∨ valid = false) : Refuses p i .badValue s :=
  refuses_of_request p i (placardRequest number valid f) s _ e take
    (bad.elim (fun above => placardRequest_above above valid f _ _) (fun h => placardRequest_invalid number h f _ _))

/-- A request about a FREE placard. -/
theorem refuses_of_freePlacard {n : PlacardId} (e : exec i s = request p i (placardRequest n.val valid f) s)
    (take : s.canTake p i) (ok : valid = true) (free : s.content.board.placards[n] = none) :
    Refuses p i .notFound s := by
  subst ok
  exact refuses_of_request p i (placardRequest n.val true f) s _ e take (placardRequest_free free f _)

/-- A request about a placard that is there: what the placard's block answers. -/
theorem replies_of_placard {n : PlacardId} {old : Placard} {r : Reply} {c : Content} {d : Delivery}
    (e : exec i s = request p i (placardRequest n.val valid f) s) (take : s.canTake p i) (ok : valid = true)
    (stored : s.content.board.placards[n] = some old) (h : f n old s.content (s.taking p) = (c, d, r)) :
    Replies p i r s c d := by
  subst ok
  exact replies_of_request p i (placardRequest n.val true f) s _ _ _ e take
    ((placardRequest_stored stored f _).trans h)

end

/-! ## The place and the background of an amended placard (R43, R47) -/

/-- The place of an amended placard in its layer (R47). -/
theorem rejoin_place (b : Board) (n : PlacardId) (layer : Nat) : ∃ front back,
    b.drawOrder.filter (fun m => decide (m ≠ n)) = front ++ back ∧
      (orderOk b → (∀ m ∈ front, ∀ x, b.placards[m] = some x → x.layer ≤ layer) ∧
        ∀ m ∈ back, ∀ x, b.placards[m] = some x → layer < x.layer) ∧
      b.joinLayer n layer (leaveOrder n b.drawOrder) = front ++ n :: back := by
  obtain ⟨front, back, split, joined, place⟩ := joinLayer_place b n layer (leaveOrder n b.drawOrder)
  exact ⟨front, back, split, fun ok => place (ok.2.2.filter _), joined⟩

theorem amendedAs_background {f : AmendReq} (inRange : amendInRange f) (old : Placard) (content : PlacardContent) :
    (amendedAs f old content).background =
      (f.background.map (fun v => if v = 4 then none else some v)).getD old.background := by
  refine pickBackground _ _ ?_
  obtain ⟨-, -, -, -, -, -, -, -, -, -, -, -, back, -⟩ := inRange
  exact back

theorem amendedAs_hold {f : AmendReq} (inRange : amendInRange f) (old : Placard) (content : PlacardContent) :
    (amendedAs f old content).hold.map Fin.val = amendedField f.hold (old.hold.map Fin.val) := by
  refine amendedHold_val _ _ ?_
  obtain ⟨-, -, -, -, -, -, -, -, -, -, -, -, -, -, -, -, hold⟩ := inRange
  exact hold

/-- Settles O37: the checks of AMEND and of TEXT_SET one by one, then the placard of `amendedAs` as `changePlacard_old` stores
it. -/
theorem amendAndTextSetChangeThePlacard : Obligations.AmendAndTextSetChangeThePlacard := by
  unfold Obligations.AmendAndTextSetChangeThePlacard
  refine ⟨fun p number f s => ?_, fun p number text s => ?_, fun p n old s => ?_⟩
  · intro i take
    refine ⟨fun bad => ?_, fun n named inRange free => ?_⟩
    · exact refuses_of_badPlacard (f := amendPlacard p f) rfl take
        (bad.imp_right (fun h => Bool.eq_false_iff.2 (mt (amendValid_iff f).1 h)))
    · subst named
      exact refuses_of_freePlacard (f := amendPlacard p f) rfl take ((amendValid_iff f).2 inRange) free
  · intro i take
    refine ⟨fun bad => ?_, fun n named short codes free => ?_⟩
    · refine refuses_of_badPlacard (f := setText p text) rfl take (bad.imp_right (fun h => Bool.eq_false_iff.2 ?_))
      rw [Ne, textValid_iff, not_and_or, Nat.not_le]
      exact h.imp_right (fun ⟨x, mem, big⟩ all => absurd (all x mem) (Nat.not_le.2 big))
    · subst named
      exact refuses_of_freePlacard (f := setText p text) rfl take ((textValid_iff 160 text).2 ⟨short, codes⟩) free
  · intro b g text cells stamped touched raised stored
    have heldBefore : s.content.holdMet p old.hold = true ↔ holdTakenBy p s.content (old.hold.map Fin.val) :=
      holdMet_iff s.content p old.hold
    refine ⟨fun f => ?_, fun words => ?_⟩
    · intro i layer start stop hold fits met take inRange
      have answers {c : Content} {d : Delivery} {r : Reply} := replies_of_placard (r := r) (c := c) (d := d)
        (f := amendPlacard p f) (i := i) rfl take ((amendValid_iff f).2 inRange) stored
      refine ⟨fun unfit => answers (amendPlacard_refused_fields (amendedPlacard_none unfit)), fun fit => ?_⟩
      obtain ⟨content, made, amended⟩ := amendedPlacard_some fit
      have kind := amendedContent_amended inRange made
      have heldAfter : s.content.holdMet p (amendedAs f old content).hold = true ↔ holdTakenBy p s.content hold := by
        rw [holdMet_iff, amendedAs_hold inRange]
      refine ⟨fun top low rank => answers (amendPlacard_refused_layer amended
        ⟨top, low, (taking_rank p p s).trans rank⟩), fun granted => ?_⟩
      have may : ¬ ((amendedAs f old content).layer = 3 ∧ old.layer ≠ 3 ∧ ((s.taking p).ports[p]).rank = .feed) :=
        fun ⟨top, low, feed⟩ => rank_not_feed (granted top low) feed
      refine ⟨fun other => answers (amendPlacard_refused_owner amended may
        (other.imp_right (mt (And.imp heldBefore.1 heldAfter.1)))), fun owner held => ?_⟩
      have used : s.content.board.cellsAfter old (amendedAs f old content) = cells (f.text.getD text) :=
        cellsAfter_words b old _ (words_amended fit.1 kind)
      have answer := amendPlacard_met (n := n) amended may owner ⟨heldBefore.2 held.1, heldAfter.2 held.2⟩
      rw [used] at answer
      refine ⟨fun full => answers (answer.trans (if_pos full)), fun room => ?_⟩
      obtain ⟨front, back, split, place, joined⟩ := rejoin_place b n layer
      have drawn : s.content.board.joinLayer n (amendedAs f old content).layer
          (leaveOrder n s.content.board.drawOrder) = front ++ n :: back := joined
      simp only [if_neg (Nat.not_lt.2 room), changePlacard_old, drawn] at answer
      exact ⟨s.content.stamp (amendedAs f old content), front, back, split, place, rfl, rfl, rfl, rfl, rfl, rfl, rfl, rfl,
        kind, rfl, amendedAs_background inRange old content, rfl, rfl, rfl, rfl, amendedAs_hold inRange old content,
        ⟨rfl, rfl⟩, answers answer⟩
    · intro i take short codes
      have answers {c : Content} {d : Delivery} {r : Reply} := replies_of_placard (r := r) (c := c) (d := d)
        (f := setText p words) (i := i) rfl take ((textValid_iff 160 words).2 ⟨short, codes⟩) stored
      refine ⟨fun other => answers (setText_refused_kind other), fun chars font align kind => ?_⟩
      intro met
      refine ⟨fun other => answers (setText_refused_owner kind (other.imp_right (mt heldBefore.1))),
        fun owner held => ?_⟩
      have used : s.content.board.cellsAfter old { old with content := .text words font align } = cells words :=
        cellsAfter_words b old _ rfl
      have answer := setText_met (n := n) (text := words) (d := s.taking p) kind owner (heldBefore.2 held)
      dsimp only at answer
      rw [used] at answer
      refine ⟨fun full => answers (answer.trans (if_pos full)), fun room => ?_⟩
      simp only [if_neg (Nat.not_lt.2 room), changePlacard_old] at answer
      exact ⟨s.content.stamp { old with content := .text words font align }, ⟨rfl, rfl⟩, rfl, answers answer⟩

end Sys2Proof.Machine
end

section
/-! WITHDRAW settled (R51, R56). -/

namespace Sys2Proof.Machine

section
variable {p : PortId} {n : PlacardId} {old : Placard} {c : Content} {d : Delivery}

theorem withdrawPlacard_refused (rank : (d.ports[p]).rank = .feed)
    (other : old.owner ≠ p ∨ ¬ c.holdMet p old.hold = true) :
    withdrawPlacard p n old c d = (c, d, refuse .notOwner) := by
  simp only [withdrawPlacard, rank]
  by_cases owner : old.owner = p
  · rw [if_neg (fun h => h.1 owner), if_pos (by simpa [owner] using other)]
  · rw [if_pos ⟨owner, rfl⟩]

theorem withdrawPlacard_met (may : (d.ports[p]).rank = .supervisor ∨ old.owner = p ∧ c.holdMet p old.hold = true) :
    withdrawPlacard p n old c d = ((removePlacard n old c d).1, (removePlacard n old c d).2, okWith []) := by
  rcases may with rank | ⟨owner, met⟩
  · simp only [withdrawPlacard, rank]
    simp
  · simp [withdrawPlacard, owner, met]

end

/-- No confirmation of a placard is left after each of them is cancelled (R63). -/
theorem cancelConfirmations_none_left (n : PlacardId) (d : Delivery) : ∀ k ∈ ((d.confirmations.filter
    (fun k => decide (k.placard = n))).foldl Delivery.cancelConfirmation d).confirmations, k.placard ≠ n := by
  intro k mem about
  rw [cancelConfirmations_eq] at mem
  obtain ⟨open_, other⟩ := List.mem_filter.1 mem
  exact of_decide_eq_true other (List.mem_filter.2 ⟨open_, decide_eq_true about⟩)

/-- Settles O38: the owner check of a WITHDRAW, and `removePlacard` as the rules state it. -/
theorem withdrawFreesThePlacard : Obligations.WithdrawFreesThePlacard := by
  unfold Obligations.WithdrawFreesThePlacard
  refine ⟨fun p number s above take => refuses_of_badPlacard (f := withdrawPlacard p) rfl take (.inl above),
    fun p n s => ?_⟩
  intro i b take
  refine ⟨fun free => refuses_of_freePlacard (f := withdrawPlacard p) rfl take rfl free, fun old stored => ?_⟩
  intro met b' raised d
  have answers {c : Content} {d : Delivery} {r : Reply} := replies_of_placard (r := r) (c := c) (d := d)
    (f := withdrawPlacard p) (i := i) rfl take rfl stored
  have held : s.content.holdMet p old.hold = true ↔ met := holdMet_iff s.content p old.hold
  have rank : ((s.taking p).ports[p]).rank = (s.delivery.ports[p]).rank := taking_rank p p s
  refine ⟨fun feed other => answers (withdrawPlacard_refused (rank.trans feed) (other.imp_right (mt held.1))),
    fun may => ⟨answers ?_, cancelConfirmations_none_left n raised⟩⟩
  exact withdrawPlacard_met (may.imp rank.trans (And.imp_right held.2))

end Sys2Proof.Machine
end

section
/-! CONFIRM_SHOWN, the check of the confirmations and their deadlines (R61 to R63). -/

namespace Sys2Proof.Machine

/-! ## A split request, from the queue to its reply (R185) -/

section
variable {p : PortId} {i : Instr} {s : State} {f : Tag → Content → Delivery → Content × Delivery × Reply}

theorem refuses_of_badTag {v : Nat} (e : exec i s = request p i (taggedRequest p v f) s) (take : s.canTake p i)
    (above : 15 < v) : Refuses p i .badValue s := by
  refine refuses_of_request p i (taggedRequest p v f) s _ e take ?_
  simp only [taggedRequest, index?_of_le above]

theorem refuses_of_tagInUse {tag : Tag} (e : exec i s = request p i (taggedRequest p tag.val f) s) (take : s.canTake p i)
    (used : (s.delivery.ports[p]).tags[tag] ≠ .free) : Refuses p i .tagInUse s := by
  refine refuses_of_request p i (taggedRequest p tag.val f) s _ e take ?_
  simp only [taggedRequest, index?_val, taking_tags]
  exact if_neg used

/-- A split request with a free tag: what its block answers. -/
theorem replies_of_tag {tag : Tag} {r : Reply} {c : Content} {d : Delivery}
    (e : exec i s = request p i (taggedRequest p tag.val f) s) (take : s.canTake p i)
    (free : (s.delivery.ports[p]).tags[tag] = .free) (h : f tag s.content (s.taking p) = (c, d, r)) :
    Replies p i r s c d := by
  refine replies_of_request p i (taggedRequest p tag.val f) s _ _ _ e take ?_
  simp only [taggedRequest, index?_val, taking_tags]
  exact (if_pos free).trans h

end

/-! ## The panels that confirm a placard (R62) -/

theorem confirms_iff (generation : Nat) (q : Panel) :
    q.confirms generation = true ↔ ∃ r, q.ack = some r ∧ generation ≤ r.generation := by
  unfold Panel.confirms
  cases q.ack <;> simp

theorem confirms_eq_any (generation : Nat) (q : Panel) :
    q.confirms generation = q.ack.any (fun r => decide (generation ≤ r.generation)) := by
  unfold Panel.confirms
  cases q.ack <;> rfl

/-- What a confirmation of a placard has earned (R62). -/
theorem success?_stored {b : Board} {k : Confirmation} {pl : Placard} (h : b.placards[k.placard] = some pl) (w : Works) :
    k.success? b w = if (countedPanels w pl).all (fun x => x.2.confirms pl.generation) then
      some ⟨k.tag, 0x35, .ok, b1 (countedPanels w pl).length⟩ else none := by
  simp only [Confirmation.success?, h]

/-- The placard whose counted panels have all confirmed it, of a confirmation (R62). -/
def Confirmation.earned (b : Board) (w : Works) (k : Confirmation) : Option Placard :=
  (b.placards[k.placard]).filter (fun pl => (countedPanels w pl).all (fun x => x.2.confirms pl.generation))

theorem success?_eq (b : Board) (w : Works) (k : Confirmation) : k.success? b w =
    (k.earned b w).map (fun pl => ⟨k.tag, 0x35, .ok, b1 (countedPanels w pl).length⟩) := by
  unfold Confirmation.success? Confirmation.earned
  cases b.placards[k.placard] with
  | none => rfl
  | some pl =>
    simp only [Option.filter_some]
    split <;> rfl

theorem checkConfirmation_eq (b : Board) (d : Delivery) (k : Confirmation) : d.checkConfirmation b k =
    match k.earned b d.works with
    | none => d
    | some pl => d.endConfirmation k ⟨k.tag, 0x35, .ok, b1 (countedPanels d.works pl).length⟩ := by
  unfold Delivery.checkConfirmation
  rw [success?_eq]
  cases k.earned b d.works <;> rfl

theorem checkConfirmation_works (b : Board) (d : Delivery) (k : Confirmation) :
    (d.checkConfirmation b k).works = d.works := by
  unfold Delivery.checkConfirmation
  split <;> rfl

/-- A check of confirmations decides each of them on the panels as they are before it (R62). -/
theorem checkConfirmations_fold (b : Board) (w : Works) (ks : List Confirmation) (d : Delivery) (h : d.works = w) :
    ks.foldl (Delivery.checkConfirmation b) d = ks.foldl (fun e k => match k.earned b w with
      | none => e
      | some pl => e.endConfirmation k ⟨k.tag, 0x35, .ok, b1 (countedPanels w pl).length⟩) d := by
  induction ks generalizing d with
  | nil => rfl
  | cons k ks ih =>
    rw [List.foldl_cons, List.foldl_cons, ih _ ((checkConfirmation_works b d k).trans h), checkConfirmation_eq, h]

/-- Settles O39: the checks of CONFIRM_SHOWN, what the check of one confirmation decides, and `Confirmation.lapse`. -/
theorem confirmationsOpenSucceedAndLapse : Obligations.ConfirmationsOpenSucceedAndLapse := by
  unfold Obligations.ConfirmationsOpenSucceedAndLapse
  refine ⟨fun p v number timeout s => ?_, fun p tag n timeout pl s => ?_, fun b d => ?_, fun p tag k pl s found stored => ?_⟩
  · intro i take
    refine ⟨refuses_of_badTag rfl take, fun tag named => ?_⟩
    subst named
    refine ⟨refuses_of_tagInUse rfl take, fun free => ⟨fun above => ?_, fun n same absent => ?_⟩⟩
    · exact replies_of_tag rfl take free (placardRequest_above above true _ _ _)
    · subst same
      exact replies_of_tag rfl take free (placardRequest_free absent _ _)
  · intro i seconds k counted opened take free stored
    have answer (d : Delivery) (h : opened.checkConfirmation s.content.board k = d) :
        Replies p i ⟨.accepted, b1 seconds⟩ s s.content d := by
      subst h
      exact replies_of_tag rfl take free (placardRequest_stored stored _ _)
    have checked := success?_stored (k := k) stored opened.works
    refine ⟨fun all => answer _ ?_, fun ⟨x, mem, late⟩ => answer _ ?_⟩
    · have each : counted.all (fun x => x.2.confirms pl.generation) = true :=
        List.all_eq_true.2 (fun x mem => (confirms_iff _ _).2 (all x mem))
      unfold Delivery.checkConfirmation
      rw [checked.trans (if_pos each)]
      rfl
    · have some_late : ¬ counted.all (fun x => x.2.confirms pl.generation) = true := fun each => by
        obtain ⟨r, acked, reached⟩ := (confirms_iff _ _).1 (List.all_eq_true.1 each x mem)
        exact absurd reached (Nat.not_le.2 (late r acked))
      unfold Delivery.checkConfirmation
      rw [checked.trans (if_neg some_late)]
  · intro counted earned
    have same (k : Confirmation) : k.earned b d.works = earned k := by
      simp only [Confirmation.earned, confirms_eq_any]
      rfl
    refine (checkConfirmations_fold b d.works d.confirmations d rfl).trans ?_
    simp only [same]
    rfl
  · intro counted confirmed missing
    have leaves := event_leaves (fun c d => match d.confirmationOf p tag with
      | none => d
      | some k => (d.reach k.deadline).endConfirmation k (k.lapse c.board d.works)) s
    simp only [found] at leaves
    have lapse : k.lapse s.content.board s.delivery.works = ⟨k.tag, 0x35, if confirmed = [] then .timeout else .partially,
        b1 confirmed.length ++ bList b1 missing⟩ := by
      simp only [Confirmation.lapse, stored, List.isEmpty_iff]
      rfl
    rw [lapse] at leaves
    exact leaves

end Sys2Proof.Machine
end

section
/-! PANEL_DEFINE settled (R80, R81). -/

namespace Sys2Proof.Machine

/-! ## The checks of a PANEL_DEFINE (R81) -/

/-- The geometry that a class allows (R80). -/
def geometryFits (width height : Nat) : PanelClass → Prop
  | .line => 64 ≤ width ∧ width ≤ 256 ∧ width % 8 = 0 ∧ 8 ≤ height ∧ height ≤ 32 ∧ height % 8 = 0
  | .rows => 64 ≤ width ∧ width ≤ 256 ∧ width % 8 = 0 ∧ 16 ≤ height ∧ height ≤ 96 ∧ height % 8 = 0
  | .wide => 264 ≤ width ∧ width ≤ 512 ∧ width % 16 = 0 ∧ 8 ≤ height ∧ height ≤ 32 ∧ height % 8 = 0

theorem geometryAccepted_iff (cls : PanelClass) (width height : Nat) :
    geometryAccepted cls width height = true ↔ geometryFits width height cls := by
  cases cls <;> exact decide_eq_true_iff

theorem panelClassOf_none {v : Nat} (h : 2 < v) : panelClassOf v = none := by
  obtain ⟨k, rfl⟩ := Nat.exists_eq_add_of_lt h
  unfold panelClassOf
  split
  · omega
  · omega
  · omega
  · rfl

theorem mayDefine_iff (o : Option Panel) : mayDefine o = true ↔ ∀ q, o = some q → q.state = .offline := by
  cases o <;> simp [mayDefine]

theorem locationUsed_iff (w : Works) (n : PanelId) (l : LinkId) (x : Drop) : w.locationUsed n l x = true ↔
    ∃ m q, m ≠ n ∧ w.panels[m] = some q ∧ q.link = l ∧ q.drop = x := by
  unfold Works.locationUsed
  simp only [List.any_eq_true, decide_eq_true_eq]
  constructor
  · rintro ⟨⟨m, q⟩, mem, other, link, drop⟩
    exact ⟨m, q, other, (mem_panelList w m q).1 mem, link, drop⟩
  · rintro ⟨m, q, other, defined, link, drop⟩
    exact ⟨(m, q), (mem_panelList w m q).2 defined, other, link, drop⟩

theorem probeAtOnce_eq (w : Works) (l : LinkId) : w.probeAtOnce l =
    if (w.links[l]).state ≠ .disabled ∧ (w.links[l]).line ≠ .brk true then some w.now else none :=
  if_congr decide_eq_true_iff rfl rfl

theorem dropResident_eq (n : PanelId) (w : Works) : w.dropResident n = { w with
    lanes := mapTable (fun k => if k.state = .resident ∧ k.panel = some n then Lane.free else k) w.lanes } := by
  unfold Works.dropResident
  congr 2
  funext k
  exact if_congr decide_eq_true_iff rfl rfl

section
variable {address : Byte} {width height level refresh : Nat} {c : Content} {d : Delivery}

theorem defineRequest_outOfTable {panel link drop cls : Nat} (h : 63 < panel ∨ 7 < link ∨ 7 < drop ∨ 2 < cls) :
    defineRequest panel address link drop cls width height level refresh c d = (c, d, refuse .badValue) := by
  unfold defineRequest
  split
  · next p l x k hp hl hx hk =>
    rcases h with h | h | h | h
    · rw [index?_of_le h] at hp
      cases hp
    · rw [index?_of_le h] at hl
      cases hl
    · rw [index?_of_le h] at hx
      cases hx
    · rw [panelClassOf_none h] at hk
      cases hk
  · rfl

theorem defineRequest_eq (n : PanelId) (l : LinkId) (x : Drop) (cls : PanelClass) :
    defineRequest n.val address l.val x.val cls.code.toNat width height level refresh c d =
      if (level = 1 ∨ level = 2) ∧ geometryAccepted cls width height = true then
        definePanel n address l x cls width height level refresh c d
      else (c, d, refuse .badValue) := by
  simp only [defineRequest, index?_val, panelClassOf_code]

theorem definePanel_refused_state {n : PanelId} {l : LinkId} {x : Drop} {cls : PanelClass} {q : Panel}
    (h : d.works.panels[n] = some q) (on : q.state ≠ .offline) :
    definePanel n address l x cls width height level refresh c d = (c, d, refuse .state) := by
  have busy : mayDefine d.works.panels[n] = false := Bool.eq_false_iff.2 (fun may => on ((mayDefine_iff _).1 may q h))
  simp only [definePanel, busy]
  rfl

theorem definePanel_refused_location {n : PanelId} {l : LinkId} {x : Drop} {cls : PanelClass}
    (may : ∀ q, d.works.panels[n] = some q → q.state = .offline) (used : d.works.locationUsed n l x = true) :
    definePanel n address l x cls width height level refresh c d = (c, d, refuse .inUse) := by
  simp only [definePanel, (mayDefine_iff _).2 may, used]
  rfl

theorem definePanel_passed {n : PanelId} {l : LinkId} {x : Drop} {cls : PanelClass}
    (may : ∀ q, d.works.panels[n] = some q → q.state = .offline) (unused : d.works.locationUsed n l x = false) :
    definePanel n address l x cls width height level refresh c d =
      let q := definedPanel address l x cls width height level refresh (d.works.probeAtOnce l)
      (c, d.mapWorks (fun w => ((w.dropResident n).setPasses n 0).setPanel n (q.refreshInterest c.board)),
        okWith q.definitionBytes) := by
  simp only [definePanel, (mayDefine_iff _).2 may, unused]
  rfl

end

/-- Settles O44: the checks of PANEL_DEFINE one by one, then the record of `definedPanel`. -/
theorem panelDefineSetsTheRecord : Obligations.PanelDefineSetsTheRecord := by
  unfold Obligations.PanelDefineSetsTheRecord
  refine ⟨fun p panel address link drop cls width height level refresh s => ?_,
    fun p n address l x cls width height level refresh s => ?_⟩
  · intro i out take rank
    exact refuses_of_supervised p i (defineRequest panel address link drop cls width height level refresh) s _ rfl take
      rank (defineRequest_outOfTable out)
  · intro i w fits take rank
    have same : fits ↔ geometryAccepted cls width height = true := by
      rw [geometryAccepted_iff]
      cases cls <;> exact Iff.rfl
    have answers {c : Content} {d : Delivery} {r : Reply} (h : (if (level = 1 ∨ level = 2) ∧
        geometryAccepted cls width height = true then
          definePanel n address l x cls width height level refresh s.content (s.taking p)
        else (s.content, s.taking p, refuse .badValue)) = (c, d, r)) : Replies p i r s c d :=
      replies_of_supervised p i (defineRequest n.val address l.val x.val cls.code.toNat width height level refresh) s _ _ _
        rfl take rank ((defineRequest_eq n l x cls).trans h)
    refine ⟨fun bad => answers (if_neg (fun h => bad ⟨same.2 h.2, h.1⟩)), fun fit lvl => ?_⟩
    have passed : (level = 1 ∨ level = 2) ∧ geometryAccepted cls width height = true := ⟨lvl, same.1 fit⟩
    refine ⟨fun ⟨q, defined, on⟩ => answers ((if_pos passed).trans
      (definePanel_refused_state (d := s.taking p) defined on)), fun may => ⟨fun used => ?_, fun unused => ?_⟩⟩
    · exact answers ((if_pos passed).trans
        (definePanel_refused_location (d := s.taking p) may ((locationUsed_iff _ n l x).2 used)))
    · have free : (s.taking p).works.locationUsed n l x = false := Bool.eq_false_iff.2 (fun used => by
        obtain ⟨m, q, other, defined, link, drop⟩ := (locationUsed_iff _ n l x).1 used
        exact unused m q other defined link drop)
      have answer := definePanel_passed (d := s.taking p) (c := s.content) (address := address) (cls := cls)
        (width := width) (height := height) (level := level) (refresh := refresh) may free
      simp only [probeAtOnce_eq, dropResident_eq] at answer
      exact answers ((if_pos passed).trans answer)

end Sys2Proof.Machine
end

section
/-! Swap groups settled (R172 to R178). -/

namespace Sys2Proof.Machine

/-! ## Adoption of the staged images (R90, R177) -/

theorem acknowledge_eq (now : Nat) (r : AckRecord) (full : Bool) (q : Panel) : q.acknowledge now r full = { q with
    ack := some r
    fullDemand := if full then false else q.fullDemand
    refreshDeadline := if full then (if q.refresh = 0 then none else some (now + 60000 * q.refresh))
      else q.refreshDeadline } := by
  cases full <;> rfl

theorem acknowledge_again (now : Nat) (r : AckRecord) (full : Bool) (q : Panel) :
    (q.acknowledge now r full).acknowledge now r full = q.acknowledge now r full := by
  cases full <;> rfl

/-- The record that a staged image leaves in the panel table (R90). -/
def StagedRecord.adoptedBy (r : StagedRecord) (now : Nat) (q : Panel) : Panel :=
  q.acknowledge now ⟨r.strips, r.frame, r.generation⟩ r.full

theorem adopt_panels (b : Board) (d : Delivery) (r : StagedRecord) (m : PanelId) : (d.adopt b r).works.panels[m] =
    if r.panel = m then (d.works.panels[m]).map (r.adoptedBy d.works.now) else d.works.panels[m] := by
  unfold Delivery.adopt
  cases hp : d.works.panels[r.panel] with
  | none =>
    by_cases e : r.panel = m
    · subst e
      rw [if_pos rfl, hp]
      rfl
    · rw [if_neg e]
  | some q =>
    simp only [checkConfirmations_frame, Delivery.mapWorks, Works.putPanel, set_getFin]
    by_cases e : r.panel = m
    · subst e
      rw [if_pos rfl, if_pos rfl, hp]
      rfl
    · rw [if_neg e, if_neg e]

/-- The adoption of records leaves every panel of which there is none (R90). -/
theorem adopts_other (b : Board) (rs : List StagedRecord) (d : Delivery) (m : PanelId) (h : ∀ r ∈ rs, r.panel ≠ m) :
    (rs.foldl (Delivery.adopt b) d).works.panels[m] = d.works.panels[m] := by
  induction rs generalizing d with
  | nil => rfl
  | cons a rs ih =>
    rw [List.foldl_cons, ih (d.adopt b a) (fun r hr => h r (.tail _ hr)), adopt_panels, if_neg (h a (.head _))]

/-- The adoption of records of which no two are of one panel: each defined panel takes its record (R90). -/
theorem adopts_panels (b : Board) (rs : List StagedRecord) (d : Delivery)
    (one : ∀ r ∈ rs, ∀ r' ∈ rs, r.panel = r'.panel → r = r') : ∀ r ∈ rs,
      (rs.foldl (Delivery.adopt b) d).works.panels[r.panel] =
        (d.works.panels[r.panel]).map (r.adoptedBy d.works.now) := by
  induction rs generalizing d with
  | nil => exact fun _ h => absurd h (List.not_mem_nil)
  | cons a rs ih =>
    intro r hr
    have now : (d.adopt b a).works.now = d.works.now := (adopts_frame b [a] d).2.2.2.1
    have taken := ih (d.adopt b a) (fun r hr r' hr' => one r (.tail _ hr) r' (.tail _ hr'))
    rw [now] at taken
    rw [List.foldl_cons]
    by_cases later : r ∈ rs
    · rw [taken r later, adopt_panels]
      by_cases same : a.panel = r.panel
      · cases one a (.head _) r hr same
        rw [if_pos rfl, Option.map_map]
        exact congrArg (Option.map · _) (funext (acknowledge_again _ _ _))
      · rw [if_neg same]
    · have first : r = a := (List.mem_cons.1 hr).resolve_right later
      subst first
      rw [adopts_other b rs _ _ (fun r' hr' e => later (one r hr r' (.tail _ hr') e.symm ▸ hr')), adopt_panels, if_pos rfl]

/-! ## The images shown (R169, R177) -/

theorem showSwap_frame (b : Board) (d : Delivery) (x : Swap) :
    let adopted := x.toShow.foldl (Delivery.adopt b) d
    (d.showSwap b x).ports = adopted.ports ∧ (d.showSwap b x).confirmations = adopted.confirmations ∧
      (d.showSwap b x).works.panels = adopted.works.panels ∧ (d.showSwap b x).works.lanes = adopted.works.lanes ∧
      (d.showSwap b x).works.rotation = adopted.works.rotation ∧ (d.showSwap b x).works.now = adopted.works.now := by
  intro adopted
  simp only [Delivery.showSwap, Delivery.mapWorks]
  refine ⟨rfl, rfl, ?_⟩
  exact foldl_keeps (fun w : Works => w.panels = adopted.works.panels ∧ w.lanes = adopted.works.lanes ∧
      w.rotation = adopted.works.rotation ∧ w.now = adopted.works.now) _
    (fun w l ⟨panels, lanes, rotation, now⟩ => by
      obtain ⟨panels', lanes', rotation', now'⟩ := requestShow_frame l (w.dropsOn (x.toShow.map (fun r => r.panel)) l) w
      exact ⟨panels'.trans panels, lanes'.trans lanes, rotation'.trans rotation, now'.trans now⟩) _ _ ⟨rfl, rfl, rfl, rfl⟩

/-- The adoption of one staged record, with its record written out (R90). -/
theorem adopt_eq (b : Board) (d : Delivery) (r : StagedRecord) : d.adopt b r = match d.works.panels[r.panel] with
    | none => d
    | some q => ({ d with works := d.works.putPanel r.panel { q with
        ack := some ⟨r.strips, r.frame, r.generation⟩
        fullDemand := if r.full then false else q.fullDemand
        refreshDeadline := if r.full then (if q.refresh = 0 then none else some (d.works.now + 60000 * q.refresh))
          else q.refreshDeadline } } : Delivery).checkConfirmations b := by
  simp only [Delivery.adopt, acknowledge_eq]
  rfl

/-- The staged records that are shown, of a swap that holds at most one record of each panel (R177). -/
theorem mem_toShow {x : Swap} (nodup : (x.staged.map (fun r => r.panel)).Nodup) (r : StagedRecord) :
    r ∈ x.toShow ↔ r ∈ x.staged ∧ r.panel ∈ x.expected ∧ r.byTransmission = true := by
  simp only [Swap.toShow, List.mem_filter, List.mem_filterMap]
  constructor
  · rintro ⟨⟨m, expected, found⟩, shown⟩
    have panel : r.panel = m := by simpa using List.find?_some found
    exact ⟨List.mem_of_find?_eq_some found, panel ▸ expected, shown⟩
  · rintro ⟨staged, expected, shown⟩
    have some_found : (x.staged.find? (fun r' => decide (r'.panel = r.panel))).isSome = true :=
      List.find?_isSome.2 ⟨r, staged, decide_eq_true rfl⟩
    obtain ⟨r', found⟩ := Option.isSome_iff_exists.1 some_found
    have same : r' = r := List.inj_on_of_nodup_map nodup (List.mem_of_find?_eq_some found) staged
      (by simpa using List.find?_some found)
    exact ⟨⟨r.panel, expected, same ▸ found⟩, shown⟩

/-- A complete group: IDLE, with the staged images adopted and shown (R177). -/
theorem checkSwap_complete {b : Board} {d : Delivery} {g : GroupId} {x : Swap} (armed : (d.groups[g]).swap = some x)
    (all : ∀ m ∈ x.expected, m ∈ x.dropped ∨ ∃ r ∈ x.staged, r.panel = m) :
    (d.checkSwap b g).groups = d.groups.set g { d.groups[g] with swap := none } ∧
      (d.checkSwap b g).works.panels = (x.toShow.foldl (Delivery.adopt b) d).works.panels ∧
      (d.checkSwap b g).works.links = (d.showSwap b x).works.links := by
  obtain ⟨-, -, panels, -⟩ := showSwap_frame b d x
  have groups := showSwap_groups b d x
  rw [checkSwap_eq b d g x armed, if_pos ((isComplete_iff x).2 all), endSwap_eq]
  generalize d.showSwap b x = e at panels groups ⊢
  exact ⟨by rw [groups], panels, rfl⟩

/-! ## GROUP_SETUP (R172) -/

theorem membersOf_none {members : List Nat} (h : ∃ v ∈ members, 64 ≤ v) : membersOf members = none := by
  induction members with
  | nil => obtain ⟨_, mem, -⟩ := h; cases mem
  | cons v vs ih =>
    obtain ⟨u, mem, high⟩ := h
    unfold membersOf
    rcases List.mem_cons.1 mem with rfl | later
    · simp only [index?_of_le high]
    · rw [ih ⟨u, later, high⟩]
      split
      · next e => cases e
      · rfl

/-- The members of a list of panel numbers: each once, ascending (R172). -/
theorem membersOf_some {members : List Nat} (h : ∀ v ∈ members, v < 64) : ∃ ps, membersOf members = some ps ∧
    ps.Pairwise (fun a b => a < b) ∧ ∀ m : PanelId, m ∈ ps ↔ m.val ∈ members := by
  induction members with
  | nil => exact ⟨[], rfl, List.Pairwise.nil, fun m => by simp⟩
  | cons v vs ih =>
    obtain ⟨ps, made, sorted, mem⟩ := ih (fun u hu => h u (.tail _ hu))
    refine ⟨insertNumber ⟨v, h v (.head _)⟩ ps, ?_, insertNumber_sorted _ _ sorted, fun m => ?_⟩
    · simp only [membersOf, index?_of_lt (h v (.head _)), made]
    · rw [mem_insertNumber, mem, List.mem_cons, Fin.ext_iff]

theorem inOtherGroup_iff (d : Delivery) (g : GroupId) (m : PanelId) :
    d.inOtherGroup g m = true ↔ ∃ h : GroupId, h ≠ g ∧ m ∈ (d.groups[h]).members := by
  simp [Delivery.inOtherGroup]

section
variable {g : GroupId} {members : List Nat} {deadline : Nat} {c : Content} {d : Delivery} {ps : List PanelId}

theorem setupGroup_above {group : Nat} (h : 7 < group) :
    setupGroup group members deadline c d = (c, d, refuse .badValue) := by
  simp only [setupGroup, index?_of_le h]

theorem setupGroup_members (h : (∃ v ∈ members, 64 ≤ v) ∨ 16 < members.length) :
    setupGroup g.val members deadline c d = (c, d, refuse .badValue) := by
  unfold setupGroup
  rcases h with high | long
  · rw [membersOf_none high]
    split
    · next e => cases e
    · rfl
  · split
    · exact if_pos long
    · rfl

theorem setupGroup_eq (made : membersOf members = some ps) (short : members.length ≤ 16) :
    setupGroup g.val members deadline c d =
      if (d.groups[g]).swap.isSome then (c, d, refuse .state)
      else if ps.any (d.inOtherGroup g) then (c, d, refuse .inUse)
      else (c, d.mapGroup g (fun _ => ⟨ps, clampTo 1 100 deadline, none⟩),
        okWith (bList b1 (ps.map Fin.val) ++ b1 (clampTo 1 100 deadline))) := by
  simp only [setupGroup, index?_val, made]
  exact if_neg (Nat.not_lt.2 short)

end

/-! ## GROUP_ARM (R173) -/

/-- A swap that expects no panel is complete, and shows nothing (R177). -/
theorem showSwap_of_nothing (b : Board) (d : Delivery) {x : Swap} (h : x.toShow = []) : d.showSwap b x = d := by
  have still : (List.finRange 8).foldl (fun w l => w.requestShow l (w.dropsOn [] l)) d.works = d.works :=
    foldl_keeps (fun w : Works => w = d.works) _ (fun w l e => by
      rw [Works.requestShow]
      exact (if_pos (.inr rfl)).trans e) _ _ rfl
  simp only [Delivery.showSwap, h, List.foldl_nil, List.map_nil, Delivery.mapWorks, still]

section
variable {b : Board} {source : ArmSource} {g : GroupId} {d : Delivery}

/-- The delivery side as a group is armed, before STAGE is raised (R173). -/
def Delivery.armed (source : ArmSource) (g : GroupId) (d : Delivery) : Delivery :=
  { d with groups := d.groups.set g { d.groups[g] with swap := some (newSwap source d.works d.groups[g]) } }

theorem armed_swap : ((d.armed source g).groups[g]).swap = some (newSwap source d.works d.groups[g]) := by
  rw [Delivery.armed, set_getFin_self]

theorem groupArm_eq (idle : (d.groups[g]).swap = none) : d.arm b source g =
    ((d.works.onlineMembers (d.groups[g]).members).foldl (Delivery.raise b .stage) (d.armed source g)).checkSwap b g := by
  simp only [Delivery.arm, idle]
  rfl

/-- The arming of a group none of whose members is online ends at once (R173, R177). -/
theorem groupArm_none_online (idle : (d.groups[g]).swap = none)
    (none_online : d.works.onlineMembers (d.groups[g]).members = []) : d.arm b source g = d := by
  have expected : (newSwap source d.works d.groups[g]).expected = [] := none_online
  have complete : (newSwap source d.works d.groups[g]).isComplete = true :=
    (isComplete_iff _).2 (fun m hm => absurd (expected ▸ hm) List.not_mem_nil)
  have shows : (newSwap source d.works d.groups[g]).toShow = [] := by
    rw [Swap.toShow, expected]
    rfl
  rw [groupArm_eq idle, none_online, List.foldl_nil, checkSwap_eq b _ g _ armed_swap, if_pos complete,
    showSwap_of_nothing b _ shows]
  have unarmed : ({ d.groups[g] with swap := none } : Group) = d.groups[g] := by rw [← idle]
  have restored : modifyAt g (fun r => { r with swap := none }) (d.armed source g).groups = d.groups := by
    simp only [modifyAt, Delivery.armed, set_getFin_self, Vector.set_set, unarmed, set_self]
  simp only [Delivery.endSwap, Delivery.mapGroup, Delivery.mapWorks, restored, Swap.membersLeft, expected, List.filter_nil,
    outlive_nil]
  rfl

theorem armed_incomplete (online : d.works.onlineMembers (d.groups[g]).members ≠ []) :
    ¬ (newSwap source d.works d.groups[g]).isComplete = true := fun complete => by
  obtain ⟨m, rest, first⟩ := List.exists_cons_of_ne_nil online
  have expected : m ∈ (newSwap source d.works d.groups[g]).expected := by
    rw [newSwap, first]
    exact .head _
  rcases (isComplete_iff _).1 complete m expected with dropped | ⟨r, staged, -⟩
  · cases dropped
  · cases staged

/-- The arming of a group with a member online leaves it ARMED (R173). -/
theorem groupArm_online (idle : (d.groups[g]).swap = none) (online : d.works.onlineMembers (d.groups[g]).members ≠ []) :
    d.arm b source g =
      (d.works.onlineMembers (d.groups[g]).members).foldl (Delivery.raise b .stage) (d.armed source g) := by
  have swap : (((d.works.onlineMembers (d.groups[g]).members).foldl (Delivery.raise b .stage)
      (d.armed source g)).groups[g]).swap = some (newSwap source d.works d.groups[g]) := by
    rw [raises_groups b .stage (by decide), armed_swap]
  rw [groupArm_eq idle, checkSwap_eq b _ g _ swap, if_neg (armed_incomplete online)]

theorem groupArm_online_groups (idle : (d.groups[g]).swap = none)
    (online : d.works.onlineMembers (d.groups[g]).members ≠ []) :
    (d.arm b source g).groups = (d.armed source g).groups := by
  rw [groupArm_online idle online, raises_groups b .stage (by decide)]

end

section
variable {p : PortId} {g : GroupId} {c : Content} {d : Delivery}

theorem armRequest_above {group : Nat} (h : 7 < group) : armRequest p group c d = (c, d, refuse .badValue) := by
  simp only [armRequest, index?_of_le h]

theorem armRequest_eq : armRequest p g.val c d =
    if (d.groups[g]).members = [] then (c, d, refuse .state)
    else if (d.groups[g]).swap ≠ none then (c, d, refuse .busy)
    else (c, d.arm c.board (.port p) g, okWith (b1 (d.works.onlineMembers (d.groups[g]).members).length ++
      [((d.arm c.board (.port p) g).groups[g]).stateCode])) := by
  simp only [armRequest, index?_val, List.isEmpty_iff, Option.isSome_iff_ne_none]

theorem armRequest_none_online (some_member : (d.groups[g]).members ≠ []) (idle : (d.groups[g]).swap = none)
    (none_online : d.works.onlineMembers (d.groups[g]).members = []) :
    armRequest p g.val c d = (c, d, okWith (b1 0 ++ [0x00])) := by
  rw [armRequest_eq, if_neg some_member, if_neg (not_not.2 idle), groupArm_none_online idle none_online, none_online,
    Group.stateCode, idle]
  rfl

theorem armRequest_online (some_member : (d.groups[g]).members ≠ []) (idle : (d.groups[g]).swap = none)
    (online : d.works.onlineMembers (d.groups[g]).members ≠ []) : armRequest p g.val c d =
      (c, (d.works.onlineMembers (d.groups[g]).members).foldl (Delivery.raise c.board .stage) (d.armed (.port p) g),
        okWith (b1 (d.works.onlineMembers (d.groups[g]).members).length ++ [0x01])) := by
  have state : ((d.arm c.board (.port p) g).groups[g]).stateCode = 0x01 := by
    rw [groupArm_online_groups idle online, Group.stateCode, armed_swap]
    rfl
  rw [armRequest_eq, if_neg some_member, if_neg (not_not.2 idle), state, groupArm_online idle online]

end

/-! ## GROUP_DEADLINE (R178) -/

theorem missing_eq (x : Swap) :
    x.missing = x.expected.filter (fun m => decide (m ∉ x.staged.map (fun r => r.panel))) :=
  List.filter_congr (fun _ _ => (decide_not).symm)

/-- A GROUP_DEADLINE of an ARMED group is the end of its swap (R178). -/
theorem groupDeadline_leaves {g : GroupId} {k : Swap} {s : State} (armed : (s.delivery.groups[g]).swap = some k) :
    Leaves (exec (.groupDeadline g) s) s s.content
      ((s.delivery.reach k.deadline).lapseSwap s.content.board g k) := by
  have leaves := event_leaves (fun c d => match d.groups[g].swap with
    | none => d
    | some k => (d.reach k.deadline).lapseSwap c.board g k) s
  simp only [armed] at leaves
  exact leaves

end Sys2Proof.Machine
end

section
/-! The statement on swap groups (R172 to R178). -/

namespace Sys2Proof.Machine

/-- Settles O57: the lemmas on arrivals, drop-outs and completion, and the requests of a group one by one. -/
theorem swapGroupsArmCompleteAndLapse : Obligations.SwapGroupsArmCompleteAndLapse := by
  unfold Obligations.SwapGroupsArmCompleteAndLapse
  refine ⟨fun p v members deadline s above => ⟨fun take rank => ?_, fun take => ?_⟩, fun b d n => ?_,
    fun b d g x armed => ⟨fun r => arrive_eq b d g x r armed, fun ⟨m, expected, in_, out⟩ => ?_, fun all => ?_⟩,
    fun b d x => ?_, fun p g s => ?_⟩
  · exact refuses_of_supervised p _ (setupGroup v members deadline) s _ rfl take rank (setupGroup_above above)
  · exact refuses_of_request p _ (armRequest p v) s _ rfl take (armRequest_above above)
  · intro expected
    have stays {h : GroupId} (none : ∀ y, ¬ expected h y) : (d.groups[h]).mayDrop n = false :=
      Bool.eq_false_iff.2 (fun may => by
        obtain ⟨y, is⟩ := (mayDrop_iff d h n).1 may
        exact none y is)
    refine ⟨fun none => dropOut_none b d n (fun g => stays (none g)), fun g x ⟨swap, mem, out⟩ lower => ?_⟩
    exact ⟨insertNumber n x.dropped, fun m => mem_insertNumber n m _, insertNumber_sorted n _,
      dropOut_some b d n g x swap mem out (fun h hg => stays (lower h hg))⟩
  · rw [checkSwap_eq b d g x armed, if_neg]
    intro complete
    rcases (isComplete_iff x).1 complete m expected with dropped | ⟨r, staged, panel⟩
    · exact in_ dropped
    · exact out r staged panel
  · intro e
    have members : (e.groups[g]).members = (d.groups[g]).members := by rw [showSwap_groups]
    rw [checkSwap_eq b d g x armed, if_pos ((isComplete_iff x).2 all), endSwap_eq, members]
  · intro arrived adopt adopted e
    have same : adopt = Delivery.adopt b := funext (fun d => funext (fun r => (adopt_eq b d r).symm))
    have shown : adopted = x.toShow.foldl (Delivery.adopt b) d := by
      rw [← same]
      rfl
    obtain ⟨ports, confirmations, panels, lanes, rotation, now⟩ := showSwap_frame b d x
    obtain ⟨-, -, rotation', now', -⟩ := adopts_frame b x.toShow d
    rw [shown]
    refine ⟨ports, confirmations, showSwap_groups b d x, panels, lanes, rotation.trans rotation', now.trans now', fun l => ?_⟩
    have links := showSwap_links b d x l
    simp only [Swap.toShow, List.mem_filter, and_assoc] at links
    exact links
  · intro group w b
    refine ⟨fun members deadline => ?_, ?_, fun k armed => ?_, fun k armed nodup all => ?_⟩
    · intro i stored take rank
      have answers {c : Content} {d : Delivery} {r : Reply} := replies_of_supervised p i
        (setupGroup g.val members deadline) s c d r rfl take rank
      refine ⟨fun bad => answers (setupGroup_members bad), fun low short => ?_⟩
      obtain ⟨ps, made, sorted, mem⟩ := membersOf_some low
      have answer := setupGroup_eq (g := g) (deadline := deadline) (c := s.content) (d := s.taking p) made short
      refine ⟨fun swap => answers (answer.trans (if_pos (Option.isSome_iff_ne_none.2 swap))), fun idle => ?_⟩
      have not_armed : ¬ (((s.taking p).groups[g]).swap).isSome = true := by
        rw [show ((s.taking p).groups[g]).swap = none from idle]
        exact Bool.false_ne_true
      rw [if_neg not_armed] at answer
      refine ⟨fun ⟨h, m, other, named, member⟩ => ?_, fun nowhere => ⟨ps, sorted, mem, ?_⟩⟩
      · exact answers (answer.trans (if_pos (List.any_eq_true.2
          ⟨m, (mem m).2 named, (inOtherGroup_iff _ g m).2 ⟨h, other, member⟩⟩)))
      · have free : ¬ ps.any ((s.taking p).inOtherGroup g) = true := fun used => by
          obtain ⟨m, listed, taken⟩ := List.any_eq_true.1 used
          obtain ⟨h, other, member⟩ := (inOtherGroup_iff _ g m).1 taken
          exact nowhere h m other ((mem m).1 listed) member
        rw [if_neg free, bList, List.length_map, List.flatMap_map] at answer
        exact answers answer
    · intro i expected armed take
      have answers {c : Content} {d : Delivery} {r : Reply} := replies_of_request p i (armRequest p g.val) s c d r rfl take
      have answer := armRequest_eq (p := p) (g := g) (c := s.content) (d := s.taking p)
      refine ⟨fun empty => answers (answer.trans (if_pos empty)), fun some_member swap => ?_, fun some_member idle => ?_⟩
      · exact answers (answer.trans ((if_neg some_member).trans (if_pos swap)))
      · exact ⟨fun none_online => answers (armRequest_none_online (d := s.taking p) some_member idle none_online),
          fun online => answers (armRequest_online (d := s.taking p) some_member idle online)⟩
    · intro missing d n noted raised
      have leaves := groupDeadline_leaves armed
      rw [lapseSwap_eq, missing_eq, Delivery.notifyIncomplete, missing_eq] at leaves
      exact leaves
    · intro shown e
      obtain ⟨groups, panels, links⟩ := checkSwap_complete (b := b) armed (fun m hm => (all m hm).symm.imp_right
        (fun staged => List.mem_map.1 staged))
      have show_iff (r : StagedRecord) : r ∈ k.toShow ↔ shown r := mem_toShow nodup r
      have one (r : StagedRecord) (hr : r ∈ k.toShow) (r' : StagedRecord) (hr' : r' ∈ k.toShow)
          (same : r.panel = r'.panel) : r = r' :=
        List.inj_on_of_nodup_map nodup ((show_iff r).1 hr).1 ((show_iff r').1 hr').1 same
      have taken := adopts_panels b k.toShow s.delivery one
      refine ⟨groups, fun r q hr defined => ?_, fun m hm => ?_, fun l => ?_⟩
      · rw [panels, taken r ((show_iff r).2 hr), show s.delivery.works.panels[r.panel] = some q from defined,
          Option.map_some, StagedRecord.adoptedBy, acknowledge_eq]
      · rw [panels]
        exact adopts_other b k.toShow s.delivery m (fun r hr => hm r ((show_iff r).1 hr))
      · have asked := showSwap_links b s.delivery k l
        simp only [show_iff, ← exists_and_left] at asked
        rw [links]
        exact asked

end Sys2Proof.Machine
end

section
/-! The lanes, the rotation and the wake sets as LINK_DISABLE reaches a set of panels (R86, R106, R117, R161). -/

namespace Sys2Proof.Machine

/-! ## Work causes (R86) -/

theorem CauseSet.has_union (a b : CauseSet) (c : Cause) : (a.union b).has c = true ↔ a.has c = true ∨ b.has c = true := by
  cases c <;> exact Bool.or_eq_true_iff

theorem CauseSet.has_unions (xs : List CauseSet) (a : CauseSet) (c : Cause) :
    (xs.foldl CauseSet.union a).has c = true ↔ a.has c = true ∨ ∃ x ∈ xs, x.has c = true := by
  induction xs generalizing a with
  | nil => simp
  | cons x xs ih => rw [List.foldl_cons, ih, has_union, List.exists_mem_cons_iff, or_assoc]

/-- The work causes of the lanes that serve a panel. -/
def Works.workOf (w : Works) (p : PanelId) : CauseSet :=
  ((w.lanesServing p).map (fun n => w.lanes[n].work)).foldl CauseSet.union CauseSet.none

theorem takesBack_workOf (w : Works) (p : PanelId) (wake : CauseSet) : TakesBack w p wake (wake.union (w.workOf p)) := by
  intro c
  have none_has : CauseSet.none.has c = false := by cases c <;> rfl
  rw [CauseSet.has_union, Works.workOf, CauseSet.has_unions, none_has]
  simp

theorem mem_lanesServing (w : Works) (p : PanelId) (n : LaneId) :
    n ∈ w.lanesServing p ↔ (w.lanes[n]).serves = true ∧ (w.lanes[n]).panel = some p := by
  simp [Works.lanesServing]

/-! ## What LINK_DISABLE leaves (R106, R117) -/

/-- What is left of a claim after those of the panels `on` are ended (R106). -/
def claimLeft (on : PanelId → Bool) (claim : Option Claim) : Option Claim := claim.filter (fun x => !on x.panel)

/-- The rotation after the claims of the panels `on` are ended (R106). -/
def Works.rotationLeft (w : Works) (on : PanelId → Bool) : Rotation := { w.rotation with
  claim := claimLeft on w.rotation.claim
  passes := match w.rotation.claim with
    | none => w.rotation.passes
    | some x => if on x.panel then w.rotation.passes.set x.panel 0 else w.rotation.passes }

/-- A lane let go, in the claimed pair or not (R106). -/
def vacated (claim : Option Claim) (n : LaneId) : Lane :=
  if claim.any (fun x => decide (n = evenLane x.pair ∨ n = oddLane x.pair)) then Lane.claimed else Lane.free

/-- Lane `n`, once `k`, after the panels `on` let their lanes go (R106, R117). -/
def laneLeft (claim : Option Claim) (on : PanelId → Bool) (n : LaneId) (k : Lane) : Lane :=
  if k.serves = true ∧ k.panel.any on = true then vacated (claimLeft on claim) n
  else if k.state = .resident ∧ k.panel.any on = true then Lane.free
  else if k.state = .claimed ∧ claim.any (fun x => on x.panel) = true then Lane.free
  else k

/-- A panel record after the panels `on` let their lanes go (R86). -/
def Works.panelLeft (w : Works) (on : PanelId → Bool) (m : PanelId) : Option Panel :=
  if on m then (w.panels[m]).map (fun q => { q with wake := q.wake.union (w.workOf m) }) else w.panels[m]

/-- `v` is `w` after the panels `on` let their lanes go. -/
structure LanesLeft (w : Works) (on : PanelId → Bool) (v : Works) : Prop where
  now : v.now = w.now
  links : v.links = w.links
  rotation : v.rotation = w.rotationLeft on
  lanes : ∀ n : LaneId, v.lanes[n] = laneLeft w.rotation.claim on n w.lanes[n]
  panels : ∀ m : PanelId, v.panels[m] = w.panelLeft on m

theorem lanesLeft_none (w : Works) : LanesLeft w (fun _ => false) w where
  now := rfl
  links := rfl
  rotation := by
    obtain ⟨_, _, ⟨_, _, _, _, claim⟩, _, _⟩ := w
    cases claim <;> rfl
  lanes n := by
    have nobody {α : Type} (o : Option α) : o.any (fun _ => false) = false := by cases o <;> rfl
    simp only [laneLeft, nobody, Bool.false_eq_true, and_false, if_false]
  panels m := rfl

/-! ## One panel more -/

theorem pairOf_eq_iff (n : LaneId) (k : Fin 4) : k = pairOf n ↔ n = evenLane k ∨ n = oddLane k := by
  revert n k
  decide

theorem inClaimedPair_eq (w : Works) (n : LaneId) : w.inClaimedPair n =
    w.rotation.claim.any (fun x => decide (n = evenLane x.pair ∨ n = oddLane x.pair)) := by
  unfold Works.inClaimedPair
  cases w.rotation.claim with
  | none => rfl
  | some x => exact decide_eq_decide.2 (pairOf_eq_iff n x.pair)

theorem vacated_eq (w : Works) (n : LaneId) :
    (if w.inClaimedPair n then Lane.claimed else Lane.free) = vacated w.rotation.claim n := by
  rw [inClaimedPair_eq]
  rfl

theorem freeLanes_lanes (ls : List LaneId) (w : Works) (n : LaneId) : (ls.foldl Works.freeLane w).lanes[n] =
    if n ∈ ls then vacated w.rotation.claim n else w.lanes[n] := by
  induction ls generalizing w with
  | nil => rfl
  | cons a ls ih =>
    have claim : (w.freeLane a).rotation.claim = w.rotation.claim := rfl
    rw [List.foldl_cons, ih, claim]
    by_cases later : n ∈ ls
    · rw [if_pos later, if_pos (List.mem_cons_of_mem a later)]
    · rw [if_neg later, Works.freeLane, Works.mapLane, modifyAt_getFin]
      by_cases first : a = n
      · subst first
        rw [if_pos rfl, if_pos List.mem_cons_self, ← vacated_eq]
      · rw [if_neg first, if_neg (fun h => (List.mem_cons.1 h).elim (fun e => first e.symm) later)]

section
variable {w : Works} {p : PanelId} {q : Panel}

theorem stopLanes_eq (h : w.panels[p] = some q) : w.stopLanes p =
    (w.lanesServing p).foldl Works.freeLane (w.setPanel p { q with wake := q.wake.union (w.workOf p) }) := by
  simp only [Works.stopLanes, h]
  rfl

theorem stopLanes_frame (h : w.panels[p] = some q) : (w.stopLanes p).links = w.links ∧
    (w.stopLanes p).panels = w.panels.set p (some { q with wake := q.wake.union (w.workOf p) }) ∧
    (w.stopLanes p).rotation = w.rotation ∧ (w.stopLanes p).now = w.now := by
  rw [stopLanes_eq h]
  exact freeLanes_frame _ _

theorem stopLanes_lanes (h : w.panels[p] = some q) (n : LaneId) : (w.stopLanes p).lanes[n] =
    if n ∈ w.lanesServing p then vacated w.rotation.claim n else w.lanes[n] := by
  rw [stopLanes_eq h, freeLanes_lanes]
  rfl

theorem endClaimOf_frame (w : Works) (p : PanelId) : (w.endClaimOf p).links = w.links ∧
    (w.endClaimOf p).panels = w.panels ∧ (w.endClaimOf p).now = w.now := by
  unfold Works.endClaimOf
  split
  · exact ⟨rfl, rfl, rfl⟩
  · split <;> exact ⟨rfl, rfl, rfl⟩

theorem endClaimOf_rotation (w : Works) (p : PanelId) : (w.endClaimOf p).rotation = w.rotationLeft (fun m => decide (m = p)) := by
  obtain ⟨_, _, ⟨_, _, _, _, claim⟩, _, _⟩ := w
  cases claim with
  | none => rfl
  | some x =>
    simp only [Works.endClaimOf, Works.rotationLeft, claimLeft, Option.filter_some]
    by_cases e : x.panel = p
    · simp [e, Works.endClaim, Works.setPasses]
    · simp [e]

theorem endClaimOf_lanes (w : Works) (p : PanelId) (n : LaneId) : (w.endClaimOf p).lanes[n] =
    if w.rotation.claim.any (fun x => decide (x.panel = p)) = true ∧ (w.lanes[n]).state = .claimed then Lane.free
    else w.lanes[n] := by
  unfold Works.endClaimOf
  cases w.rotation.claim with
  | none => rfl
  | some x =>
    by_cases e : x.panel = p
    · simp only [e, if_true, Option.any_some, decide_true, true_and]
      exact mapTable_getFin _ _ n
    · simp only [e, if_false, Option.any_some, decide_false, Bool.false_eq_true, false_and]

/-- Lane `n`, now `k`, as a panel `p` lets it go and its claim ends; `served` tells that the lane serves the panel. -/
def letGo (claim : Option Claim) (p : PanelId) (n : LaneId) (served : Prop) [Decidable served] (k : Lane) : Lane :=
  let stopped := if served then vacated claim n else k
  let dropped := if stopped.residentFor p then Lane.free else stopped
  if claim.any (fun x => decide (x.panel = p)) = true ∧ dropped.state = .claimed then Lane.free else dropped

theorem disableLanes_lanes (h : w.panels[p] = some q) (n : LaneId) :
    (w.disableLanes p).lanes[n] = letGo w.rotation.claim p n (n ∈ w.lanesServing p) w.lanes[n] := by
  obtain ⟨-, -, rotation, -⟩ := stopLanes_frame h
  rw [Works.disableLanes, endClaimOf_lanes, Works.dropResident_rotation, rotation, Works.dropResident_lanes,
    mapTable_getFin, stopLanes_lanes h]
  rfl

theorem disableLanes_frame (h : w.panels[p] = some q) : (w.disableLanes p).links = w.links ∧
    (w.disableLanes p).panels = w.panels.set p (some { q with wake := q.wake.union (w.workOf p) }) ∧
    (w.disableLanes p).rotation = w.rotationLeft (fun m => decide (m = p)) ∧ (w.disableLanes p).now = w.now := by
  obtain ⟨links, panels, rotation, now⟩ := stopLanes_frame h
  obtain ⟨links', panels', now'⟩ := endClaimOf_frame ((w.stopLanes p).dropResident p) p
  refine ⟨links'.trans links, panels'.trans panels, (endClaimOf_rotation _ p).trans ?_, now'.trans now⟩
  simp only [Works.rotationLeft, Works.dropResident_rotation, rotation]

end

/-! ## The panels one by one -/

/-- The panels `on`, and one panel more. -/
def oneMore (on : PanelId → Bool) (p m : PanelId) : Bool := on m || decide (m = p)

theorem any_oneMore (on : PanelId → Bool) (p : PanelId) (o : Option PanelId) :
    o.any (oneMore on p) = true ↔ o.any on = true ∨ o = some p := by
  cases o <;> simp [oneMore]

theorem claim_oneMore (on : PanelId → Bool) (p : PanelId) (c : Option Claim) : c.any (fun x => oneMore on p x.panel) = true ↔
    c.any (fun x => on x.panel) = true ∨ (c.filter (fun x => !on x.panel)).any (fun x => decide (x.panel = p)) = true := by
  cases c with
  | none => simp
  | some x => cases h : on x.panel <;> simp [oneMore, Option.filter_some, h]

/-- A panel that lets its lanes go ends its own claim (R106). -/
theorem claimLeft_oneMore (on : PanelId → Bool) (p : PanelId) (claim : Option Claim) :
    claimLeft (oneMore on p) claim =
      if (claimLeft on claim).any (fun x => decide (x.panel = p)) then none else claimLeft on claim := by
  cases claim with
  | none => rfl
  | some x =>
    simp only [claimLeft, Option.filter_some, oneMore]
    by_cases gone : on x.panel = true
    · simp [gone]
    · by_cases own : x.panel = p
      · subst own
        simp [gone]
      · simp [gone, own]

theorem vacated_none (n : LaneId) : vacated none n = Lane.free := rfl

theorem vacated_states (claim : Option Claim) (n : LaneId) : vacated claim n = Lane.claimed ∨ vacated claim n = Lane.free := by
  unfold vacated
  split
  · exact .inl rfl
  · exact .inr rfl

section
variable {claim : Option Claim} {on : PanelId → Bool} {p : PanelId} {n : LaneId} {k : Lane}

theorem letGo_vacated (served : Prop) [Decidable served] : letGo claim p n served (vacated claim n) =
    vacated (if claim.any (fun x => decide (x.panel = p)) then none else claim) n := by
  rw [letGo, ite_self]
  by_cases own : claim.any (fun x => decide (x.panel = p)) = true
  · rw [if_pos own, vacated_none]
    rcases vacated_states claim n with e | e <;> simp [e, own, Lane.residentFor, Lane.claimed, Lane.free]
  · rw [if_neg own]
    rcases vacated_states claim n with e | e <;> simp [e, own, Lane.residentFor, Lane.claimed, Lane.free]

theorem letGo_free (served : Prop) [Decidable served] (h : ¬ served) : letGo claim p n served Lane.free = Lane.free := by
  simp [letGo, h, Lane.residentFor, Lane.free]

theorem letGo_served (served : Prop) [Decidable served] (h : served) :
    letGo claim p n served k = letGo claim p n served (vacated claim n) := by
  simp only [letGo, if_pos h]

/-- A lane that the panels `on` leave as it was. -/
theorem laneLeft_step_kept (served : Prop) [Decidable served] (h : served ↔ k.serves = true ∧ k.panel = some p)
    (other : ¬ served) (serves : ¬ (k.serves = true ∧ k.panel.any on = true))
    (resident : ¬ (k.state = .resident ∧ k.panel.any on = true))
    (claimed : ¬ (k.state = .claimed ∧ claim.any (fun x => on x.panel) = true)) :
    laneLeft claim (oneMore on p) n k = letGo (claimLeft on claim) p n served k := by
  have serves' : ¬ (k.serves = true ∧ k.panel.any (oneMore on p) = true) := fun ⟨s, any⟩ =>
    ((any_oneMore on p k.panel).1 any).elim (fun a => serves ⟨s, a⟩) (fun e => other (h.2 ⟨s, e⟩))
  rw [laneLeft, if_neg serves', letGo, if_neg other]
  by_cases own : k.residentFor p = true
  · obtain ⟨state, panel⟩ := of_decide_eq_true own
    rw [if_pos ⟨state, (any_oneMore on p k.panel).2 (.inr panel)⟩]
    simp [own, Lane.free]
  · have resident' : ¬ (k.state = .resident ∧ k.panel.any (oneMore on p) = true) := fun ⟨s, any⟩ =>
      ((any_oneMore on p k.panel).1 any).elim (fun a => resident ⟨s, a⟩) (fun e => own (decide_eq_true ⟨s, e⟩))
    have ends : k.state = .claimed ∧ claim.any (fun x => oneMore on p x.panel) = true ↔
        (claimLeft on claim).any (fun x => decide (x.panel = p)) = true ∧ k.state = .claimed := by
      rw [claim_oneMore, and_comm]
      exact and_congr_left (fun s => or_iff_right (fun a => claimed ⟨s, a⟩))
    rw [if_neg resident', if_neg own]
    exact if_congr ends rfl rfl

/-- One panel more lets its lanes go. -/
theorem laneLeft_step (served : Prop) [Decidable served] (h : served ↔ k.serves = true ∧ k.panel = some p) :
    laneLeft claim (oneMore on p) n k = letGo (claimLeft on claim) p n served (laneLeft claim on n k) := by
  have stopped (s : k.serves = true) (any : k.panel.any (oneMore on p) = true) : laneLeft claim (oneMore on p) n k =
      letGo (claimLeft on claim) p n served (vacated (claimLeft on claim) n) := by
    rw [letGo_vacated, ← claimLeft_oneMore, laneLeft, if_pos ⟨s, any⟩]
  by_cases own : served
  · obtain ⟨s, panel⟩ := h.1 own
    rw [letGo_served served own, stopped s ((any_oneMore on p k.panel).2 (.inr panel))]
  · by_cases serves : k.serves = true ∧ k.panel.any on = true
    · obtain ⟨s, any⟩ := serves
      rw [stopped s ((any_oneMore on p k.panel).2 (.inl any)), laneLeft, if_pos ⟨s, any⟩]
    · by_cases resident : k.state = .resident ∧ k.panel.any on = true
      · obtain ⟨state, any⟩ := resident
        have open_ : ¬ k.serves = true := by simp [Lane.serves, state]
        simp only [laneLeft, open_, state, any, (any_oneMore on p k.panel).2 (.inl any), and_self, if_true]
        exact (letGo_free served own).symm
      · by_cases claimed : k.state = .claimed ∧ claim.any (fun x => on x.panel) = true
        · obtain ⟨state, any⟩ := claimed
          have open_ : ¬ k.serves = true := by simp [Lane.serves, state]
          simp only [laneLeft, open_, false_and, if_false, state, any, (claim_oneMore on p claim).2 (.inl any), and_self,
            if_true, reduceCtorEq]
          exact (letGo_free served own).symm
        · have kept : laneLeft claim on n k = k := by
            rw [laneLeft, if_neg serves, if_neg resident, if_neg claimed]
          rw [kept]
          exact laneLeft_step_kept served h own serves resident claimed

theorem laneLeft_serves (out : on p = false) : (laneLeft claim on n k).serves = true ∧
    (laneLeft claim on n k).panel = some p ↔ k.serves = true ∧ k.panel = some p := by
  have vacant : (vacated (claimLeft on claim) n).panel = none := by
    rcases vacated_states (claimLeft on claim) n with e | e <;> rw [e] <;> rfl
  have elsewhere : k.panel = some p → ¬ k.panel.any on = true := fun e => by simp [e, out]
  unfold laneLeft
  split
  · next gone => exact ⟨fun h => absurd (vacant.symm.trans h.2) nofun, fun h => absurd gone.2 (elsewhere h.2)⟩
  · split
    · next gone => exact ⟨fun h => absurd h.2 nofun, fun h => absurd gone.2 (elsewhere h.2)⟩
    · split
      · next gone => exact ⟨fun h => absurd h.2 nofun, fun h => absurd h.1 (by simp [Lane.serves, gone.1])⟩
      · rfl

theorem laneLeft_kept (h : k.serves = true ∧ k.panel = some p) (out : on p = false) : laneLeft claim on n k = k := by
  obtain ⟨serves, panel⟩ := h
  have elsewhere : ¬ k.panel.any on = true := by simp [panel, out]
  have state : k.state ≠ .claimed := fun e => by simp [Lane.serves, e] at serves
  rw [laneLeft, if_neg (fun h => elsewhere h.2), if_neg (fun h => elsewhere h.2), if_neg (fun h => state h.1)]

end

theorem rotationLeft_oneMore {w v : Works} {on : PanelId → Bool} (p : PanelId) (h : v.rotation = w.rotationLeft on) :
    v.rotationLeft (fun m => decide (m = p)) = w.rotationLeft (oneMore on p) := by
  simp only [Works.rotationLeft, h]
  cases w.rotation.claim with
  | none => rfl
  | some x =>
    by_cases gone : on x.panel = true
    · have left : claimLeft on (some x) = none := by simp [claimLeft, gone]
      have left' : claimLeft (oneMore on p) (some x) = none := by simp [claimLeft, oneMore, gone]
      rw [left, left']
      simp [oneMore, gone, claimLeft]
    · have left : claimLeft on (some x) = some x := by simp [claimLeft, gone]
      rw [left]
      by_cases own : x.panel = p
      · subst own
        simp [oneMore, gone, claimLeft, Option.filter_some]
      · simp [oneMore, gone, claimLeft, Option.filter_some, own]

/-- One panel more lets its lanes go. -/
theorem lanesLeft_step {w v : Works} {on : PanelId → Bool} {p : PanelId} {q : Panel} (h : LanesLeft w on v)
    (defined : w.panels[p] = some q) (out : on p = false) : LanesLeft w (oneMore on p) (v.disableLanes p) := by
  have record : v.panels[p] = some q := by
    rw [h.panels, Works.panelLeft, out]
    exact defined
  have serving (n : LaneId) : n ∈ v.lanesServing p ↔ (w.lanes[n]).serves = true ∧ (w.lanes[n]).panel = some p := by
    rw [mem_lanesServing, h.lanes, laneLeft_serves out]
  have work : v.workOf p = w.workOf p := by
    have lanes : v.lanesServing p = w.lanesServing p := List.filter_congr (fun n _ => by
      rw [Bool.eq_iff_iff, Bool.and_eq_true, Bool.and_eq_true, decide_eq_true_eq, decide_eq_true_eq, h.lanes]
      exact laneLeft_serves out)
    rw [Works.workOf, Works.workOf, lanes]
    refine congrArg (List.foldl CauseSet.union CauseSet.none) (List.map_congr_left (fun n mem => ?_))
    rw [h.lanes, laneLeft_kept ((mem_lanesServing w p n).1 mem) out]
  obtain ⟨links, panels, rotation, now⟩ := disableLanes_frame record
  refine ⟨now.trans h.now, links.trans h.links, rotation.trans (rotationLeft_oneMore p h.rotation), fun n => ?_,
    fun m => ?_⟩
  · have claim : v.rotation.claim = claimLeft on w.rotation.claim := by rw [h.rotation]; rfl
    rw [disableLanes_lanes record, claim, h.lanes, laneLeft_step _ (serving n)]
  · rw [panels, set_getFin, work, h.panels]
    unfold Works.panelLeft oneMore
    by_cases own : p = m
    · subst own
      simp [defined]
    · simp [own, Ne.symm own]

/-- The lanes of a list of panels let go one by one. -/
theorem lanesLeft_fold {w : Works} (ps : List PanelId) (v : Works) (on : PanelId → Bool) (h : LanesLeft w on v)
    (defined : ∀ p ∈ ps, ∃ q, w.panels[p] = some q) (out : ∀ p ∈ ps, on p = false) (nodup : ps.Nodup) :
    LanesLeft w (fun m => on m || decide (m ∈ ps)) (ps.foldl Works.disableLanes v) := by
  induction ps generalizing v on with
  | nil => simpa using h
  | cons p ps ih =>
    obtain ⟨fresh, rest⟩ := List.nodup_cons.1 nodup
    obtain ⟨q, record⟩ := defined p (.head _)
    have later : ∀ p' ∈ ps, oneMore on p p' = false := fun p' hp => by
      have other : p' ≠ p := fun e => fresh (e ▸ hp)
      simp [oneMore, out p' (.tail _ hp), other]
    have step := ih (v.disableLanes p) (oneMore on p) (lanesLeft_step h record (out p (.head _)))
      (fun p' hp => defined p' (.tail _ hp)) later rest
    have same : (fun m => oneMore on p m || decide (m ∈ ps)) = fun m => on m || decide (m ∈ p :: ps) := by
      funext m
      simp [oneMore, Bool.or_assoc]
    exact same ▸ step

end Sys2Proof.Machine
end

section
/-! The panels of a link OFFLINE, and their swaps (R95, R176, R177). -/

namespace Sys2Proof.Machine

/-! ## What no completion and no adoption changes -/

theorem offer_notices (x : Completion) (pt : Port) : (pt.offer x).notices = pt.notices := by
  unfold Port.offer
  split <;> rfl

theorem complete_notices (p q : PortId) (x : Completion) (d : Delivery) :
    ((d.complete p x).ports[q]).notices = (d.ports[q]).notices := by
  rw [Delivery.complete, Delivery.mapPort_ports, modifyAt_getFin]
  split
  · next e => rw [offer_notices, e]
  · rfl

theorem checkConfirmations_notices (b : Board) (d : Delivery) (q : PortId) :
    ((d.checkConfirmations b).ports[q]).notices = (d.ports[q]).notices := by
  unfold Delivery.checkConfirmations
  refine foldl_keeps (fun e : Delivery => (e.ports[q]).notices = (d.ports[q]).notices) _ (fun e k h => ?_) _ _ rfl
  unfold Delivery.checkConfirmation
  split
  · exact h
  · exact (complete_notices _ q _ e).trans h

theorem adopt_notices (b : Board) (d : Delivery) (r : StagedRecord) (q : PortId) :
    ((d.adopt b r).ports[q]).notices = (d.ports[q]).notices := by
  unfold Delivery.adopt
  split
  · rfl
  · exact checkConfirmations_notices b _ q

theorem checkSwap_notices (b : Board) (g : GroupId) (d : Delivery) (q : PortId) :
    ((d.checkSwap b g).ports[q]).notices = (d.ports[q]).notices := by
  unfold Delivery.checkSwap
  split
  · rfl
  · next x _ =>
    split
    · obtain ⟨ports, -⟩ := showSwap_frame b d x
      simp only [Delivery.endSwap_ports, ports]
      exact foldl_keeps (fun e : Delivery => (e.ports[q]).notices = (d.ports[q]).notices) _
        (fun e r h => (adopt_notices b e r q).trans h) _ _ rfl
    · rfl

/-- The lane is in the state of another, with its panel. -/
def sameHold (a b : Lane) : Prop := a.state = b.state ∧ a.panel = b.panel

theorem sameHold_trans {a b c : Lane} (h : sameHold a b) (k : sameHold b c) : sameHold a c :=
  ⟨h.1.trans k.1, h.2.trans k.2⟩

theorem putPanel_holds (p : PanelId) (q : Panel) (w : Works) (n : LaneId) :
    sameHold (w.putPanel p q).lanes[n] w.lanes[n] := by
  rw [Works.putPanel_lanes, mapTable_getFin, Lane.syncContext_eq]
  exact ⟨rfl, rfl⟩

theorem adopts_hold (b : Board) (rs : List StagedRecord) (d : Delivery) (n : LaneId) :
    sameHold (rs.foldl (Delivery.adopt b) d).works.lanes[n] d.works.lanes[n] := by
  refine foldl_keeps (fun e : Delivery => sameHold e.works.lanes[n] d.works.lanes[n]) _ (fun e r h => ?_) _ _ ⟨rfl, rfl⟩
  unfold Delivery.adopt
  split
  · exact h
  · rw [(checkConfirmations_frame b _).2]
    exact sameHold_trans (putPanel_holds _ _ _ n) h

theorem adopts_sameButAck (b : Board) (rs : List StagedRecord) (d : Delivery) (m : PanelId) :
    sameButAck (rs.foldl (Delivery.adopt b) d).works.panels[m] d.works.panels[m] := by
  refine foldl_keeps (fun e : Delivery => sameButAck e.works.panels[m] d.works.panels[m]) _ (fun e r h => ?_) _ _ rfl
  rw [adopt_panels]
  split
  · refine Eq.trans ?_ h
    rw [Option.map_map]
    refine congrArg (Option.map · _) (funext (fun q => ?_))
    simp only [Function.comp, StagedRecord.adoptedBy, acknowledge_eq]
  · exact h

theorem sameButAck_link {a b : Option Panel} (h : sameButAck a b) : a.map Panel.link = b.map Panel.link := by
  have links := congrArg (Option.map Panel.link) h
  rw [Option.map_map, Option.map_map] at links
  exact links

/-! ## The panels OFFLINE one by one (R95) -/

/-- `e` is `d` with the panels `on` OFFLINE. -/
structure PanelsOffline (d : Delivery) (on : PanelId → Bool) (e : Delivery) : Prop where
  groups : e.groups = d.groups
  links : e.works.links = d.works.links
  rotation : e.works.rotation = d.works.rotation
  notices : ∀ x : PortId, (e.ports[x]).notices = (d.ports[x]).notices
  lanes : ∀ n : LaneId, sameHold e.works.lanes[n] d.works.lanes[n]
  panels : ∀ m : PanelId, e.works.panels[m] = if on m then (d.works.panels[m]).map Panel.disable else d.works.panels[m]

theorem panelsOffline_none (d : Delivery) : PanelsOffline d (fun _ => false) d :=
  ⟨rfl, rfl, rfl, fun _ => rfl, fun _ => ⟨rfl, rfl⟩, fun _ => rfl⟩

theorem panelsOffline_step {b : Board} {d e : Delivery} {on : PanelId → Bool} {p : PanelId} (h : PanelsOffline d on e)
    (out : on p = false) : PanelsOffline d (oneMore on p) (disablePanel b e p) := by
  have record : e.works.panels[p] = d.works.panels[p] := by rw [h.panels, out]; rfl
  have others (m : PanelId) (other : p ≠ m) : oneMore on p m = on m := by simp [oneMore, other.symm]
  have own : oneMore on p p = true := by simp [oneMore]
  unfold disablePanel
  cases hp : e.works.panels[p] with
  | none =>
    refine { h with panels := fun m => ?_ }
    by_cases same : p = m
    · subst same
      rw [own, hp, ← record, hp]
      rfl
    · rw [others m same, h.panels]
  | some q =>
    obtain ⟨groups, works⟩ := checkConfirmations_frame b (e.mapWorks (Works.putPanel p q.disable))
    refine ⟨groups.trans h.groups, ?_, ?_, fun x => (checkConfirmations_notices b _ x).trans (h.notices x), fun n => ?_,
      fun m => ?_⟩
    · rw [works]
      exact h.links
    · rw [works]
      exact h.rotation
    · rw [works]
      exact sameHold_trans (putPanel_holds p q.disable e.works n) (h.lanes n)
    · rw [works, Delivery.mapWorks_works, Works.putPanel_panels, set_getFin]
      by_cases same : p = m
      · subst same
        rw [if_pos rfl, own, ← record, hp]
        rfl
      · rw [if_neg same, others m same, h.panels]

theorem panelsOffline_fold {b : Board} {d : Delivery} (ps : List PanelId) (e : Delivery) (on : PanelId → Bool)
    (h : PanelsOffline d on e) (out : ∀ p ∈ ps, on p = false) (nodup : ps.Nodup) :
    PanelsOffline d (fun m => on m || decide (m ∈ ps)) (ps.foldl (disablePanel b) e) := by
  induction ps generalizing e on with
  | nil => simpa using h
  | cons p ps ih =>
    obtain ⟨fresh, rest⟩ := List.nodup_cons.1 nodup
    have later : ∀ p' ∈ ps, oneMore on p p' = false := fun p' hp => by
      have other : p' ≠ p := fun e => fresh (e ▸ hp)
      simp [oneMore, out p' (.tail _ hp), other]
    have step := ih (disablePanel b e p) (oneMore on p) (panelsOffline_step h (out p (.head _))) later rest
    have same : (fun m => oneMore on p m || decide (m ∈ ps)) = fun m => on m || decide (m ∈ p :: ps) := by
      funext m
      simp [oneMore, Bool.or_assoc]
    exact same ▸ step

/-! ## The swaps checked (R176, R177) -/

/-- No panel on the link. -/
def offLink (w : Works) (l : LinkId) (p : PanelId) : Prop := ∀ q, w.panels[p] = some q → q.link ≠ l

/-- `e` keeps of `d` all that concerns link `l`: no swap of `e` holds an image of a panel on the link. -/
structure SparesLink (l : LinkId) (d e : Delivery) : Prop where
  staged : ∀ (g : GroupId) (x : Swap), (e.groups[g]).swap = some x → ∀ r ∈ x.staged, offLink d.works l r.panel
  link : e.works.links[l] = d.works.links[l]
  rotation : e.works.rotation = d.works.rotation
  lanes : ∀ n : LaneId, sameHold e.works.lanes[n] d.works.lanes[n]
  onLink : ∀ m : PanelId, ¬ offLink d.works l m → e.works.panels[m] = d.works.panels[m]
  panels : ∀ m : PanelId, sameButAck e.works.panels[m] d.works.panels[m]

theorem toShow_staged {x : Swap} {r : StagedRecord} (h : r ∈ x.toShow) : r ∈ x.staged := by
  obtain ⟨m, -, found⟩ := List.mem_filterMap.1 (List.mem_filter.1 h).1
  exact List.mem_of_find?_eq_some found

theorem sparesLink_shown {b : Board} {l : LinkId} {d e : Delivery} (h : SparesLink l d e) {x : Swap}
    (spared : ∀ r ∈ x.staged, offLink d.works l r.panel) : SparesLink l d (e.showSwap b x) := by
  obtain ⟨-, -, panels, lanes, rotation, -⟩ := showSwap_frame b e x
  obtain ⟨-, -, rotation', -⟩ := adopts_frame b x.toShow e
  have none_asked (y : Drop) : ¬ ∃ r ∈ x.toShow, ∃ q, e.works.panels[r.panel] = some q ∧ q.link = l ∧ q.drop = y := by
    rintro ⟨r, mem, q, defined, link, -⟩
    have links := sameButAck_link (h.panels r.panel)
    rw [defined] at links
    obtain ⟨q0, defined0, same⟩ := Option.map_eq_some_iff.1 links.symm
    exact spared r (toShow_staged mem) q0 defined0 (same.trans link)
  refine ⟨fun g y swap => h.staged g y (showSwap_groups b e x ▸ swap), ?_, ?_, fun n => ?_, fun m on => ?_, fun m => ?_⟩
  · exact ((showSwap_links b e x l).1 (.inr none_asked)).trans h.link
  · rw [rotation, rotation', h.rotation]
  · rw [lanes]
    exact sameHold_trans (adopts_hold b x.toShow e n) (h.lanes n)
  · rw [panels, adopts_other b x.toShow e m (fun r mem same => on (same ▸ spared r (toShow_staged mem))), h.onLink m on]
  · rw [panels]
    exact (adopts_sameButAck b x.toShow e m).trans (h.panels m)

theorem sparesLink_ended {l : LinkId} {d e : Delivery} (h : SparesLink l d e) (g : GroupId) (x : Swap) :
    SparesLink l d (e.endSwap g x) := by
  refine ⟨fun j y swap => ?_, h.link, h.rotation, fun n => ?_, h.onLink, h.panels⟩
  · rw [Delivery.endSwap_groups, modifyAt_getFin] at swap
    split at swap
    · cases swap
    · exact h.staged j y swap
  · rw [Delivery.endSwap_works, Works.outlive_lanes, mapTable_getFin]
    exact sameHold_trans ⟨Lane.outlive_state _ _, Lane.outlive_panel _ _⟩ (h.lanes n)

theorem sparesLink_checkSwap {b : Board} {l : LinkId} {d e : Delivery} (h : SparesLink l d e) (g : GroupId) :
    SparesLink l d (e.checkSwap b g) := by
  cases swap : (e.groups[g]).swap with
  | none =>
    simp only [Delivery.checkSwap, swap]
    exact h
  | some x =>
    rw [checkSwap_eq b e g x swap]
    split
    · exact sparesLink_ended (sparesLink_shown h (h.staged g x swap)) g x
    · exact h

end Sys2Proof.Machine
end

section
/-! LINK_SETUP, LINK_ENABLE and LINK_DISABLE settled (R95, R159 to R161). -/

namespace Sys2Proof.Machine

/-! ## LINK_SETUP and LINK_ENABLE (R159, R160) -/

section
variable {l : LinkId} {c : Content} {d : Delivery}

theorem setupLink_above {v : Nat} (h : 7 < v) (divider timeout startLevel : Nat) :
    setupLink v divider timeout startLevel c d = (c, d, refuse .badValue) := by
  simp only [setupLink, index?_of_le h]

theorem enableLink_above {v : Nat} (h : 7 < v) : enableLink v c d = (c, d, refuse .badValue) := by
  simp only [enableLink, index?_of_le h]

theorem disableLink_above {v : Nat} (h : 7 < v) : disableLink v c d = (c, d, refuse .badValue) := by
  simp only [disableLink, index?_of_le h]

theorem setupLink_refused (h : (d.works.links[l]).state ≠ .disabled) (divider timeout startLevel : Nat) :
    setupLink l.val divider timeout startLevel c d = (c, d, refuse .state) := by
  simp only [setupLink, index?_val]
  exact if_pos h

theorem setupLink_passed (h : (d.works.links[l]).state = .disabled) (divider timeout startLevel : Nat) :
    setupLink l.val divider timeout startLevel c d =
      let k := { d.works.links[l] with
        divider := storedDivider divider, timeout := clampTo 1 255 timeout, startLevel := storedStart startLevel }
      (c, d.mapWorks (Works.setLink l k), okWith (b2 k.divider ++ b1 k.timeout ++ b2 k.startLevel)) := by
  simp only [setupLink, index?_val]
  exact if_neg (not_not.2 h)

theorem enableLink_refused (h : (d.works.links[l]).state ≠ .disabled ∨ (d.works.links[l]).divider = 0) :
    enableLink l.val c d = (c, d, refuse .state) := by
  simp only [enableLink, index?_val]
  exact if_pos h

theorem enableLink_passed (h : (d.works.links[l]).state = .disabled) (divider : (d.works.links[l]).divider ≠ 0) :
    enableLink l.val c d = (c, d.mapWorks (fun w => (w.setLink l (d.works.links[l]).enable).mapPanelsOn l
      (fun q => { q with probeDue := some w.now })), okWith []) := by
  simp only [enableLink, index?_val]
  exact if_neg (not_or.2 ⟨not_not.2 h, divider⟩)

theorem disableLink_disabled (h : (d.works.links[l]).state = .disabled) :
    disableLink l.val c d = (c, d, okWith []) := by
  simp only [disableLink, index?_val]
  exact if_pos h

end

/-! ## The works as a link is disabled (R117, R161) -/

/-- The works of LINK_DISABLE before its panels are OFFLINE. -/
def Works.disableOn (w : Works) (l : LinkId) : Works :=
  ((w.panelsOn l).foldl Works.disableLanes w).setLink l w.links[l].disable

theorem disableLink_enabled {l : LinkId} {c : Content} {d : Delivery} (h : (d.works.links[l]).state ≠ .disabled) :
    disableLink l.val c d = (c, ((d.works.panelsOn l).foldl (disablePanel c.board)
      { d with works := d.works.disableOn l }).dropOutAll c.board (d.works.panelsOn l), okWith []) := by
  simp only [disableLink, index?_val]
  exact if_neg h

/-- The panel is on the link. -/
def Works.onLink (w : Works) (l : LinkId) (m : PanelId) : Bool := (w.panels[m]).any (fun q => decide (q.link = l))

theorem panelsOn_eq (w : Works) (l : LinkId) : w.panelsOn l = (List.finRange 64).filter (w.onLink l) :=
  panelList_map_filter w (fun q => decide (q.link = l))

theorem mem_panelsOn (w : Works) (l : LinkId) (m : PanelId) : m ∈ w.panelsOn l ↔ w.onLink l m = true := by
  simp [panelsOn_eq]

theorem onLink_iff (w : Works) (l : LinkId) (m : PanelId) :
    w.onLink l m = true ↔ ∃ q, w.panels[m] = some q ∧ q.link = l := by
  simp [Works.onLink, Option.any_eq_true]

theorem panelsOn_nodup (w : Works) (l : LinkId) : (w.panelsOn l).Nodup := by
  rw [panelsOn_eq]
  exact (List.nodup_finRange 64).filter _

theorem mem_panelsOn_fun (w : Works) (l : LinkId) :
    (fun m => false || decide (m ∈ w.panelsOn l)) = w.onLink l := by
  funext m
  rw [Bool.false_or, Bool.eq_iff_iff, decide_eq_true_eq, mem_panelsOn]

theorem panelsOn_left (w : Works) (l : LinkId) :
    LanesLeft w (w.onLink l) ((w.panelsOn l).foldl Works.disableLanes w) := by
  rw [← mem_panelsOn_fun]
  refine lanesLeft_fold (w.panelsOn l) w _ (lanesLeft_none w) (fun p mem => ?_) (fun _ _ => rfl) (panelsOn_nodup w l)
  obtain ⟨q, defined, -⟩ := (onLink_iff w l p).1 ((mem_panelsOn w l p).1 mem)
  exact ⟨q, defined⟩

/-- The record of a link as it is disabled, or as its sending is cut short (R158, R161). -/
theorem disable_eq (k : Link) : k.disable = match k.line with
    | .released => { k with
        state := .disabled, fifo := [], frame := none, probe := none, wait := none, pendingShow := [], busy := 0, rx := [] }
    | .frame => { k with line := .brk true, abandons := min 65535 (k.abandons + 1), busy := 0 }
    | .probe | .show | .brk _ => { k with line := .brk true } := by
  cases line : k.line <;> simp [Link.disable, Link.clear, line]

/-! ## The drop-outs (R95, R176) -/

theorem dropMembers_eq (ms : List PanelId) (x : Swap) : ms.foldl (fun x m => x.dropMember m) x = { x with
    dropped := ms.foldl (fun ds m => insertNumber m ds) x.dropped
    staged := x.staged.filter (fun r => decide (r.panel ∉ ms)) } := by
  induction ms generalizing x with
  | nil => simp
  | cons m ms ih =>
    rw [List.foldl_cons, ih]
    simp only [Swap.dropMember, List.foldl_cons, List.filter_filter]
    congr 1
    refine List.filter_congr (fun r _ => ?_)
    rw [Bool.eq_iff_iff]
    simp [and_comm]

/-- The members of a group that drop out with the panels `ms` (R176). -/
def leaving (ms : List PanelId) (g : Group) : List PanelId :=
  match g.swap with
  | none => []
  | some x => ms.filter (fun m => decide (m ∈ x.expected ∧ m ∉ x.dropped))

/-- A group as the panels `ms` drop out of its swap (R176). -/
def withoutLeaving (ms : List PanelId) (g : Group) : Group := { g with swap := g.swap.map (fun x => { x with
  dropped := (leaving ms g).foldl (fun ds m => insertNumber m ds) x.dropped
  staged := x.staged.filter (fun r => decide (r.panel ∉ leaving ms g)) }) }

theorem leaving_eq (ms : List PanelId) (g : Group) : ms.filter (fun p => g.mayDrop p) = leaving ms g := by
  unfold leaving Group.mayDrop
  cases g.swap with
  | none => simp
  | some x => exact List.filter_congr (fun m _ => by simp)

theorem dropOutAll_eq (b : Board) (ms : List PanelId) (d : Delivery) : d.dropOutAll b ms =
    ((List.finRange 8).filter (fun g => !(leaving ms d.groups[g]).isEmpty)).foldl (fun d g => d.checkSwap b g)
      { d with groups := mapTable (withoutLeaving ms) d.groups } := by
  have mark : (fun g : Group => { g with swap := g.swap.map (fun s =>
      (leaving ms g).foldl (fun s p => s.dropMember p) s) }) = withoutLeaving ms := by
    funext g
    simp only [dropMembers_eq, withoutLeaving]
  simp only [Delivery.dropOutAll, leaving_eq, ← mark]

/-- A group whose members on the link have dropped out holds no image of one (R174, R176). -/
theorem withoutLeaving_spares {gs : Vector Group 8} (ok : groupsOk gs) {w : Works} {l : LinkId} {ms : List PanelId}
    (all : ∀ m, ¬ offLink w l m → m ∈ ms) {g : GroupId} {x : Swap} (swap : (withoutLeaving ms gs[g]).swap = some x) :
    ∀ r ∈ x.staged, offLink w l r.panel := by
  intro r mem
  obtain ⟨-, groups⟩ := ok
  obtain ⟨y, armed, rfl⟩ := Option.map_eq_some_iff.1 swap
  obtain ⟨-, -, -, -, swaps⟩ := groups g
  obtain ⟨-, arrived, -⟩ := swaps y armed
  obtain ⟨staged, stays⟩ := List.mem_filter.1 mem
  by_contra on
  refine of_decide_eq_true stays ?_
  rw [leaving, armed]
  exact List.mem_filter.2 ⟨all _ on, decide_eq_true (arrived _ (List.mem_map_of_mem staged))⟩

/-! ## LINK_DISABLE as a whole (R161) -/

/-- The works of LINK_DISABLE: lanes, claim and wake sets as the panels of the link let them go, and the link. -/
theorem disableOn_links (w : Works) (l : LinkId) : (w.disableOn l).links = w.links.set l w.links[l].disable := by
  rw [Works.disableOn, Works.setLink, (panelsOn_left w l).links]

theorem disableOn_panels_on {w : Works} {l : LinkId} {m : PanelId} {q : Panel} (h : w.panels[m] = some q)
    (on : q.link = l) : (w.disableOn l).panels[m] = some { q with wake := q.wake.union (w.workOf m) } := by
  refine ((panelsOn_left w l).panels m).trans ?_
  rw [Works.panelLeft, if_pos ((onLink_iff w l m).2 ⟨q, h, on⟩), h]
  rfl

theorem disableOn_panels_off {w : Works} {l : LinkId} {m : PanelId} (off : w.onLink l m = false) :
    (w.disableOn l).panels[m] = w.panels[m] := by
  refine ((panelsOn_left w l).panels m).trans ?_
  rw [Works.panelLeft, off]
  rfl

theorem offLink_iff (w : Works) (l : LinkId) (m : PanelId) : offLink w l m ↔ w.onLink l m = false := by
  rw [Bool.eq_false_iff, Ne, onLink_iff]
  exact ⟨fun h ⟨q, defined, link⟩ => h q defined link, fun h q defined link => h ⟨q, defined, link⟩⟩

/-- The panels of a link OFFLINE, their swaps as they were. -/
def Delivery.takenOff (b : Board) (l : LinkId) (d : Delivery) : Delivery :=
  (d.works.panelsOn l).foldl (disablePanel b) { d with works := d.works.disableOn l }

/-- The panels of a link OFFLINE and out of their swaps, none of these checked. -/
def Delivery.droppedOff (b : Board) (l : LinkId) (d : Delivery) : Delivery := { d.takenOff b l with
  groups := mapTable (withoutLeaving (d.works.panelsOn l)) (d.takenOff b l).groups }

/-- What LINK_DISABLE leaves of the delivery side (R95, R161). -/
def Delivery.linkOff (b : Board) (l : LinkId) (d : Delivery) : Delivery :=
  ((List.finRange 8).filter (fun g => !(leaving (d.works.panelsOn l) d.groups[g]).isEmpty)).foldl
    (fun d g => d.checkSwap b g) (d.droppedOff b l)

section
variable {b : Board} {l : LinkId} {d : Delivery}

theorem takenOff_offline (b : Board) (l : LinkId) (d : Delivery) :
    PanelsOffline { d with works := d.works.disableOn l } (d.works.onLink l) (d.takenOff b l) := by
  rw [← mem_panelsOn_fun]
  exact panelsOffline_fold _ _ _ (panelsOffline_none _) (fun _ _ => rfl) (panelsOn_nodup _ l)

theorem disableLink_eq {c : Content} (h : (d.works.links[l]).state ≠ .disabled) :
    disableLink l.val c d = (c, d.linkOff c.board l, okWith []) := by
  have groups : ((d.works.panelsOn l).foldl (disablePanel c.board) { d with works := d.works.disableOn l }).groups =
      d.groups := (takenOff_offline c.board l d).groups
  rw [disableLink_enabled h, dropOutAll_eq]
  simp only [Delivery.linkOff, Delivery.droppedOff, Delivery.takenOff, groups]

theorem takenOff_panels_on {m : PanelId} {q : Panel} (h : d.works.panels[m] = some q) (on : q.link = l) :
    (d.takenOff b l).works.panels[m] = some ({ q with wake := q.wake.union (d.works.workOf m) } : Panel).disable := by
  rw [(takenOff_offline b l d).panels, if_pos ((onLink_iff _ l m).2 ⟨q, h, on⟩), disableOn_panels_on h on]
  rfl

theorem takenOff_panels_off {m : PanelId} (off : d.works.onLink l m = false) :
    (d.takenOff b l).works.panels[m] = d.works.panels[m] := by
  rw [(takenOff_offline b l d).panels, off]
  exact disableOn_panels_off off

theorem takenOff_onLink (m : PanelId) : (d.takenOff b l).works.onLink l m = d.works.onLink l m := by
  cases on : d.works.onLink l m with
  | false => rw [Works.onLink, takenOff_panels_off on]; exact on
  | true =>
    obtain ⟨q, defined, link⟩ := (onLink_iff _ l m).1 on
    rw [Works.onLink, takenOff_panels_on defined link]
    exact decide_eq_true link

theorem linkOff_notices (x : PortId) : ((d.linkOff b l).ports[x]).notices = (d.ports[x]).notices :=
  foldl_keeps (fun e : Delivery => (e.ports[x]).notices = (d.ports[x]).notices) _
    (fun e g h => (checkSwap_notices b g e x).trans h) _ _ ((takenOff_offline b l d).notices x)

/-- Nothing of the link is touched as the swaps are checked (R176, R177). -/
theorem linkOff_spares (ok : groupsOk d.groups) : SparesLink l (d.droppedOff b l) (d.linkOff b l) := by
  refine foldl_keeps (SparesLink l (d.droppedOff b l)) _ (fun e g h => sparesLink_checkSwap h g) _ _
    ⟨fun g x swap => ?_, rfl, rfl, fun _ => ⟨rfl, rfl⟩, fun _ _ => rfl, fun _ => rfl⟩
  simp only [Delivery.droppedOff, mapTable_getFin, (takenOff_offline b l d).groups] at swap
  refine withoutLeaving_spares ok (fun m on => ?_) swap
  rw [mem_panelsOn, ← takenOff_onLink (b := b)]
  exact Bool.eq_true_of_not_eq_false (mt (offLink_iff _ l m).2 on)

end

theorem onLink_defined {w : Works} {m : PanelId} {q : Panel} (h : w.panels[m] = some q) (l : LinkId) :
    w.onLink l m = decide (q.link = l) := by
  rw [Works.onLink, h]
  rfl

/-- No lane holds a panel that let its lanes go (R117). -/
theorem laneLeft_holds {claim : Option Claim} {on : PanelId → Bool} {n : LaneId} {k : Lane} {m : PanelId} (gone : on m = true)
    (held : (laneLeft claim on n k).serves = true ∨ (laneLeft claim on n k).state = .resident) :
    (laneLeft claim on n k).panel ≠ some m := by
  unfold laneLeft at held ⊢
  split
  · rcases vacated_states (claimLeft on claim) n with e | e <;> rw [e] <;> nofun
  · next serves =>
    split
    · nofun
    · next resident =>
      split
      · nofun
      · next claimed =>
        rw [if_neg serves, if_neg resident, if_neg claimed] at held
        intro panel
        have any : k.panel.any on = true := by rw [panel]; exact gone
        exact held.elim (fun h => serves ⟨h, any⟩) (fun h => resident ⟨h, any⟩)

theorem claimLeft_off {on : PanelId → Bool} {claim : Option Claim} {x : Claim} (h : claimLeft on claim = some x) :
    on x.panel = false := by
  obtain ⟨-, off⟩ := Option.filter_eq_some_iff.1 h
  simpa using off

theorem serves_of_sameHold {a b : Lane} (h : sameHold a b) : a.serves = b.serves := by
  unfold Lane.serves
  rw [h.1]

theorem takesBack_more {w : Works} {p : PanelId} {wake merged : CauseSet} (h : TakesBack w p wake merged) (a : CauseSet) :
    TakesBack w p (wake.union a) (merged.union a) := by
  intro c
  rw [CauseSet.has_union, CauseSet.has_union, h c]
  exact or_right_comm

section
variable {b : Board} {l : LinkId} {d : Delivery} (ok : groupsOk d.groups)
include ok

theorem linkOff_link : (d.linkOff b l).works.links[l] = (d.works.links[l]).disable := by
  rw [(linkOff_spares ok).link, Delivery.droppedOff, (takenOff_offline b l d).links]
  exact (congrArg (fun v => v[l]) (disableOn_links d.works l)).trans (set_getFin_self _ _ _)

theorem linkOff_staged {g : GroupId} {x : Swap} (swap : ((d.linkOff b l).groups[g]).swap = some x) :
    ∀ r ∈ x.staged, offLink d.works l r.panel := by
  intro r mem
  rw [offLink_iff, ← takenOff_onLink (b := b), ← offLink_iff]
  exact (linkOff_spares ok).staged g x swap r mem

theorem linkOff_panels_off {m : PanelId} (off : d.works.onLink l m = false) :
    sameButAck (d.linkOff b l).works.panels[m] d.works.panels[m] :=
  ((linkOff_spares ok).panels m).trans (congrArg _ (takenOff_panels_off off))

theorem linkOff_panels_on {m : PanelId} {q : Panel} (h : d.works.panels[m] = some q) (on : q.link = l) :
    (d.linkOff b l).works.panels[m] = some ({ q with wake := q.wake.union (d.works.workOf m) } : Panel).disable := by
  refine ((linkOff_spares ok).onLink m (fun off => ?_)).trans (takenOff_panels_on h on)
  rw [offLink_iff] at off
  exact absurd ((takenOff_onLink m).symm.trans off) (by rw [onLink_defined h, decide_eq_true on]; nofun)

theorem linkOff_lanes (n : LaneId) : sameHold (d.linkOff b l).works.lanes[n]
    (laneLeft d.works.rotation.claim (d.works.onLink l) n d.works.lanes[n]) := by
  rw [← (panelsOn_left d.works l).lanes]
  exact sameHold_trans ((linkOff_spares ok).lanes n) ((takenOff_offline b l d).lanes n)

theorem linkOff_claim : (d.linkOff b l).works.rotation.claim = claimLeft (d.works.onLink l) d.works.rotation.claim := by
  have rotation : (d.linkOff b l).works.rotation = d.works.rotationLeft (d.works.onLink l) :=
    (linkOff_spares ok).rotation.trans ((takenOff_offline b l d).rotation.trans (panelsOn_left d.works l).rotation)
  rw [rotation]
  rfl

end

/-- Settles O53: LINK_SETUP and LINK_ENABLE by their checks; LINK_DISABLE by what its panels let go (`panelsOn_left`), the
panels OFFLINE (`takenOff_offline`), and the swaps that are then checked (`linkOff_spares`). -/
theorem linkSetupEnableAndDisable : Obligations.LinkSetupEnableAndDisable := by
  unfold Obligations.LinkSetupEnableAndDisable
  refine ⟨fun p v divider timeout startLevel s above rank i mem take => ?_, fun p l divider timeout startLevel s => ?_⟩
  · rcases List.mem_cons.1 mem with rfl | mem
    · exact refuses_of_supervised p _ (setupLink v divider timeout startLevel) s _ rfl take rank
        (setupLink_above above divider timeout startLevel)
    · rcases List.mem_cons.1 mem with rfl | mem
      · exact refuses_of_supervised p _ (enableLink v) s _ rfl take rank (enableLink_above above)
      · cases List.mem_singleton.1 mem
        exact refuses_of_supervised p _ (disableLink v) s _ rfl take rank (disableLink_above above)
  · intro w k
    refine ⟨?_, ?_, ?_⟩
    · intro i k' take rank
      have answers {c : Content} {d : Delivery} {r : Reply} := replies_of_supervised p i
        (setupLink l.val divider timeout startLevel) s c d r rfl take rank
      exact ⟨fun on => answers (setupLink_refused (d := s.taking p) on divider timeout startLevel),
        fun off => answers (setupLink_passed (d := s.taking p) off divider timeout startLevel)⟩
    · intro i take rank
      have answers {c : Content} {d : Delivery} {r : Reply} := replies_of_supervised p i (enableLink l.val) s c d r rfl
        take rank
      exact ⟨fun bad => answers (enableLink_refused (d := s.taking p) bad), fun off divider => answers (enableLink_passed (d := s.taking p) off divider)⟩
    · intro i take rank
      have answers {c : Content} {d : Delivery} {r : Reply} := replies_of_supervised p i (disableLink l.val) s c d r rfl
        take rank
      refine ⟨fun off => answers (disableLink_disabled (d := s.taking p) off), fun on => ⟨w.disableOn l, ?_⟩⟩
      intro b members offline leaving' dropped touched taken d
      have same : d = (s.taking p).linkOff b l := by
        have listed : members = w.panelsOn l := (panelsOn_eq w l).symm
        have leave : leaving' = leaving (w.panelsOn l) := by rw [← listed]; rfl
        have drop : dropped = withoutLeaving (w.panelsOn l) := by rw [← listed]; rfl
        have off : offline = disablePanel b := rfl
        have took : taken = (s.taking p).takenOff b l := by
          change members.foldl offline _ = _
          rw [listed, off]
          rfl
        change ((List.finRange 8).filter (fun g => !(leaving' s.delivery.groups[g]).isEmpty)).foldl _
          { taken with groups := mapTable dropped taken.groups } = _
        rw [leave, drop, took]
        rfl
      clear_value d
      subst same
      refine ⟨answers (disableLink_eq (d := s.taking p) on), ?_⟩
      intro onLink kept
      have left := panelsOn_left w l
      refine ⟨left.rotation, left.lanes, ?_⟩
      intro linkThen
      have link : w.links[l].disable = linkThen := disable_eq w.links[l]
      refine ⟨left.now, (disableOn_links w l).trans (congrArg (w.links.set l) link), fun m q defined => ⟨fun off => ?_,
        fun on => ?_⟩, fun m undefined => ?_, fun x => ?_, fun ok => ?_⟩
      · exact (disableOn_panels_off ((onLink_defined defined l).trans (decide_eq_false off))).trans defined
      · exact ⟨_, takesBack_workOf w m q.wake, disableOn_panels_on defined on⟩
      · refine (disableOn_panels_off ?_).trans undefined
        rw [Works.onLink, undefined]
        rfl
      · exact (linkOff_notices x).trans (taking_notices p x s)
      · refine ⟨(linkOff_link (d := s.taking p) ok).trans link, fun g x swap => linkOff_staged (d := s.taking p) ok swap,
          fun m q defined => ⟨fun off => ?_, fun on => ⟨fun n held panel => ?_, fun x claim own => ?_, ?_⟩⟩⟩
        · rw [← show (s.taking p).works.panels[m] = some q from defined]
          exact linkOff_panels_off (d := s.taking p) ok ((onLink_defined defined l).trans (decide_eq_false off))
        · have same := linkOff_lanes (b := b) (l := l) (d := s.taking p) ok n
          rw [serves_of_sameHold same, same.1] at held
          exact laneLeft_holds ((onLink_defined defined l).trans (decide_eq_true on)) held (same.2.symm.trans panel)
        · have off := claimLeft_off ((linkOff_claim (b := b) (d := s.taking p) ok).symm.trans claim)
          rw [own, onLink_defined (w := (s.taking p).works) defined, decide_eq_true on] at off
          cases off
        · exact ⟨_, takesBack_more (takesBack_workOf w m q.wake) _, linkOff_panels_on (d := s.taking p) ok defined on⟩

end Sys2Proof.Machine
end

section
/-! TAKE, HANDOVER, WAIT_TIMEOUT and HOLD_SETUP settled (R67 to R70, R73, R75). -/

namespace Sys2Proof.Machine

/-! ## TAKE (R68, R69) -/

section
variable {p : PortId} {h : HoldId} {owner heir : PortId} {t : Nat} {wait : Option (Tag × Nat)} {c : Content}
  {d : Delivery}

theorem takeHold_above {hold : Nat} (above : 31 < hold) : takeHold p hold wait c d = (c, d, refuse .badValue) := by
  simp only [takeHold, index?_of_le above]

theorem takeHold_empty (state : (c.holds[h]).state = .empty) : takeHold p h.val wait c d =
    (c.setHold h ((c.holds[h]).grant d.works.now p), d, okWith [0x01]) := by
  simp only [takeHold, index?_val, state]

theorem takeHold_own (state : (c.holds[h]).state = .taken p t) :
    takeHold p h.val wait c d = (c, d, okWith [0x01]) := by
  simp only [takeHold, index?_val, state, if_true]

theorem takeHold_taken (state : (c.holds[h]).state = .taken owner t) (other : owner ≠ p) :
    takeHold p h.val wait c d = queueTake p h owner wait c d := by
  simp only [takeHold, index?_val, state, if_neg other]

theorem takeHold_handing (state : (c.holds[h]).state = .handed p heir t) :
    takeHold p h.val wait c d = (c, d, okWith [0x02]) := by
  simp only [takeHold, index?_val, state, if_true]

theorem takeHold_heir (state : (c.holds[h]).state = .handed owner p t) (other : owner ≠ p) :
    takeHold p h.val wait c d = (c.setHold h ((c.holds[h]).grant d.works.now p), d, okWith [0x01]) := by
  simp only [takeHold, index?_val, state, if_neg other, if_true]

theorem takeHold_handed (state : (c.holds[h]).state = .handed owner heir t) (other : owner ≠ p) (noHeir : heir ≠ p) :
    takeHold p h.val wait c d = queueTake p h owner wait c d := by
  simp only [takeHold, index?_val, state, if_neg other, if_neg noHeir]

theorem queueTake_waiting {k : Tag × Nat} (waits : ∃ x ∈ (c.holds[h]).waiters, x.port = p) :
    queueTake p h owner (some k) c d = (c, d, refuse .inUse) := by
  have found : (c.holds[h]).waiters.any (fun x => decide (x.port = p)) = true := by simpa using waits
  simp only [queueTake, if_pos found]

theorem queueTake_joins {tag : Tag} {seconds : Nat} (new : ∀ x ∈ (c.holds[h]).waiters, x.port ≠ p) :
    queueTake p h owner (some (tag, seconds)) c d =
      (c.setHold h { c.holds[h] with
          waiters := (c.holds[h]).waiters ++ [⟨p, tag, d.works.now + 1000 * seconds⟩] },
        d.mapPort p (fun pt => { pt with tags := pt.tags.set tag (.take h) }), ⟨.accepted, []⟩) := by
  have absent : ¬ (c.holds[h]).waiters.any (fun x => decide (x.port = p)) = true := by simpa using new
  simp only [queueTake, if_neg absent]

end

theorem execTake_plain (p : PortId) (tag hold : Nat) (s : State) :
    exec (.take p tag hold 0) s = request p (.take p tag hold 0) (takeHold p hold none) s := rfl

theorem execTake_split (p : PortId) (tag hold : Nat) {wait : Nat} (split : wait ≠ 0) (s : State) :
    exec (.take p tag hold wait) s = request p (.take p tag hold wait)
      (taggedRequest p tag (fun t => takeHold p hold (some (t, min 60 wait)))) s := by
  change request p _ (takeRequest p tag hold wait) s = _
  rw [takeRequest, if_neg split]

/-- What the hold unit makes of a TAKE whose tag, if it has one, is free is what the port answers (R68, R69). -/
theorem replies_of_take {p : PortId} {hold v wait : Nat} {tag : Tag} {s : State} {r : Reply} {c : Content} {d : Delivery}
    (take : s.canTake p (.take p v hold wait)) (named : wait = 0 ∨ v = tag.val)
    (free : wait = 0 ∨ (s.delivery.ports[p]).tags[tag] = .free)
    (h : takeHold p hold (if wait = 0 then none else some (tag, min 60 wait)) s.content (s.taking p) = (c, d, r)) :
    Replies p (.take p v hold wait) r s c d := by
  by_cases plain : wait = 0
  · subst plain
    exact replies_of_request p _ _ s c d r (execTake_plain p v hold s) take h
  · obtain rfl := named.resolve_left plain
    rw [if_neg plain] at h
    exact replies_of_tag (execTake_split p tag.val hold plain s) take (free.resolve_left plain) h

/-- The three answers to a port that finds the hold in the hands of another one (R68, R69). -/
theorem replies_of_queueTake {p owner : PortId} {h : HoldId} {v wait : Nat} {tag : Tag} {s : State}
    (take : s.canTake p (.take p v h.val wait)) (named : wait = 0 ∨ v = tag.val)
    (free : wait = 0 ∨ (s.delivery.ports[p]).tags[tag] = .free)
    (queues : ∀ w, takeHold p h.val w s.content (s.taking p) = queueTake p h owner w s.content (s.taking p)) :
    (wait = 0 → Replies p (.take p v h.val wait) ⟨.busy, b1 owner.val⟩ s s.content (s.taking p)) ∧
    (wait ≠ 0 → (∃ x ∈ (s.content.holds[h]).waiters, x.port = p) → Refuses p (.take p v h.val wait) .inUse s) ∧
    (wait ≠ 0 → (∀ x ∈ (s.content.holds[h]).waiters, x.port ≠ p) →
      Replies p (.take p v h.val wait) ⟨.accepted, []⟩ s
        (s.content.setHold h { s.content.holds[h] with waiters := (s.content.holds[h]).waiters ++
          [⟨p, tag, s.delivery.works.now + 1000 * min 60 wait⟩] })
        ((s.taking p).mapPort p (fun pt => { pt with tags := pt.tags.set tag (.take h) }))) := by
  refine ⟨fun plain => ?_, fun split waits => ?_, fun split new => ?_⟩ <;>
    refine replies_of_take take named free ((queues _).trans ?_)
  · rw [if_pos plain]
    rfl
  · rw [if_neg split]
    exact queueTake_waiting waits
  · rw [if_neg split]
    exact queueTake_joins new

/-- Settles O40: the tag by the checks of a split request, then the states of the hold one by one. -/
theorem takeGrantsRefusesOrQueues : Obligations.TakeGrantsRefusesOrQueues := by
  unfold Obligations.TakeGrantsRefusesOrQueues
  constructor
  · intro p v hold wait s i take
    refine ⟨fun split above => ?_, fun above plain => ?_, fun above tag named free => ?_⟩
    · exact refuses_of_badTag (execTake_split p v hold split s) take above
    · exact replies_of_take (tag := 0) take (.inl plain) (.inl plain) (takeHold_above above)
    · exact replies_of_take take (.inr named.symm) (.inr free) (takeHold_above above)
  · intro p h tag v wait s i k now granted queued take named
    refine ⟨fun split used => ?_, fun free => ?_⟩
    · obtain rfl := named.resolve_left split
      exact refuses_of_tagInUse (execTake_split p tag.val h.val split s) take used
    · refine ⟨fun state => ?_, fun t state => ?_, fun owner t state other => ?_, fun heir t state => ?_,
        fun owner t state other => ?_, fun owner heir t state other noHeir => ?_⟩
      · exact replies_of_take take named free (takeHold_empty state)
      · exact replies_of_take take named free (takeHold_own state)
      · exact replies_of_queueTake take named free (fun _ => takeHold_taken state other)
      · exact replies_of_take take named free (takeHold_handing state)
      · exact replies_of_take take named free (takeHold_heir state other)
      · exact replies_of_queueTake take named free (fun _ => takeHold_handed state other noHeir)

/-! ## HANDOVER (R73) -/

section
variable {p q : PortId} {h : HoldId} {c : Content} {d : Delivery}

theorem handoverRequest_above {hold heir : Nat} (above : 31 < hold ∨ 3 < heir) :
    handoverRequest p hold heir c d = (c, d, refuse .badValue) := by
  rcases above with above | above
  · simp only [handoverRequest, index?_of_le above]
  · cases index : index? 32 hold <;> simp only [handoverRequest, index, index?_of_le above]

theorem handoverRequest_notOwner (owner : (c.holds[h]).owner ≠ some p) :
    handoverRequest p h.val q.val c d = (c, d, refuse .notOwner) := by
  simp only [handoverRequest, index?_val, if_pos owner]

theorem handoverRequest_self (owner : (c.holds[h]).owner = some p) :
    handoverRequest p h.val p.val c d = (c, d, refuse .badValue) := by
  simp only [handoverRequest, index?_val, owner, ne_eq, not_true_eq_false, if_false, if_true]

theorem handoverRequest_hands (owner : (c.holds[h]).owner = some p) (other : q ≠ p) :
    handoverRequest p h.val q.val c d = ((handHold p h q c d).1, (handHold p h q c d).2,
      okWith ([((handHold p h q c d).1.holds[h]).state.code] ++ bPort ((handHold p h q c d).1.holds[h]).owner ++
        bPort ((handHold p h q c d).1.holds[h]).heir)) := by
  simp only [handoverRequest, index?_val, owner, ne_eq, not_true_eq_false, if_false, if_neg other]

theorem handHold_heir (absent : (c.holds[h]).waiterOf q = none) : handHold p h q c d =
    (c.setHold h { c.holds[h] with state := .handed p q (d.works.now + 1000 * (c.holds[h]).limit) }, d) := by
  rw [Hold.waiterOf] at absent
  simp only [handHold, absent]

theorem handHold_waiter {x : Waiter} (waits : (c.holds[h]).waiterOf q = some x) : handHold p h q c d =
    (c.setHold h ({ c.holds[h] with waiters := leaveQueue q (c.holds[h]).waiters }.grant d.works.now q),
      d.complete q (grantCompletion h x)) := by
  rw [Hold.waiterOf] at waits
  simp only [handHold, waits]

end

theorem waiterOf_port {k : Hold} {p : PortId} {x : Waiter} (waits : k.waiterOf p = some x) : x.port = p := by
  simpa using List.find?_some waits

theorem waitTimeout_leaves {h : HoldId} {p : PortId} {s : State} {x : Waiter}
    (waits : (s.content.holds[h]).waiterOf p = some x) :
    Leaves (exec (.waitTimeout h p) s) s (endWait h x .timeout (b1 h.val) s.content (s.delivery.reach x.deadline)).1
      (endWait h x .timeout (b1 h.val) s.content (s.delivery.reach x.deadline)).2 := by
  change execWaitTimeout h p s = _
  simp only [execWaitTimeout, contentEvent, waits]

/-- Settles O42: the checks of a HANDOVER in their order, then whether the named port waits; WAIT_TIMEOUT by `endWait`. -/
theorem handoverAndWaitTimeout : Obligations.HandoverAndWaitTimeout := by
  unfold Obligations.HandoverAndWaitTimeout
  refine ⟨fun p hold heir s above take => ?_, fun h q s => ?_⟩
  · exact refuses_of_request p _ (handoverRequest p hold heir) s _ rfl take (handoverRequest_above above)
  intro k others
  constructor
  · intro p i deadline take
    have answers {r : Reply} {c : Content} {d : Delivery} :=
      replies_of_request p i (handoverRequest p h.val q.val) s c d r rfl take
    refine ⟨fun owner => answers (handoverRequest_notOwner owner), fun owner self => ?_, fun owner other => ?_⟩
    · subst self
      exact answers (handoverRequest_self owner)
    · have hands := handoverRequest_hands (d := s.taking p) owner other
      refine ⟨fun absent => answers (hands.trans ?_), fun x waits => answers (hands.trans ?_)⟩
      · rw [handHold_heir absent]
        simp only [Content.setHold_holds, set_getFin_self]
        rfl
      · rw [handHold_waiter waits]
        simp only [Content.setHold_holds, set_getFin_self]
        rfl
  · intro x waits
    obtain rfl := waiterOf_port waits
    exact waitTimeout_leaves waits

/-! ## HOLD_SETUP (R75) -/

section
variable {h : HoldId} {limit group : Nat} {c : Content} {d : Delivery}

theorem setupHold_refused {hold : Nat} (h : 31 < hold ∨ boundGroupOf group = none) :
    setupHold hold limit group c d = (c, d, refuse .badValue) := by
  rcases h with above | unbound
  · simp only [setupHold, index?_of_le above]
  · cases index : index? 32 hold <;> simp only [setupHold, index, unbound]

theorem setupHold_inUse {g : Option GroupId} (bound : boundGroupOf group = some g)
    (state : (c.holds[h]).state ≠ .empty) : setupHold h.val limit group c d = (c, d, refuse .state) := by
  simp only [setupHold, index?_val, bound, if_pos state]

theorem setupHold_stored {g : Option GroupId} (bound : boundGroupOf group = some g)
    (state : (c.holds[h]).state = .empty) : setupHold h.val limit group c d =
      (c.setHold h { c.holds[h] with limit := clampTo 1 120 limit, group := g }, d,
        okWith (b1 (clampTo 1 120 limit) ++ bGroup g)) := by
  simp only [setupHold, index?_val, bound, state, ne_eq, not_true_eq_false, if_false]

end

theorem boundGroupOf_none {group : Nat} (above : 7 < group) (named : group ≠ 255) : boundGroupOf group = none := by
  rw [boundGroupOf, if_neg named, index?_of_le above, Option.map_none]

theorem boundGroupOf_val (g : GroupId) : boundGroupOf g.val = some (some g) := by
  rw [boundGroupOf, if_neg (by omega), index?_val, Option.map_some]

theorem boundGroupOf_isSome {group : Nat} (named : group ≤ 7 ∨ group = 255) : ∃ g, boundGroupOf group = some g := by
  rcases named with below | rfl
  · exact ⟨_, boundGroupOf_val ⟨group, Nat.lt_succ_of_le below⟩⟩
  · exact ⟨none, rfl⟩

/-- Settles O43: by whether the group is one and whether the hold is EMPTY. -/
theorem holdSetupStoresLimitAndGroup : Obligations.HoldSetupStoresLimitAndGroup := by
  unfold Obligations.HoldSetupStoresLimitAndGroup
  refine ⟨fun p v limit group s above take rank => ?_, fun p h limit group s => ?_⟩
  · exact refuses_of_supervised p _ (setupHold v limit group) s _ rfl take rank (setupHold_refused (.inl above))
  · intro i k stored take rank
    have answers {r : Reply} {c : Content} {d : Delivery} :=
      replies_of_supervised p i (setupHold h.val limit group) s c d r rfl take rank
    refine ⟨fun unnamed => ?_, fun state named => ?_, fun state none => ?_, fun g state named => ?_⟩
    · exact answers (setupHold_refused (.inr (boundGroupOf_none unnamed.1 unnamed.2)))
    · obtain ⟨g, bound⟩ := boundGroupOf_isSome named
      exact answers (setupHold_inUse bound state)
    · subst none
      exact answers (setupHold_stored rfl state)
    · subst named
      exact answers (setupHold_stored (boundGroupOf_val g) state)

end Sys2Proof.Machine
end

section
/-! RELEASE and HOLD_EXPIRY settled (R70 to R72, R74, R173). -/

namespace Sys2Proof.Machine

/-! ## What a release does beyond the hold (R72) -/

/-- An arming by a hold: of an IDLE group with a member online (R72, R173). -/
theorem armByHold_eq (b : Board) (g : GroupId) (d : Delivery) : d.arm b .hold g =
    match (d.groups[g]).swap with
    | some _ => d
    | none =>
      let expected := d.works.onlineMembers (d.groups[g]).members
      if expected = [] then d else expected.foldl (Delivery.raise b .stage) (d.armed .hold g) := by
  cases swap : (d.groups[g]).swap with
  | some x => simp only [Delivery.arm, swap]
  | none =>
    simp only []
    split
    · next none_online => exact groupArm_none_online swap none_online
    · next online => exact groupArm_online swap online

/-! ## The hold let go (R71) -/

section
variable {h : HoldId} {c : Content} {d : Delivery}

theorem releaseHold_unwanted (none_waits : (c.holds[h]).waiters = []) : releaseHold h c d =
    (c.setHold h { c.holds[h] with state := .empty },
      releaseNeighbours h (c.setHold h { c.holds[h] with state := .empty }) d) := by
  simp only [releaseHold, none_waits]

theorem releaseHold_waited {x : Waiter} {xs : List Waiter} (waits : (c.holds[h]).waiters = x :: xs) :
    releaseHold h c d =
      (c.setHold h ({ c.holds[h] with waiters := xs }.grant d.works.now x.port),
        releaseNeighbours h (c.setHold h ({ c.holds[h] with waiters := xs }.grant d.works.now x.port))
          (d.complete x.port (grantCompletion h x))) := by
  simp only [releaseHold, waits]

variable {p : PortId}

theorem releaseRequest_above {hold : Nat} (above : 31 < hold) :
    releaseRequest p hold c d = (c, d, refuse .badValue) := by
  simp only [releaseRequest, index?_of_le above]

theorem releaseRequest_notOwner (owner : (c.holds[h]).owner ≠ some p) :
    releaseRequest p h.val c d = (c, d, refuse .notOwner) := by
  simp only [releaseRequest, index?_val, if_pos owner]

theorem releaseRequest_owner (owner : (c.holds[h]).owner = some p) {k : Hold} {d' : Delivery}
    (released : releaseHold h c d = (c.setHold h k, d')) :
    releaseRequest p h.val c d = (c.setHold h k, d', okWith ([k.state.code] ++ bPort k.owner)) := by
  simp only [releaseRequest, index?_val, owner, ne_eq, not_true_eq_false, if_false, released, Content.setHold_holds,
    set_getFin_self]

end

theorem holdExpiry_leaves {h : HoldId} {s : State} {owner : PortId} {t : Nat} {c : Content} {d : Delivery}
    (held : (s.content.holds[h]).owner = some owner) (deadline : (s.content.holds[h]).deadline = some t)
    (released : releaseHold h s.content ((s.delivery.reach t).notify (.holdExpired h) owner) = (c, d)) :
    Leaves (exec (.holdExpiry h) s) s c d := by
  change execHoldExpiry h s = _
  simp only [execHoldExpiry, contentEvent, expireHold, held, deadline, released]

/-- Settles O41: the hold by whether a port waits, and the consequences for any delivery side that the release finds. -/
theorem releaseAndExpiryServeTheQueue : Obligations.ReleaseAndExpiryServeTheQueue := by
  unfold Obligations.ReleaseAndExpiryServeTheQueue
  refine ⟨fun p v s above take => ?_, fun h s => ?_⟩
  · exact refuses_of_request p _ (releaseRequest p v) s _ rfl take (releaseRequest_above above)
  intro k b armed released
  have arms (d : Delivery) : armed d = match k.group with
      | none => d
      | some g => d.arm b .hold g := by
    cases group : k.group with
    | none => simp only [armed, group]
    | some g =>
      simp only [armed, group]
      exact (armByHold_eq b g d).symm
  have consequences (k' : Hold) (group : k'.group = k.group) (d : Delivery) :
      releaseNeighbours h (s.content.setHold h k') d = released d := by
    simp only [releaseNeighbours, Content.setHold_holds, set_getFin_self, group, released, arms]
    rfl
  have unwanted (none_waits : k.waiters = []) (d : Delivery) : releaseHold h s.content d =
      (s.content.setHold h { k with state := .empty }, released d) :=
    (releaseHold_unwanted none_waits).trans (Prod.ext rfl (consequences { k with state := .empty } rfl d))
  have waited {x : Waiter} {xs : List Waiter} (waits : k.waiters = x :: xs) (d : Delivery) : releaseHold h s.content d =
      (s.content.setHold h ({ k with waiters := xs }.grant d.works.now x.port),
        released (d.complete x.port (grantCompletion h x))) :=
    (releaseHold_waited waits).trans
      (Prod.ext rfl (consequences ({ k with waiters := xs }.grant d.works.now x.port) rfl (d.complete x.port _)))
  constructor
  · intro p i take
    have answers {r : Reply} {c : Content} {d : Delivery} :=
      replies_of_request p i (releaseRequest p h.val) s c d r rfl take
    refine ⟨fun owner => answers (releaseRequest_notOwner owner), fun owner none_waits => ?_, fun x xs owner waits => ?_⟩
    · exact answers (releaseRequest_owner owner (unwanted none_waits _))
    · exact answers (releaseRequest_owner owner (waited waits _))
  · intro owner t held deadline d
    refine ⟨fun none_waits => ?_, fun x xs waits => ?_⟩
    · exact holdExpiry_leaves held deadline (unwanted none_waits d)
    · exact holdExpiry_leaves held deadline (waited waits d)

end Sys2Proof.Machine
end

section
/-! The commands of the other blocks leave the hold records alone. -/

namespace Sys2Proof.Machine

/-! ## Departure lists and parameters -/

theorem insertEntry_holds (l : ListId) (e : Entry) (c : Content) (d : Delivery) :
    (insertEntry l e c d).1.holds = c.holds := by
  unfold insertEntry
  simp only []
  split
  · rfl
  · split
    · rfl
    · split <;> rfl

theorem putTrip_holds (p : PortId) (trip line destination scheduled : Nat) (l : ListId) (c : Content) (d : Delivery) :
    (putTrip p trip line destination scheduled l c d).1.holds = c.holds := by
  unfold putTrip
  split
  · exact insertEntry_holds ..
  · rfl

theorem predictTrip_holds (p : PortId) (predicted : Nat) (l : ListId) (e : Entry) (c : Content) (d : Delivery) :
    (predictTrip p predicted l e c d).1.holds = c.holds := by
  unfold predictTrip
  split <;> rfl

theorem listRequest_holds (list trip : Nat) (valid : Bool)
    (f : ListId → Content → Delivery → Content × Delivery × Reply) (c : Content) (d : Delivery)
    (h : ∀ l, (f l c d).1.holds = c.holds) : (listRequest list trip valid f c d).1.holds = c.holds := by
  rcases listRequest_content list trip valid f c d with e | ⟨l, e⟩ <;> rw [e]
  exact h l

theorem entryRequest_holds (list trip : Nat)
    (f : ListId → Entry → Content → Delivery → Content × Delivery × Reply) (c : Content) (d : Delivery)
    (h : ∀ l e, (f l e c d).1.holds = c.holds) : (entryRequest list trip f c d).1.holds = c.holds := by
  rcases entryRequest_content list trip f c d with e | ⟨l, x, -, e⟩ <;> rw [e]
  exact h l x

theorem setDestination_holds (index : Nat) (text : List Nat) (c : Content) (d : Delivery) :
    (setDestination index text c d).1.holds = c.holds := by
  unfold setDestination
  split
  · rfl
  · split
    · rfl
    · split <;> rfl

theorem refigureAll_holds (c : Content) (d : Delivery) : (refigureAll c d).1.holds = c.holds :=
  foldl_keeps (fun cd : Content × Delivery => cd.1.holds = c.holds) refigureList (fun _ _ h => h) _ _ rfl

theorem changeSettings_holds (pairs : List (Nat × Nat)) (c : Content) (d : Delivery) :
    (changeSettings pairs c d).1.holds = c.holds := by
  rcases changeSettings_content pairs c d with e | ⟨x, stored, -, e | e⟩ <;> rw [e]
  exact refigureAll_holds { c with settings := x } d

/-! ## The board -/

theorem postPlacard_holds (p : PortId) (f : PostReq) (c : Content) (d : Delivery) :
    (postPlacard p f c d).1.holds = c.holds := by
  unfold postPlacard
  split
  · rfl
  · split
    · rfl
    · split
      · rfl
      · split
        · rfl
        · split <;> rfl

theorem amendPlacard_holds (p : PortId) (f : AmendReq) (n : PlacardId) (old : Placard) (c : Content) (d : Delivery) :
    (amendPlacard p f n old c d).1.holds = c.holds := by
  unfold amendPlacard
  split
  · rfl
  · split
    · rfl
    · split
      · rfl
      · split
        · rfl
        · split <;> rfl

theorem setText_holds (p : PortId) (text : List Nat) (n : PlacardId) (old : Placard) (c : Content) (d : Delivery) :
    (setText p text n old c d).1.holds = c.holds := by
  unfold setText
  split
  · rfl
  · simp only []
    split
    · rfl
    · split
      · rfl
      · split <;> rfl

theorem withdrawPlacard_holds (p : PortId) (n : PlacardId) (old : Placard) (c : Content) (d : Delivery) :
    (withdrawPlacard p n old c d).1.holds = c.holds := by
  unfold withdrawPlacard
  simp only []
  split
  · rfl
  · split <;> rfl

theorem placardRequest_holds (number : Nat) (valid : Bool)
    (f : PlacardId → Placard → Content → Delivery → Content × Delivery × Reply) (c : Content) (d : Delivery)
    (h : ∀ n pl, (f n pl c d).1.holds = c.holds) : (placardRequest number valid f c d).1.holds = c.holds := by
  rcases placardRequest_content number valid f c d with e | ⟨n, pl, -, e⟩ <;> rw [e]
  exact h n pl

/-! ## Type store and tickers -/

theorem setupFont_holds (font height : Nat) (c : Content) (d : Delivery) :
    (setupFont font height c d).1.holds = c.holds := by
  unfold setupFont
  split
  · rfl
  · split <;> rfl

theorem loadGlyphs_holds (font : Nat) (entries : List GlyphEntry) (c : Content) (d : Delivery) :
    (loadGlyphs font entries c d).1.holds = c.holds := by
  unfold loadGlyphs
  split
  · rfl
  · split <;> rfl

theorem setToken_holds (token : Nat) (text : List Nat) (c : Content) (d : Delivery) :
    (setToken token text c d).1.holds = c.holds := by
  unfold setToken
  split
  · rfl
  · split
    · rfl
    · split <;> rfl

theorem setupTicker_holds (ticker font window period columns lowWater : Nat) (c : Content) (d : Delivery) :
    (setupTicker ticker font window period columns lowWater c d).1.holds = c.holds := by
  unfold setupTicker
  split <;> rfl

theorem feedTicker_holds (p : PortId) (ticker : Nat) (chars : List Nat) (c : Content) (d : Delivery) :
    (feedTicker p ticker chars c d).1.holds = c.holds := by
  unfold feedTicker
  split
  · rfl
  · simp only []
    split
    · rfl
    · split
      · rfl
      · split <;> rfl

theorem flushTicker_holds (ticker : Nat) (c : Content) (d : Delivery) : (flushTicker ticker c d).1.holds = c.holds := by
  unfold flushTicker
  split
  · rfl
  · simp only []
    split <;> rfl

theorem scrollTicker_holds (t : TickerId) (c : Content) (d : Delivery) : (scrollTicker t c d).1.holds = c.holds := by
  unfold scrollTicker
  simp only []
  split <;> rfl

/-! ## Every command -/

theorem keepsRest_holds {c c' : Content} (h : keepsRest c c') : c'.holds = c.holds := by
  obtain ⟨-, holds, -⟩ := h
  exact holds

/-- The commands whose effect is on the hold records. -/
def movesHolds : Instr → Bool
  | .resetn _ _ _ _ => true
  | .take _ _ _ _ => true
  | .release _ _ => true
  | .handover _ _ _ => true
  | .holdSetup _ _ _ _ => true
  | .holdExpiry _ => true
  | .waitTimeout _ _ => true
  | .cancelSplit _ _ => true
  | .boardClear _ => true
  | _ => false

/-- No other command touches a hold record. -/
theorem effect_holds (i : Instr) (c : Content) (d : Delivery) (h : movesHolds i = false) :
    (effect i c d).holds = c.holds := by
  cases i with
  | depPut => exact listRequest_holds _ _ _ _ c d (fun l => putTrip_holds _ _ _ _ _ l c d)
  | depPredict => exact entryRequest_holds _ _ _ c d (fun l e => predictTrip_holds _ _ l e c d)
  | depArrive => exact entryRequest_holds _ _ _ c d (fun _ _ => rfl)
  | depDepart => exact entryRequest_holds _ _ _ c d (fun _ _ => rfl)
  | depCancel => exact entryRequest_holds _ _ _ c d (fun _ _ => rfl)
  | destSet => exact setDestination_holds _ _ c d
  | clockSet p t => exact keepsRest_holds (setClock_keepsRest t c d)
  | newDay p t => exact keepsRest_holds (newDay_keepsRest t c d)
  | countInterval => exact keepsRest_holds (countClock_keepsRest c d)
  | settings => exact changeSettings_holds _ c d
  | post => exact postPlacard_holds _ _ c d
  | amend => exact placardRequest_holds _ _ _ c d (fun n pl => amendPlacard_holds _ _ n pl c d)
  | textSet => exact placardRequest_holds _ _ _ c d (fun n pl => setText_holds _ _ n pl c d)
  | withdraw => exact placardRequest_holds _ _ _ c d (fun n pl => withdrawPlacard_holds _ n pl c d)
  | fontSetup => exact setupFont_holds _ _ c d
  | glyphLoad => exact loadGlyphs_holds _ _ c d
  | tokenSet => exact setToken_holds _ _ c d
  | tickerSetup => exact setupTicker_holds _ _ _ _ _ _ c d
  | tickerFeed => exact feedTicker_holds _ _ _ c d
  | tickerFlush => exact flushTicker_holds _ c d
  | scrollStep => exact scrollTicker_holds _ c d
  | resetn | take | release | handover | holdSetup | holdExpiry | waitTimeout | cancelSplit | boardClear => cases h
  | _ => rfl

end Sys2Proof.Machine
end

section
/-! Every step keeps the hold queues (R65, R69, R71, R73). -/

namespace Sys2Proof.Machine

/-! ## One hold record -/

theorem holders_taken {k : Hold} {owner : PortId} {t : Nat} (state : k.state = .taken owner t) :
    k.owner = some owner ∧ k.heir = none := by
  rw [Hold.owner, Hold.heir, state]
  exact ⟨rfl, rfl⟩

theorem holders_handed {k : Hold} {owner heir : PortId} {t : Nat} (state : k.state = .handed owner heir t) :
    k.owner = some owner ∧ k.heir = some heir := by
  rw [Hold.owner, Hold.heir, state]
  exact ⟨rfl, rfl⟩

/-- The ports that a hold's state names are two, and none of them waits. -/
theorem holdOk_iff (k : Hold) : holdOk k ↔ (k.waiters.map (fun x => x.port)).Nodup ∧
    (k.state = .empty → k.waiters = []) ∧ (∀ owner heir t, k.state = .handed owner heir t → owner ≠ heir) ∧
    ∀ x ∈ k.waiters, k.owner ≠ some x.port ∧ k.heir ≠ some x.port := by
  unfold holdOk Hold.owner Hold.heir
  refine and_congr_right fun _ => ?_
  cases k.state with
  | empty => simp +contextual
  | taken owner t => simp [eq_comm]
  | handed owner heir t => simp +contextual [eq_comm]

/-- Waiters that leave a queue leave it as it should be (R70). -/
theorem holdOk_fewer {k : Hold} (h : holdOk k) {ws : List Waiter} (fewer : ws.Sublist k.waiters) :
    holdOk { k with waiters := ws } := by
  obtain ⟨once, empty, apart, outside⟩ := (holdOk_iff k).1 h
  refine (holdOk_iff _).2 ⟨once.sublist (fewer.map _), fun state => ?_, apart, fun x waits => outside x (fewer.mem waits)⟩
  exact List.sublist_nil.1 (empty state ▸ fewer)

/-- A hold granted to a port that does not wait any more (R67, R70). -/
theorem holdOk_grant {k : Hold} (once : (k.waiters.map (fun x => x.port)).Nodup) {p : PortId}
    (out : ∀ x ∈ k.waiters, x.port ≠ p) (now : Nat) : holdOk (k.grant now p) := ⟨once, out⟩

theorem mem_leaveQueue (p : PortId) (ws : List Waiter) (x : Waiter) : x ∈ leaveQueue p ws ↔ x ∈ ws ∧ x.port ≠ p := by
  simp [leaveQueue]

theorem leaveQueue_sublist (p : PortId) (ws : List Waiter) : (leaveQueue p ws).Sublist ws := List.filter_sublist

/-- A port that joins the queue of a held hold: neither owner nor heir, and not waiting yet (R69). -/
theorem holdOk_join {k : Hold} (h : holdOk k) {x : Waiter} (new : ∀ y ∈ k.waiters, y.port ≠ x.port) {holder : PortId}
    (held : k.owner = some holder) (owner : holder ≠ x.port) (heir : k.heir ≠ some x.port) :
    holdOk { k with waiters := k.waiters ++ [x] } := by
  obtain ⟨once, -, apart, outside⟩ := (holdOk_iff k).1 h
  refine (holdOk_iff _).2 ⟨?_, fun state => ?_, apart, fun y waits => ?_⟩
  · rw [List.map_append, List.nodup_append]
    refine ⟨once, List.nodup_singleton _, fun a ha b hb => ?_⟩
    obtain ⟨y, waits, rfl⟩ := List.mem_map.1 ha
    obtain rfl := List.mem_singleton.1 hb
    exact new y waits
  · rw [Hold.owner, show k.state = .empty from state] at held
    cases held
  · rcases List.mem_append.1 waits with waits | last
    · exact outside y waits
    · obtain rfl := List.mem_singleton.1 last
      exact ⟨fun e => owner (Option.some.inj (held.symm.trans e)), heir⟩

theorem holdOk_of_empty {k : Hold} (none_waits : k.waiters = []) (state : k.state = .empty) : holdOk k := by
  unfold holdOk
  rw [state, none_waits]
  exact ⟨List.nodup_nil, rfl⟩

theorem holdOk_cleared {k : Hold} (h : holdOk k) : holdOk k.cleared := by
  unfold Hold.cleared
  split
  · exact h
  · exact holdOk_of_empty rfl rfl

/-! ## The commands of the hold unit -/

/-- Every hold record is as it should be. -/
def Content.holdsOk (c : Content) : Prop := ∀ h : HoldId, holdOk c.holds[h]

theorem Content.holdsOk.setHold {c : Content} (ok : c.holdsOk) (h : HoldId) {k : Hold} (new : holdOk k) :
    (c.setHold h k).holdsOk := by
  intro m
  rw [Content.setHold_holds, set_getFin]
  split
  · exact new
  · exact ok m

theorem Content.holdsOk.congr {c c' : Content} (ok : c.holdsOk) (e : c'.holds = c.holds) : c'.holdsOk := fun h => by
  rw [e]
  exact ok h

theorem queueTake_holdsOk {p owner : PortId} {h : HoldId} (wait : Option (Tag × Nat)) {c : Content} (d : Delivery)
    (ok : c.holdsOk) (held : (c.holds[h]).owner = some owner) (other : owner ≠ p) (noHeir : (c.holds[h]).heir ≠ some p) :
    (queueTake p h owner wait c d).1.holdsOk := by
  cases wait with
  | none => exact ok
  | some w =>
    by_cases waits : ∃ x ∈ (c.holds[h]).waiters, x.port = p
    · rw [queueTake_waiting waits]
      exact ok
    · have new : ∀ x ∈ (c.holds[h]).waiters, x.port ≠ p := fun x m e => waits ⟨x, m, e⟩
      rw [queueTake_joins new]
      exact ok.setHold h (holdOk_join (ok h) new held other noHeir)

theorem takeHold_holdsOk (p : PortId) (hold : Nat) (wait : Option (Tag × Nat)) (c : Content) (d : Delivery)
    (ok : c.holdsOk) : (takeHold p hold wait c d).1.holdsOk := by
  by_cases above : 31 < hold
  · rw [takeHold_above above]
    exact ok
  obtain ⟨h, rfl⟩ : ∃ h : HoldId, h.val = hold := ⟨⟨hold, Nat.lt_succ_of_le (Nat.not_lt.1 above)⟩, rfl⟩
  obtain ⟨once, empty, -, outside⟩ := (holdOk_iff _).1 (ok h)
  cases state : (c.holds[h]).state with
  | empty =>
    rw [takeHold_empty state]
    refine ok.setHold h (holdOk_grant once (fun x waits => ?_) _)
    rw [empty state] at waits
    cases waits
  | taken owner t =>
    obtain ⟨held, noHeir⟩ := holders_taken state
    by_cases own : owner = p
    · subst own
      rw [takeHold_own state]
      exact ok
    · rw [takeHold_taken state own]
      exact queueTake_holdsOk wait d ok held own (fun e => by cases noHeir.symm.trans e)
  | handed owner heir t =>
    obtain ⟨held, next⟩ := holders_handed state
    by_cases own : owner = p
    · subst own
      rw [takeHold_handing state]
      exact ok
    by_cases mine : heir = p
    · subst mine
      rw [takeHold_heir state own]
      exact ok.setHold h (holdOk_grant once (fun x waits e => (outside x waits).2 (e ▸ next)) _)
    · rw [takeHold_handed state own mine]
      exact queueTake_holdsOk wait d ok held own (fun e => mine (Option.some.inj (next.symm.trans e)))

theorem takeRequest_holdsOk (p : PortId) (tag hold wait : Nat) (c : Content) (d : Delivery) (ok : c.holdsOk) :
    (takeRequest p tag hold wait c d).1.holdsOk := by
  unfold takeRequest
  split
  · exact takeHold_holdsOk p hold none c d ok
  · rcases taggedRequest_content p tag (fun t => takeHold p hold (some (t, min 60 wait))) c d with e | ⟨t, e⟩ <;> rw [e]
    · exact ok
    · exact takeHold_holdsOk p hold _ c d ok

/-- The oldest waiter is granted the hold, and waits no more; with no waiter the hold is EMPTY (R71). -/
theorem releaseHold_holdsOk (h : HoldId) (c : Content) (d : Delivery) (ok : c.holdsOk) :
    (releaseHold h c d).1.holdsOk := by
  obtain ⟨once, -⟩ := ok h
  cases waits : (c.holds[h]).waiters with
  | nil =>
    rw [releaseHold_unwanted waits]
    exact ok.setHold h (holdOk_of_empty waits rfl)
  | cons x xs =>
    rw [releaseHold_waited waits]
    rw [waits, List.map_cons, List.nodup_cons] at once
    obtain ⟨first, others⟩ := once
    exact ok.setHold h (holdOk_grant others (fun y later e => first (List.mem_map.2 ⟨y, later, e⟩)) _)

theorem releaseRequest_holdsOk (p : PortId) (hold : Nat) (c : Content) (d : Delivery) (ok : c.holdsOk) :
    (releaseRequest p hold c d).1.holdsOk := by
  unfold releaseRequest
  split
  · exact ok
  · split
    · exact ok
    · exact releaseHold_holdsOk _ c d ok

theorem expireHold_holdsOk (h : HoldId) (c : Content) (d : Delivery) (ok : c.holdsOk) : (expireHold h c d).1.holdsOk := by
  unfold expireHold
  split
  · exact releaseHold_holdsOk h c _ ok
  · exact ok

/-- A waiting port leaves the queue as it is granted; any other port does not wait as it becomes the heir (R73). -/
theorem handHold_holdsOk {p q : PortId} {h : HoldId} {c : Content} (d : Delivery) (ok : c.holdsOk)
    (owner : (c.holds[h]).owner = some p) (other : q ≠ p) : (handHold p h q c d).1.holdsOk := by
  obtain ⟨once, -, -, outside⟩ := (holdOk_iff _).1 (ok h)
  cases waits : (c.holds[h]).waiterOf q with
  | none =>
    rw [handHold_heir waits]
    refine ok.setHold h ⟨once, other.symm, fun x m => ⟨fun e => (outside x m).1 (e ▸ owner), fun e => ?_⟩⟩
    simpa [e] using List.find?_eq_none.1 waits x m
  | some x =>
    rw [handHold_waiter waits]
    exact ok.setHold h (holdOk_grant (once.sublist ((leaveQueue_sublist q _).map _))
      (fun y m => ((mem_leaveQueue q _ y).1 m).2) _)

theorem handoverRequest_holdsOk (p : PortId) (hold heir : Nat) (c : Content) (d : Delivery) (ok : c.holdsOk) :
    (handoverRequest p hold heir c d).1.holdsOk := by
  unfold handoverRequest
  split
  · split
    · exact ok
    · next owner =>
      split
      · exact ok
      · next other => exact handHold_holdsOk d ok (not_not.1 owner) other
  · exact ok

theorem setupHold_holdsOk (hold limit group : Nat) (c : Content) (d : Delivery) (ok : c.holdsOk) :
    (setupHold hold limit group c d).1.holdsOk := by
  unfold setupHold
  split
  · split
    · exact ok
    · exact ok.setHold _ (ok _)
  · exact ok

theorem endWait_holdsOk (h : HoldId) (x : Waiter) (o : CompletionOutcome) (body : List Byte) (c : Content)
    (d : Delivery) (ok : c.holdsOk) : (endWait h x o body c d).1.holdsOk :=
  ok.setHold h (holdOk_fewer (ok h) (leaveQueue_sublist _ _))

theorem cancelSplit_holdsOk (p : PortId) (tag : Nat) (c : Content) (d : Delivery) (ok : c.holdsOk) :
    (cancelSplit p tag c d).1.holdsOk := by
  unfold cancelSplit cancelWait
  split
  · exact ok
  · split
    · exact ok
    · exact ok
    · simp only []
      split
      · exact ok
      · exact endWait_holdsOk _ _ _ _ c d ok
    · exact ok

/-! ## Every command -/

theorem effect_holdsOk (i : Instr) (c : Content) (d : Delivery) (ok : c.holdsOk) : (effect i c d).holdsOk := by
  cases moves : movesHolds i with
  | false => exact ok.congr (effect_holds i c d moves)
  | true =>
    cases i with
    | resetn =>
      obtain ⟨-, -, -, -, -, holds, -⟩ := resetStateIsSafe
      exact holds
    | take p tag hold wait => exact takeRequest_holdsOk p tag hold wait c d ok
    | release p hold => exact releaseRequest_holdsOk p hold c d ok
    | handover p hold heir => exact handoverRequest_holdsOk p hold heir c d ok
    | holdSetup p hold limit group => exact setupHold_holdsOk hold limit group c d ok
    | holdExpiry hold => exact expireHold_holdsOk hold c d ok
    | waitTimeout hold port =>
      simp only [effect]
      split
      · exact ok
      · exact endWait_holdsOk _ _ _ _ c _ ok
    | cancelSplit p tag => exact cancelSplit_holdsOk p tag c d ok
    | boardClear p =>
      intro h
      rw [effect, clearAll_eq, Content.cleared, mapTable_getFin]
      exact holdOk_cleared (ok h)
    | _ => cases moves

/-- Settles O8: only the commands of the hold unit, CANCEL_SPLIT, BOARD_CLEAR and RESETN touch a hold record, and each keeps
what the queues are; a port leaves the queue as it is granted the hold, and only a port outside it becomes the heir. -/
theorem stepsKeepHoldQueues : Obligations.StepsKeepHoldQueues := by
  unfold Obligations.StepsKeepHoldQueues
  intro s t ok step
  exact step_keeps_content Content.holdsOk effect_holdsOk s t step ok

end Sys2Proof.Machine
end

section
/-! What the selections of the lane scheduler leave alone, and when they run (R86, R98, R99, R107, R115). -/

namespace Sys2Proof.Machine

/-! ## What a selection keeps of the works -/

/-- A panel record but for what a selection can change of it: its state, its wake set, and the moment and mark of its next
probe (R86, R107, R115, R167). -/
def Panel.unscheduled (q : Panel) : Panel :=
  { q with state := .ready, wake := CauseSet.none, probeDue := none, probeMark := false }

/-- What a selection keeps of the works: the time base, and the panel records but for what it can change of them. -/
def Works.kept (w : Works) : Nat × Vector (Option Panel) 64 := (w.now, mapTable (Option.map Panel.unscheduled) w.panels)

theorem kept_iff (v w : Works) : v.kept = w.kept ↔ v.now = w.now ∧
    ∀ p : PanelId, (v.panels[p]).map Panel.unscheduled = (w.panels[p]).map Panel.unscheduled := by
  rw [Works.kept, Works.kept, Prod.mk.injEq]
  refine and_congr_right fun _ => ⟨fun e p => ?_, fun e => Vector.ext fun i hi => ?_⟩
  · have record := congrArg (fun t : Vector (Option Panel) 64 => t[p]) e
    simpa only [mapTable_getFin] using record
  · rw [mapTable_get, mapTable_get]
    exact e ⟨i, hi⟩

theorem kept_of_same {v w : Works} (now : v.now = w.now) (panels : v.panels = w.panels) : v.kept = w.kept := by
  rw [Works.kept, Works.kept, now, panels]

@[simp] theorem setLink_kept (l : LinkId) (k : Link) (w : Works) : (w.setLink l k).kept = w.kept := rfl

@[simp] theorem mapLane_kept (n : LaneId) (f : Lane → Lane) (w : Works) : (w.mapLane n f).kept = w.kept := rfl

@[simp] theorem setPasses_kept (p : PanelId) (v : Nat) (w : Works) : (w.setPasses p v).kept = w.kept := rfl

@[simp] theorem rotation_kept (r : Rotation) (w : Works) : ({ w with rotation := r } : Works).kept = w.kept := rfl

/-- A record put in the place of one that it differs from in its scheduling state alone. -/
theorem setPanel_kept {w : Works} {p : PanelId} {q : Panel}
    (same : (w.panels[p]).map Panel.unscheduled = some q.unscheduled) : (w.setPanel p q).kept = w.kept := by
  refine (kept_iff _ _).2 ⟨rfl, fun m => ?_⟩
  rw [Works.setPanel_panels, set_getFin]
  split
  · next e => rw [← e, same, Option.map_some]
  · rfl

/-- What the works keep, they keep of each panel. -/
theorem panel_of_kept {v w : Works} (same : v.kept = w.kept) {p : PanelId} {q : Panel} (h : w.panels[p] = some q) :
    (v.panels[p]).map Panel.unscheduled = some q.unscheduled := by
  obtain ⟨-, panels⟩ := (kept_iff v w).1 same
  rw [panels p, h, Option.map_some]

/-! ## Service (R107) -/

theorem endClaimOf_kept (p : PanelId) (w : Works) : (w.endClaimOf p).kept = w.kept := by
  obtain ⟨-, panels, now⟩ := endClaimOf_frame w p
  exact kept_of_same now panels

section
variable {w : Works} {p : PanelId} {q : Panel} (same : (w.panels[p]).map Panel.unscheduled = some q.unscheduled)
include same

theorem serveSingle_kept (c : Content) (gs : Vector Group 8) (n : LaneId) : (w.serveSingle c gs p q n).kept = w.kept := by
  rw [Works.serveSingle, mapLane_kept, setPanel_kept, setLink_kept]
  exact same

theorem servePair_kept (c : Content) (gs : Vector Group 8) (k : Fin 4) : (w.servePair c gs p q k).kept = w.kept := by
  have claim := endClaimOf_kept p w
  rw [Works.servePair, mapLane_kept, mapLane_kept, setPanel_kept, setLink_kept, setPasses_kept, claim]
  obtain ⟨-, panels⟩ := (kept_iff _ _).1 claim
  exact (panels p).trans same

end

/-! ## Preemption (R115, R167) -/

theorem dueProbe_defined {w : Works} {l : LinkId} {x : PanelId × Panel} (h : w.dueProbe l = some x) :
    w.panels[x.1] = some x.2 := by
  obtain ⟨drop, -, found⟩ := List.exists_of_findSome?_eq_some h
  obtain ⟨at_drop, -⟩ := Option.filter_eq_some_iff.1 found
  exact (mem_panelList w x.1 x.2).1 (List.mem_of_find?_eq_some at_drop)

theorem beginDueProbe_kept (l : LinkId) (w : Works) : (w.beginDueProbe l).kept = w.kept := by
  unfold Works.beginDueProbe
  split
  · rfl
  · next x due =>
    refine (setLink_kept l _ _).trans (setPanel_kept ?_)
    rw [dueProbe_defined due]
    rfl

theorem lineFree_kept (l : LinkId) (w : Works) : (w.lineFree l).kept = w.kept := by
  unfold Works.lineFree
  simp only []
  split
  · rfl
  · split
    · rfl
    · split
      · exact beginDueProbe_kept l w
      · rfl

theorem toIdle_kept (l : LinkId) (w : Works) : (w.toIdle l).kept = w.kept := lineFree_kept l _

theorem dropFrame_kept (l : LinkId) (w : Works) : (w.dropFrame l).kept = w.kept := by
  unfold Works.dropFrame
  split
  · rfl
  · exact toIdle_kept l w
  · exact toIdle_kept l w
  all_goals rfl

theorem freeLanes_kept (ls : List LaneId) (w : Works) : (ls.foldl Works.freeLane w).kept = w.kept := by
  obtain ⟨-, panels, -, now⟩ := freeLanes_frame ls w
  exact kept_of_same now panels

theorem preempt_kept (p : PanelId) (w : Works) : (w.preempt p).kept = w.kept := by
  unfold Works.preempt
  split
  · rfl
  · next q defined =>
    have dropped := dropFrame_kept q.link w
    have record := panel_of_kept dropped defined
    refine (freeLanes_kept _ _).trans ((setPanel_kept ?_).trans dropped)
    exact record

theorem preemptLane_kept (n : LaneId) (w : Works) : (w.preemptLane n).kept = w.kept := by
  unfold Works.preemptLane
  split
  · split
    · rfl
    · exact preempt_kept _ w
  · rfl

/-! ## The three steps of a selection (R99 to R106) -/

theorem claimStep_kept {c : Content} {gs : Vector Group 8} {v w : Works} (h : w.claimStep c gs = some v) :
    v.kept = w.kept := by
  unfold Works.claimStep at h
  split at h
  · cases h
  · next x _ =>
    split at h
    · cases h
    · next q defined =>
      split at h
      · cases h
        refine (kept_of_same (Works.moveClaimPointer_now ..) (Works.moveClaimPointer_panels ..)).trans ?_
        exact servePair_kept (panel_of_kept rfl defined) c gs x.pair
      · cases h

theorem serveUrgent_kept {c : Content} {gs : Vector Group 8} {p : PanelId} {v w : Works}
    (h : w.serveUrgent c gs p = some v) : v.kept = w.kept := by
  unfold Works.serveUrgent at h
  split at h
  · cases h
  · next q defined =>
    have single (n : LaneId) (u : Works) (same : u.kept = w.kept) : (u.serveSingle c gs p q n).kept = w.kept :=
      (serveSingle_kept (panel_of_kept same defined) c gs n).trans same
    have pair (k : Fin 4) (u : Works) (same : u.kept = w.kept) : (u.servePair c gs p q k).kept = w.kept :=
      (servePair_kept (panel_of_kept same defined) c gs k).trans same
    split at h
    · split at h
      · cases h
        exact pair _ w rfl
      · obtain ⟨k, -, rfl⟩ := Option.map_eq_some_iff.1 h
        exact pair k _ ((preemptLane_kept _ _).trans (preemptLane_kept _ w))
    all_goals
      split at h
      · cases h
        exact single _ w rfl
      · obtain ⟨n, -, rfl⟩ := Option.map_eq_some_iff.1 h
        exact single n _ (preemptLane_kept n w)

theorem urgentStep_kept {c : Content} {gs : Vector Group 8} {v w : Works} (h : w.urgentStep c gs = some v) :
    v.kept = w.kept := by
  obtain ⟨p, -, found⟩ := List.exists_of_findSome?_eq_some h
  split at found
  · obtain ⟨u, served, rfl⟩ := Option.map_eq_some_iff.1 found
    exact (rotation_kept _ u).trans (serveUrgent_kept served)
  · cases found

theorem passOver_kept (p : PanelId) (w : Works) : (w.passOver p).kept = w.kept := by
  unfold Works.passOver Works.placeClaim
  simp only []
  split
  · split <;> rfl
  · rfl

/-- What the rotation step leaves of the works at one panel, whether the panel is passed over or served. -/
theorem visitPanel_kept (c : Content) (gs : Vector Group 8) (p : PanelId) (v w : Works)
    (h : visitPanel c gs w p = .passed v ∨ visitPanel c gs w p = .served v) : v.kept = w.kept := by
  unfold visitPanel at h
  split at h
  · rcases h with h | h <;> cases h
  · next q defined =>
    have same := panel_of_kept (v := w) rfl defined
    split at h
    · rcases h with h | h <;> cases h
    · split at h
      · rcases h with h | h <;> cases h
        rfl
      · split at h
        · split at h <;> rcases h with h | h <;> cases h
          · exact servePair_kept same c gs _
          · exact passOver_kept p w
        all_goals
          split at h <;> rcases h with h | h <;> cases h
          exact serveSingle_kept same c gs _

theorem walkSecond_kept (c : Content) (gs : Vector Group 8) : ∀ (ps : List PanelId) (met : Option PanelId) (w : Works),
    (walkSecond c gs ps met w).works.kept = w.kept
  | [], _, _ => rfl
  | p :: ps, met, w => by
    unfold walkSecond
    split
    · exact walkSecond_kept c gs ps _ w
    · next v passed => exact (walkSecond_kept c gs ps _ v).trans (visitPanel_kept c gs p v w (.inl passed))
    · next v served => exact visitPanel_kept c gs p v w (.inr served)

theorem movePointers_kept (p : PanelId) (level : Nat) (w : Works) : (w.movePointers p level).kept = w.kept := by
  unfold Works.movePointers
  split <;> rfl

theorem keepPlace_kept (first : Option FirstPointer) (second : Option PanelId) (w : Works) :
    (w.keepPlace first second).kept = w.kept := rfl

theorem walkFirst_kept (c : Content) (gs : Vector Group 8) :
    ∀ (ps : List FirstPointer) (first : Option FirstPointer) (second : Option PanelId) (w : Works),
    (walkFirst c gs ps first second w).1.kept = w.kept
  | [], _, _, _ => rfl
  | .panel p :: rest, first, second, w => by
    unfold walkFirst
    split
    · exact walkFirst_kept c gs rest _ _ w
    · next v passed => exact (walkFirst_kept c gs rest _ _ v).trans (visitPanel_kept c gs p v w (.inl passed))
    · next v served => exact (movePointers_kept p 1 v).trans (visitPanel_kept c gs p v w (.inr served))
  | .slot :: rest, first, second, w => by
    have walked := walkSecond_kept c gs w.secondCycle none w
    unfold walkFirst
    simp only []
    split
    · exact (keepPlace_kept _ _ _).trans ((movePointers_kept _ 2 _).trans walked)
    · exact (walkFirst_kept c gs rest _ _ _).trans walked

theorem rotationStep_kept (c : Content) (gs : Vector Group 8) (w : Works) : (w.rotationStep c gs).1.kept = w.kept := by
  unfold Works.rotationStep
  split
  · exact walkFirst_kept ..
  · rfl

theorem selection_kept (c : Content) (gs : Vector Group 8) (w : Works) : (w.selection c gs).1.kept = w.kept := by
  unfold Works.selection
  split
  · next v claim => exact claimStep_kept claim
  · split
    · next v urgent => exact urgentStep_kept urgent
    · exact rotationStep_kept c gs w

/-- However many selections follow one another. -/
theorem selections_kept (c : Content) (gs : Vector Group 8) (w : Works) : ∀ n : Nat,
    ((fun w => (Works.selection c gs w).1)^[n] w).kept = w.kept
  | 0 => rfl
  | n + 1 => by
    rw [Function.iterate_succ_apply']
    exact (selection_kept c gs _).trans (selections_kept c gs w n)

end Sys2Proof.Machine
end

section
/-! Eligibility and the selections of a command settled (R66, R86, R98, R99, R107, R115, R174). -/

namespace Sys2Proof.Machine

/-! ## Eligibility (R98) -/

theorem linkOpen_iff (w : Works) (l : LinkId) : w.linkOpen l = true ↔
    (w.links[l]).state = .idle ∧ ((w.links[l]).line = .show → w.dueProbe l = none) := by
  simp [Works.linkOpen, imp_iff_not_or]

/-- A panel is eligible by its own record, its link, and URGENT or neither freeze nor deferral (R66, R98, R174). -/
theorem eligible_iff (c : Content) (gs : Vector Group 8) (w : Works) (p : PanelId) : eligible c gs w p = true ↔
    ∃ q, w.panels[p] = some q ∧ q.state = .ready ∧ q.holdoff = none ∧ w.linkOpen q.link = true ∧
      (q.wake.has .urgent = true ∨ (c.frozen q = false ∧ deferred gs p q = false)) := by
  unfold eligible
  cases w.panels[p] with
  | none => simp
  | some q => simp [and_assoc]

/-! ## The triggers of a command (R99, R106) -/

theorem claimTriggers_eq (v w : Works) : claimTriggers v w =
    if (v.rotation.claim ≠ none ∧ w.rotation.claim = none) ∧ laneTriggers v w = 0 then 1 else 0 := by
  simp [claimTriggers, Option.isSome_iff_ne_none]

/-- Triggers are worked off one by one; when as many have been worked off as there were, the last brought no other. -/
theorem last_brings_none {due n : Nat} {brought : Nat → Nat} (some_run : 0 < n)
    (before : ∀ k < n, k < due + ((List.range k).map brought).sum) (all : due + ((List.range n).map brought).sum = n) :
    brought (n - 1) = 0 := by
  obtain ⟨m, rfl⟩ : ∃ m, n = m + 1 := ⟨n - 1, by omega⟩
  have previous := before m (Nat.lt_succ_self m)
  rw [List.range_succ, List.map_append, List.sum_append, List.map_singleton, List.sum_singleton] at all
  rw [Nat.add_sub_cancel]
  omega

/-- Settles O15: eligibility by `frozen_iff` and `deferred_iff`, the number of the selections by `runSelections_chain`, and
what they leave alone by `selection_kept`. -/
theorem selectionsKeepAllButSchedulingState : Obligations.SelectionsKeepAllButSchedulingState := by
  unfold Obligations.SelectionsKeepAllButSchedulingState
  refine ⟨fun c gs w p => ?_, fun c c' d d' => ?_⟩
  · simp only [eligible_iff, linkOpen_iff, frozen_iff, deferred_iff, and_assoc]
  intro e gs taken urgent entered lanes panels ended due after brought called
  have lanes_eq (v w : Works) : laneTriggers v w = lanes v w := laneTriggers_eq v w
  have panels_eq (c : Content) (gs' : Vector Group 8) (v w : Works) :
      panelTriggers c c' gs' gs v w = panels c gs' v w := panelTriggers_eq c c' gs' gs v w
  have due_eq : laneTriggers d.works d'.works + panelTriggers c c' d.groups gs d.works d'.works +
      claimTriggers d.works d'.works = due := by
    rw [claimTriggers_eq, lanes_eq, panels_eq]
  have settled : e = { d' with works := runSelections c' gs selectionBound due d'.works } := by
    rw [← due_eq]
    rfl
  obtain ⟨n, bound, ran, more, all⟩ : ∃ n, n ≤ 1000 ∧ runSelections c' gs selectionBound due d'.works = after n ∧
      (∀ k < n, k < called k) ∧ (n < 1000 → called n = n) := by
    have chain := runSelections_chain c' gs selectionBound due d'.works
    simp only [lanes_eq, panels_eq, Bool.cond_eq_ite, ← Nat.add_assoc] at chain
    exact chain
  have result : e = { d' with works := after n } := settled.trans (by rw [ran])
  obtain ⟨now, records⟩ := (kept_iff _ _).1 (selections_kept c' gs d'.works n)
  refine ⟨fun no_lane no_panel no_claim => ?_, ⟨n, bound, result, more, all, fun some_run below => ?_⟩, ?_⟩
  · have no_lanes : lanes d.works d'.works = 0 := by simpa [lanes] using no_lane
    have no_panels : panels c d.groups d.works d'.works = 0 := by simpa [panels] using no_panel
    have nothing : due = 0 := by simp only [due, no_lanes, no_panels, no_claim, false_and, if_false]
    rw [settled, nothing, runSelections_none]
  · have none_brought : brought (n - 1) = 0 := last_brings_none some_run more (all below)
    by_contra served
    simp only [brought, if_pos (Bool.eq_true_of_not_eq_false served)] at none_brought
    omega
  · rw [result]
    exact ⟨rfl, rfl, rfl, now, records⟩

end Sys2Proof.Machine
end

section
/-! No operation moves a panel in the panel table, parks one with a cause, or fills a FIFO above its size (R79 to R81, R85,
R157): the shared operations and the selections. -/

namespace Sys2Proof.Machine

/-! ## The panel table and the FIFOs kept -/

/-- What a definition fixes of a panel record: its location, geometry, level and refresh interval (R81). -/
def Panel.place (q : Panel) : (LinkId × Drop) × (PanelClass × Nat × Nat) × Nat × Nat :=
  ((q.link, q.drop), (q.cls, q.width, q.height), q.level, q.refresh)

/-- A PARKED panel has no wake cause (R85). -/
def Panel.rested (q : Panel) : Prop := q.state = .parked → q.wake = CauseSet.none

/-- The panel tables agree on where the panels are, and where every PARKED panel of the first is without a cause, so is
every one of the second. -/
structure PanelsKept (ps qs : Vector (Option Panel) 64) : Prop where
  places : ∀ p : PanelId, (qs[p]).map Panel.place = (ps[p]).map Panel.place
  rested : (∀ (p : PanelId) (q : Panel), ps[p] = some q → q.rested) →
    ∀ (p : PanelId) (q : Panel), qs[p] = some q → q.rested

/-- FIFOs that hold what they have room for in the first links do so in the second. -/
def FifosKept (ks ls : Vector Link 8) : Prop :=
  (∀ l : LinkId, (ks[l]).fifo.length ≤ 1024) → ∀ l : LinkId, (ls[l]).fifo.length ≤ 1024

/-- The works `w` keep the panel table and the FIFOs of `v`. -/
def TableKept (v w : Works) : Prop := PanelsKept v.panels w.panels ∧ FifosKept v.links w.links

theorem panelsKept_refl (ps : Vector (Option Panel) 64) : PanelsKept ps ps := ⟨fun _ => rfl, id⟩

theorem tableKept_refl (w : Works) : TableKept w w := ⟨panelsKept_refl _, id⟩

theorem TableKept.trans {u v w : Works} (h : TableKept u v) (k : TableKept v w) : TableKept u w := by
  obtain ⟨⟨places, rested⟩, fifos⟩ := h
  obtain ⟨⟨places', rested'⟩, fifos'⟩ := k
  exact ⟨⟨fun p => (places' p).trans (places p), rested' ∘ rested⟩, fifos' ∘ fifos⟩

/-- Panel table and FIFOs are as they are to be. -/
def TableOk (w : Works) : Prop := panelsOk w ∧ fifosOk w

theorem TableKept.ok {v w : Works} (h : TableKept v w) (ok : TableOk v) : TableOk w := by
  obtain ⟨⟨places, rested⟩, fifos⟩ := h
  obtain ⟨⟨apart, within⟩, fits⟩ := ok
  have origin (p : PanelId) (a : Panel) (defined : w.panels[p] = some a) :
      ∃ b, v.panels[p] = some b ∧ b.place = a.place := by
    have place := places p
    rw [defined, Option.map_some] at place
    exact Option.map_eq_some_iff.1 place.symm
  refine ⟨⟨fun p q a b ha hb link drop => ?_, fun p a ha => ?_⟩, fifos fits⟩
  · obtain ⟨a', ha', placeA⟩ := origin p a ha
    obtain ⟨b', hb', placeB⟩ := origin q b hb
    simp only [Panel.place, Prod.mk.injEq] at placeA placeB
    exact apart p q a' b' ha' hb' (by rw [placeA.1.1, placeB.1.1, link]) (by rw [placeA.1.2, placeB.1.2, drop])
  · obtain ⟨a', ha', place⟩ := origin p a ha
    obtain ⟨geometry, level, refresh, -⟩ := within p a' ha'
    simp only [Panel.place, Prod.mk.injEq] at place
    obtain ⟨-, ⟨cls, width, height⟩, levels, refreshes⟩ := place
    rw [← cls, ← width, ← height, ← levels, ← refreshes]
    refine ⟨geometry, level, refresh, rested (fun m b hb => ?_) p a ha⟩
    obtain ⟨-, -, -, rest⟩ := within m b hb
    exact rest

/-! ## One record written -/

section
variable {v w : Works} (h : TableKept v w)
include h

theorem place_kept {p : PanelId} {q : Panel} (defined : v.panels[p] = some q) :
    (w.panels[p]).map Panel.place = some q.place := by
  obtain ⟨⟨places, -⟩, -⟩ := h
  rw [places, defined, Option.map_some]

/-- A record put where one of the same place stands. -/
theorem setPanel_table {p : PanelId} {r : Panel} (placed : (w.panels[p]).map Panel.place = some r.place)
    (rest : (∀ q, w.panels[p] = some q → q.rested) → r.rested) : TableKept v (w.setPanel p r) := by
  obtain ⟨⟨places, rested⟩, fifos⟩ := h
  refine ⟨⟨fun m => ?_, fun all m q => ?_⟩, fifos⟩
  · rw [Works.setPanel_panels, set_getFin]
    split
    · next e => rw [← e, ← places p, placed, Option.map_some]
    · exact places m
  · rw [Works.setPanel_panels, set_getFin]
    split
    · intro e
      cases e
      exact rest (rested all p)
    · exact rested all m q

/-- A record changed in its place. -/
theorem changePanel_table {p : PanelId} {q r : Panel} (defined : w.panels[p] = some q) (place : r.place = q.place)
    (rest : q.rested → r.rested) : TableKept v (w.setPanel p r) :=
  setPanel_table h (by rw [defined, Option.map_some, place]) (fun all => rest (all q defined))

theorem putPanel_table {p : PanelId} {q r : Panel} (defined : w.panels[p] = some q) (place : r.place = q.place)
    (rest : q.rested → r.rested) : TableKept v (w.putPanel p r) := changePanel_table h defined place rest

/-- Every record changed in its place. -/
theorem mapPanels_table (f : Panel → Panel) (place : ∀ q, (f q).place = q.place) (rest : ∀ q, q.rested → (f q).rested) :
    TableKept v { w with panels := mapTable (Option.map f) w.panels } := by
  obtain ⟨⟨places, rested⟩, fifos⟩ := h
  refine ⟨⟨fun m => ?_, fun all m q => ?_⟩, fifos⟩
  · rw [mapTable_getFin, Option.map_map, ← places m]
    exact congrArg (Option.map · _) (funext place)
  · rw [mapTable_getFin, Option.map_eq_some_iff]
    rintro ⟨r, defined, rfl⟩
    exact rest r (rested all m r defined)

theorem setLink_table {l : LinkId} {k : Link} (fits : (w.links[l]).fifo.length ≤ 1024 → k.fifo.length ≤ 1024) :
    TableKept v (w.setLink l k) := by
  obtain ⟨panels, fifos⟩ := h
  refine ⟨panels, fun all m => ?_⟩
  rw [Works.setLink_links, set_getFin]
  split
  · exact fits (fifos all l)
  · exact fifos all m

theorem foldWorks_table {α : Type} (f : Works → α → Works) (step : ∀ w a, TableKept v w → TableKept v (f w a)) (l : List α) :
    TableKept v (l.foldl f w) := foldl_keeps (TableKept v) f step l w h

end

/-! ## A link that becomes free (R162, R165, R167, R169) -/

section
variable {v w : Works} (h : TableKept v w)
include h

theorem beginDueProbe_table (l : LinkId) : TableKept v (w.beginDueProbe l) := by
  unfold Works.beginDueProbe
  split
  · exact h
  · next x due =>
    have record : TableKept v (w.setPanel x.1 { x.2 with probeDue := some (w.now + 5000), probeMark := true }) :=
      changePanel_table h (dueProbe_defined due) rfl id
    exact setLink_table record id

theorem lineFree_table (l : LinkId) : TableKept v (w.lineFree l) := by
  unfold Works.lineFree
  simp only []
  split
  · exact h
  · split
    · exact setLink_table h id
    · split
      · exact beginDueProbe_table h l
      · exact h

theorem toIdle_table (l : LinkId) : TableKept v (w.toIdle l) :=
  lineFree_table (setLink_table h (fun _ => Nat.zero_le _)) l

theorem abandon_table (l : LinkId) (o : Option (LinkOutcome × PanelId)) :
    TableKept v (w.setLink l { (w.links[l]).abandon with lastOutcome := o }) := by
  refine setLink_table h ?_
  unfold Link.abandon
  split <;> exact id

theorem dropFrame_table (l : LinkId) : TableKept v (w.dropFrame l) := by
  unfold Works.dropFrame
  split
  · refine setLink_table h ?_
    unfold Link.abandon
    split <;> exact id
  · exact toIdle_table h l
  · exact toIdle_table h l
  all_goals exact h

theorem requestShow_table (l : LinkId) (drops : List Drop) : TableKept v (w.requestShow l drops) := by
  unfold Works.requestShow
  simp only []
  split
  · exact h
  · refine setLink_table h ?_
    split <;> exact id

/-! ## Service and preemption (R107, R115) -/

theorem freeLanes_table (ls : List LaneId) : TableKept v (ls.foldl Works.freeLane w) :=
  foldWorks_table h Works.freeLane (fun _ _ k => k) ls

theorem restLanes_table (p : PanelId) : TableKept v (w.restLanes p) :=
  foldWorks_table h Works.residentLane (fun _ _ k => k) _

theorem endClaimOf_table (p : PanelId) : TableKept v (w.endClaimOf p) := by
  unfold Works.endClaimOf
  split
  · exact h
  · split <;> exact h

theorem serveSingle_table {p : PanelId} {q : Panel} (placed : (w.panels[p]).map Panel.place = some q.place) (c : Content)
    (gs : Vector Group 8) (n : LaneId) : TableKept v (w.serveSingle c gs p q n) :=
  setPanel_table (setLink_table h (fun _ => Nat.zero_le _)) placed (fun _ e => by cases e)

theorem servePair_table {p : PanelId} {q : Panel} (placed : (w.panels[p]).map Panel.place = some q.place) (c : Content)
    (gs : Vector Group 8) (k : Fin 4) : TableKept v (w.servePair c gs p q k) := by
  obtain ⟨-, panels, -⟩ := endClaimOf_frame w p
  have claim : TableKept v ((w.endClaimOf p).setPasses p 0) := endClaimOf_table h p
  refine setPanel_table (setLink_table claim (fun _ => Nat.zero_le _)) ?_ (fun _ e => by cases e)
  exact panels ▸ placed

theorem preempt_table (p : PanelId) : TableKept v (w.preempt p) := by
  unfold Works.preempt
  split
  · exact h
  · next q defined =>
    have placed := place_kept (dropFrame_table (tableKept_refl w) q.link) defined
    refine freeLanes_table (setPanel_table (dropFrame_table h q.link) (r := { q with state := .ready, wake := _ }) placed
      (fun _ e => ?_)) _
    cases e

theorem preemptLane_table (n : LaneId) : TableKept v (w.preemptLane n) := by
  unfold Works.preemptLane
  split
  · split
    · exact h
    · exact preempt_table h _
  · exact h

/-! ## The three steps of a selection (R99 to R106) -/

theorem moveClaimPointer_table (p : PanelId) (level : Nat) : TableKept v (w.moveClaimPointer p level) := by
  unfold Works.moveClaimPointer
  split <;> exact h

theorem movePointers_table (p : PanelId) (level : Nat) : TableKept v (w.movePointers p level) := by
  unfold Works.movePointers
  split <;> exact h

theorem passOver_table (p : PanelId) : TableKept v (w.passOver p) := by
  unfold Works.passOver Works.placeClaim
  simp only []
  split
  · split <;> exact h
  · exact h

theorem claimStep_table {c : Content} {gs : Vector Group 8} {u : Works} (found : w.claimStep c gs = some u) :
    TableKept v u := by
  unfold Works.claimStep at found
  split at found
  · cases found
  · split at found
    · cases found
    · next q defined =>
      split at found
      · cases found
        exact moveClaimPointer_table (servePair_table h (by rw [defined, Option.map_some]) c gs _) _ _
      · cases found

theorem serveUrgent_table {c : Content} {gs : Vector Group 8} {p : PanelId} {u : Works}
    (found : w.serveUrgent c gs p = some u) : TableKept v u := by
  unfold Works.serveUrgent at found
  split at found
  · cases found
  · next q defined =>
    have freed (n : LaneId) : TableKept w (w.preemptLane n) := preemptLane_table (tableKept_refl w) n
    split at found
    · split at found
      · cases found
        exact servePair_table h (by rw [defined, Option.map_some]) c gs _
      · obtain ⟨k, -, rfl⟩ := Option.map_eq_some_iff.1 found
        have both := preemptLane_table (freed (evenLane k)) (oddLane k)
        exact servePair_table (h.trans both) (place_kept both defined) c gs k
    all_goals
      split at found
      · cases found
        exact serveSingle_table h (by rw [defined, Option.map_some]) c gs _
      · obtain ⟨n, -, rfl⟩ := Option.map_eq_some_iff.1 found
        exact serveSingle_table (h.trans (freed n)) (place_kept (freed n) defined) c gs n

theorem urgentStep_table {c : Content} {gs : Vector Group 8} {u : Works} (found : w.urgentStep c gs = some u) :
    TableKept v u := by
  obtain ⟨p, -, served⟩ := List.exists_of_findSome?_eq_some found
  split at served
  · obtain ⟨u', obtained, rfl⟩ := Option.map_eq_some_iff.1 served
    have kept : TableKept v u' := serveUrgent_table h obtained
    exact kept
  · cases served

theorem visitPanel_table (c : Content) (gs : Vector Group 8) (p : PanelId) (u : Works)
    (visit : visitPanel c gs w p = .passed u ∨ visitPanel c gs w p = .served u) : TableKept v u := by
  unfold visitPanel at visit
  split at visit
  · rcases visit with e | e <;> cases e
  · next q defined =>
    have placed : (w.panels[p]).map Panel.place = some q.place := by rw [defined, Option.map_some]
    split at visit
    · rcases visit with e | e <;> cases e
    · split at visit
      · rcases visit with e | e <;> cases e
        exact h
      · split at visit
        · split at visit <;> rcases visit with e | e <;> cases e
          · exact servePair_table h placed c gs _
          · exact passOver_table h p
        all_goals
          split at visit <;> rcases visit with e | e <;> cases e
          exact serveSingle_table h placed c gs _

end

theorem walkSecond_table (c : Content) (gs : Vector Group 8) {v : Works} : ∀ (ps : List PanelId) (met : Option PanelId)
    (w : Works), TableKept v w → TableKept v (walkSecond c gs ps met w).works
  | [], _, _, h => h
  | p :: ps, met, w, h => by
    unfold walkSecond
    split
    · exact walkSecond_table c gs ps _ w h
    · next u passed => exact walkSecond_table c gs ps _ u (visitPanel_table h c gs p u (.inl passed))
    · next u served => exact visitPanel_table h c gs p u (.inr served)

theorem walkFirst_table (c : Content) (gs : Vector Group 8) {v : Works} : ∀ (xs : List FirstPointer)
    (first : Option FirstPointer) (second : Option PanelId) (w : Works), TableKept v w →
    TableKept v (walkFirst c gs xs first second w).1
  | [], _, _, _, h => h
  | .panel p :: rest, first, second, w, h => by
    unfold walkFirst
    split
    · exact walkFirst_table c gs rest _ _ w h
    · next u passed => exact walkFirst_table c gs rest _ _ u (visitPanel_table h c gs p u (.inl passed))
    · next u served => exact movePointers_table (visitPanel_table h c gs p u (.inr served)) p 1
  | .slot :: rest, first, second, w, h => by
    have walked := walkSecond_table c gs w.secondCycle none w h
    unfold walkFirst
    simp only []
    split
    · next p _ => exact movePointers_table walked p 2
    · exact walkFirst_table c gs rest _ _ _ walked

theorem selection_table {v w : Works} (h : TableKept v w) (c : Content) (gs : Vector Group 8) :
    TableKept v (w.selection c gs).1 := by
  unfold Works.selection
  split
  · next claim => exact claimStep_table h claim
  · split
    · next urgent => exact urgentStep_table h urgent
    · unfold Works.rotationStep
      split
      · exact walkFirst_table c gs _ _ _ w h
      · exact h

theorem runSelections_table {v : Works} (c : Content) (gs : Vector Group 8) : ∀ (fuel due : Nat) (w : Works),
    TableKept v w → TableKept v (runSelections c gs fuel due w)
  | 0, _, _, h => h
  | _ + 1, 0, _, h => h
  | fuel + 1, _ + 1, _, h => runSelections_table c gs fuel _ _ (selection_table h c gs)

theorem settleDelivery_table {v : Works} {d' : Delivery} (h : TableKept v d'.works) (c c' : Content) (d : Delivery) :
    TableKept v (settleDelivery c d c' d').works := runSelections_table c' d'.groups _ _ _ h

end Sys2Proof.Machine
end

section
/-! What every request and event of the content side makes of the panel table and the FIFOs: causes raised, swaps checked,
interest recomputed (R60, R85, R175 to R177). -/

namespace Sys2Proof.Machine

/-! ## The shared operations of the delivery side -/

theorem foldDelivery_table {α : Type} {v : Works} {d : Delivery} (h : TableKept v d.works) (f : Delivery → α → Delivery)
    (step : ∀ e a, TableKept v e.works → TableKept v (f e a).works) (l : List α) : TableKept v (l.foldl f d).works :=
  foldl_keeps (fun e : Delivery => TableKept v e.works) f step l d h

theorem gain_rested (cause : Cause) (q : Panel) (rest : q.rested) : (q.gain cause).rested := by
  unfold Panel.gain
  split
  · exact rest
  · intro parked
    by_cases was : q.state = .parked
    · rw [if_pos was] at parked
      cases parked
    · rw [if_neg was] at parked
      exact absurd parked was

theorem rest_rested (q : Panel) : q.rest.rested := by
  intro parked
  obtain ⟨_, _, _, _, _, _, _, _, _, wake, _⟩ := q
  simp only [Panel.rest] at parked ⊢
  cases empty : wake.isEmpty with
  | false => rw [empty] at parked; cases parked
  | true => exact of_decide_eq_true empty

theorem gain_place (cause : Cause) (q : Panel) : (q.gain cause).place = q.place := by
  unfold Panel.gain
  split <;> rfl

section
variable {v : Works} {d : Delivery} (h : TableKept v d.works)
include h

theorem checkConfirmations_table (b : Board) : TableKept v (d.checkConfirmations b).works :=
  (checkConfirmations_frame b d).2 ▸ h

theorem adopt_table (b : Board) (r : StagedRecord) : TableKept v (d.adopt b r).works := by
  unfold Delivery.adopt
  split
  · exact h
  · next q defined =>
    have acknowledged : TableKept v (d.works.putPanel r.panel
        (q.acknowledge d.works.now ⟨r.strips, r.frame, r.generation⟩ r.full)) :=
      putPanel_table h defined (by rw [acknowledge_eq]; rfl) (by rw [acknowledge_eq]; exact id)
    exact checkConfirmations_table acknowledged b

theorem showSwap_table (b : Board) (x : Swap) : TableKept v (d.showSwap b x).works := by
  have adopted := foldDelivery_table h (Delivery.adopt b) (fun _ r k => adopt_table k b r) x.toShow
  have shown {w : Works} (k : TableKept v w) (ps : List PanelId) :
      TableKept v ((List.finRange 8).foldl (fun w l => w.requestShow l (w.dropsOn ps l)) w) :=
    foldWorks_table k _ (fun _ l k => requestShow_table k l _) _
  simp only [Delivery.showSwap, Delivery.mapWorks_works]
  exact shown adopted _

theorem endSwap_table (g : GroupId) (x : Swap) : TableKept v (d.endSwap g x).works := h

theorem checkSwap_table (b : Board) (g : GroupId) : TableKept v (d.checkSwap b g).works := by
  unfold Delivery.checkSwap
  split
  · exact h
  · split
    · exact endSwap_table (showSwap_table h b _) g _
    · exact h

theorem dropOut_table (b : Board) (p : PanelId) : TableKept v (d.dropOut b p).works := by
  unfold Delivery.dropOut
  split
  · exact h
  · next g _ =>
    refine checkSwap_table ?_ b g
    exact h

theorem arrive_table (b : Board) (g : GroupId) (r : StagedRecord) : TableKept v (d.arrive b g r).works :=
  checkSwap_table (d := d.mapGroup g _) h b g

theorem raise_table (b : Board) (cause : Cause) (p : PanelId) : TableKept v (d.raise b cause p).works := by
  unfold Delivery.raise
  split
  · exact h
  · next q defined =>
    have gained : TableKept v (d.works.setPanel p (q.gain cause)) :=
      changePanel_table h defined (gain_place cause q) (gain_rested cause q)
    simp only []
    split
    · exact dropOut_table gained b p
    · exact gained

theorem raises_table (b : Board) (cause : Cause) (ps : List PanelId) :
    TableKept v (ps.foldl (Delivery.raise b cause) d).works :=
  foldDelivery_table h _ (fun _ p k => raise_table k b cause p) ps

theorem raiseWhere_table (b : Board) (cause : Cause) (test : Panel → Bool) :
    TableKept v (d.raiseWhere b cause test).works := raises_table h b cause _

theorem arm_table (b : Board) (source : ArmSource) (g : GroupId) : TableKept v (d.arm b source g).works := by
  unfold Delivery.arm
  split
  · exact h
  · exact checkSwap_table (raises_table (d := d.mapGroup g _) h b .stage _) b g

theorem recomputeInterest_table (b : Board) (test : Panel → Bool) : TableKept v (d.works.recomputeInterest b test) :=
  mapPanels_table h _ (fun q => by split <;> rfl) (fun q rest => by split <;> exact rest)

theorem checkPlacard_table (b : Board) (n : PlacardId) : TableKept v (d.checkPlacard b n).works := by
  refine foldDelivery_table h _ (fun e k same => ?_) _
  unfold Delivery.checkConfirmation
  split <;> exact same

/-! ## Departure lists, parameters and destinations -/

theorem raiseListChange_table (b : Board) (l : ListId) (content figure : Bool) :
    TableKept v (raiseListChange b l content figure d).works := by
  have first : TableKept v (if content then raiseList b .content l d else d).works := by
    split
    · exact raiseWhere_table h ..
    · exact h
  unfold raiseListChange
  simp only []
  split
  · exact raiseWhere_table first ..
  · exact first

theorem insertEntry_table (l : ListId) (e : Entry) (c : Content) : TableKept v (insertEntry l e c d).2.1.works := by
  unfold insertEntry
  simp only []
  split
  · exact raiseWhere_table h ..
  · split
    · exact h
    · next last _ =>
      split
      · exact raiseWhere_table (d := d.notify (.listEvict l last.trip) last.source) h ..
      · exact h

theorem listRequest_table (list trip : Nat) (valid : Bool) (f : ListId → Content → Delivery → Content × Delivery × Reply)
    (c : Content) (k : ∀ l, TableKept v (f l c d).2.1.works) :
    TableKept v (listRequest list trip valid f c d).2.1.works := by
  unfold listRequest
  split
  · exact h
  · split
    · exact k _
    · exact h

theorem entryRequest_table (list trip : Nat) (f : ListId → Entry → Content → Delivery → Content × Delivery × Reply)
    (c : Content) (k : ∀ l e, TableKept v (f l e c d).2.1.works) :
    TableKept v (entryRequest list trip f c d).2.1.works := by
  refine listRequest_table h list trip true _ c (fun l => ?_)
  split
  · exact h
  · exact k l _

theorem putTrip_table (p : PortId) (trip line destination scheduled : Nat) (l : ListId) (c : Content) :
    TableKept v (putTrip p trip line destination scheduled l c d).2.1.works := by
  unfold putTrip
  split
  · exact insertEntry_table h ..
  · exact raiseListChange_table h ..

theorem predictTrip_table (p : PortId) (predicted : Nat) (l : ListId) (e : Entry) (c : Content) :
    TableKept v (predictTrip p predicted l e c d).2.1.works := by
  unfold predictTrip
  split
  · exact h
  · exact raiseListChange_table h ..

theorem setDestination_table (index : Nat) (text : List Nat) (c : Content) :
    TableKept v (setDestination index text c d).2.1.works := by
  unfold setDestination
  split
  · exact h
  · split
    · exact h
    · split
      · exact h
      · exact raiseWhere_table h ..

theorem changeSettings_table (pairs : List (Nat × Nat)) (c : Content) :
    TableKept v (changeSettings pairs c d).2.1.works := by
  have refigured (x : Content) : TableKept v (refigureAll x d).2.works :=
    foldl_keeps (fun cd : Content × Delivery => TableKept v cd.2.works) refigureList
      (fun _ _ k => raiseListChange_table k ..) _ _ h
  unfold changeSettings
  split
  · exact h
  · split
    · exact h
    · next x _ _ =>
      dsimp only
      split
      · exact h
      · exact refigured { c with settings := x }

/-! ## The clock -/

theorem evaluateWindows_table (now : Nat) (c : Content) : TableKept v (evaluateWindows now c d).2.works := by
  refine foldl_keeps (fun cd : Content × Delivery => TableKept v cd.2.works) _ (fun cd n k => ?_) _ _ h
  unfold evaluateWindow
  split
  · exact k
  · simp only []
    split
    · exact raiseWhere_table (d := cd.2.mapWorks _) (recomputeInterest_table k ..) ..
    · exact k

theorem afterSecond_table (hysteresis : Bool) (c : Content) : TableKept v (afterSecond hysteresis c d).2.works := by
  unfold afterSecond
  refine evaluateWindows_table (foldDelivery_table h _ (fun e l k => raiseListChange_table ?_ ..) _) ..
  refine foldDelivery_table k _ (fun e (x : Entry) k => ?_) _
  exact foldDelivery_table k (fun d n => d.notify n x.source) (fun _ _ k => k) _

theorem followClock_table (hysteresis second minute blink limit : Bool) (c : Content) :
    TableKept v (followClock hysteresis second minute blink limit c d).2.works := by
  have passed : TableKept v (if second then afterSecond hysteresis c d else (c, d)).2.works := by
    split
    · exact afterSecond_table h hysteresis c
    · exact h
  have raised {e : Delivery} (k : TableKept v e.works) (b : Board) (yes : Bool) (cause : Cause) (test : Panel → Bool) :
      TableKept v (if yes then e.raiseWhere b cause test else e).works := by
    split
    · exact raiseWhere_table k ..
    · exact k
  have noticed {e : Delivery} (k : TableKept v e.works) :
      TableKept v (if limit then e.notifyAll (.clockLimit 107999) else e).works := by
    split <;> exact k
  exact noticed (raised (raised passed _ minute .clock _) _ blink .blink _)

theorem setClock_table (t : Nat) (c : Content) : TableKept v (setClock t c d).2.1.works := by
  have starts : TableKept v (startClock t c d).2.1.works := by
    rw [startClock_eq]
    exact followClock_table h ..
  have steps : TableKept v (stepClock t c d).2.1.works := by
    rw [stepClock_eq]
    exact followClock_table h ..
  have limited (entered : Bool) : TableKept v (limitNotice entered d).works := by
    cases entered <;> exact h
  have slews (x : Int) : TableKept v (slewClock x c d).2.1.works := by
    exact limited _
  unfold setClock
  simp only []
  split
  · exact h
  · split
    · exact starts
    · split
      · exact h
      · split
        · exact slews _
        · exact steps
    all_goals
      split
      · exact slews _
      · exact steps

theorem newDay_table (t : Nat) (c : Content) : TableKept v (newDay t c d).2.1.works := by
  by_cases above : clockLimit < t
  · rw [newDay_refused t c d above]
    exact h
  · rw [newDay_eq t c d above]
    exact followClock_table (evaluateWindows_table (raiseWhere_table h ..) ..) ..

/-! ## The board -/

theorem changePlacard_table (n : PlacardId) (old : Option Placard) (new : Placard) (order : List PlacardId) (cells : Nat)
    (c : Content) : TableKept v (changePlacard n old new order cells c d).2.works :=
  checkPlacard_table (raiseWhere_table (d := d.mapWorks _) (recomputeInterest_table h ..) ..) ..

theorem postPlacard_table (p : PortId) (f : PostReq) (c : Content) : TableKept v (postPlacard p f c d).2.1.works := by
  unfold postPlacard
  repeat' split
  any_goals exact h
  exact changePlacard_table h ..

theorem amendPlacard_table (p : PortId) (f : AmendReq) (n : PlacardId) (old : Placard) (c : Content) :
    TableKept v (amendPlacard p f n old c d).2.1.works := by
  unfold amendPlacard
  dsimp only
  repeat' split
  any_goals exact h
  all_goals exact changePlacard_table h ..

theorem setText_table (p : PortId) (text : List Nat) (n : PlacardId) (old : Placard) (c : Content) :
    TableKept v (setText p text n old c d).2.1.works := by
  unfold setText
  dsimp only
  repeat' split
  any_goals exact h
  exact changePlacard_table h ..

theorem withdrawPlacard_table (p : PortId) (n : PlacardId) (old : Placard) (c : Content) :
    TableKept v (withdrawPlacard p n old c d).2.1.works := by
  have removed : TableKept v (removePlacard n old c d).2.works :=
    foldDelivery_table (raiseWhere_table (d := d.mapWorks _) (recomputeInterest_table h ..) ..)
      Delivery.cancelConfirmation (fun _ _ k => k) _
  unfold withdrawPlacard
  dsimp only
  repeat' split
  any_goals exact h
  exact removed

theorem placardRequest_table (number : Nat) (valid : Bool)
    (f : PlacardId → Placard → Content → Delivery → Content × Delivery × Reply) (c : Content)
    (k : ∀ n pl, TableKept v (f n pl c d).2.1.works) : TableKept v (placardRequest number valid f c d).2.1.works := by
  unfold placardRequest
  repeat' split
  any_goals exact h
  exact k _ _

theorem openConfirmation_table (p : PortId) (timeout : Nat) (t : Tag) (n : PlacardId) (old : Placard) (c : Content) :
    TableKept v (openConfirmation p timeout t n old c d).2.1.works := by
  unfold openConfirmation Delivery.checkConfirmation
  dsimp only
  split <;> exact h

theorem clearAll_table (c : Content) : TableKept v (clearAll c d).2.1.works := by
  rw [clearAll_delivery]
  refine mapPanels_table (w := d.works.outlive _) h Panel.cleared (fun _ => rfl) (fun q rest parked => ?_)
  by_cases was : q.state = .parked
  · simp only [Panel.cleared, if_pos was] at parked
    cases parked
  · simp only [Panel.cleared, if_neg was] at parked
    exact absurd parked was

/-! ## Holds and split requests -/

theorem taggedRequest_table (p : PortId) (tag : Nat) (f : Tag → Content → Delivery → Content × Delivery × Reply)
    (c : Content) (k : ∀ t, TableKept v (f t c d).2.1.works) : TableKept v (taggedRequest p tag f c d).2.1.works := by
  unfold taggedRequest
  repeat' split
  any_goals exact h
  exact k _

theorem takeHold_table (p : PortId) (hold : Nat) (wait : Option (Tag × Nat)) (c : Content) :
    TableKept v (takeHold p hold wait c d).2.1.works := by
  have queued (x : HoldId) (owner : PortId) : TableKept v (queueTake p x owner wait c d).2.1.works := by
    unfold queueTake
    dsimp only
    repeat' split
    all_goals exact h
  unfold takeHold
  repeat' split
  any_goals exact h
  all_goals exact queued _ _

theorem takeRequest_table (p : PortId) (tag hold wait : Nat) (c : Content) :
    TableKept v (takeRequest p tag hold wait c d).2.1.works := by
  unfold takeRequest
  split
  · exact takeHold_table h ..
  · exact taggedRequest_table h p tag _ c (fun _ => takeHold_table h ..)

theorem releaseNeighbours_table (x : HoldId) (c : Content) : TableKept v (releaseNeighbours x c d).works := by
  unfold releaseNeighbours
  simp only []
  split
  · exact raiseWhere_table h ..
  · exact raiseWhere_table (arm_table h ..) ..

theorem releaseHold_table (x : HoldId) (c : Content) : TableKept v (releaseHold x c d).2.works := by
  unfold releaseHold
  simp only []
  split
  · exact releaseNeighbours_table h ..
  · exact releaseNeighbours_table (d := d.complete _ _) h ..

theorem releaseRequest_table (p : PortId) (hold : Nat) (c : Content) :
    TableKept v (releaseRequest p hold c d).2.1.works := by
  unfold releaseRequest
  dsimp only
  repeat' split
  any_goals exact h
  exact releaseHold_table h ..

theorem handoverRequest_table (p : PortId) (hold heir : Nat) (c : Content) :
    TableKept v (handoverRequest p hold heir c d).2.1.works := by
  unfold handoverRequest handHold
  dsimp only
  repeat' split
  all_goals exact h

theorem setupHold_table (hold limit group : Nat) (c : Content) : TableKept v (setupHold hold limit group c d).2.1.works := by
  unfold setupHold
  dsimp only
  repeat' split
  all_goals exact h

theorem expireHold_table (x : HoldId) (c : Content) : TableKept v (expireHold x c d).2.works := by
  unfold expireHold
  split
  · exact releaseHold_table (d := (d.reach _).notify _ _) h ..
  · exact h

theorem cancelSplit_table (p : PortId) (tag : Nat) (c : Content) : TableKept v (cancelSplit p tag c d).2.1.works := by
  unfold cancelSplit cancelWait cancelConfirm
  repeat' split
  all_goals exact h

/-! ## Type store and tickers -/

theorem setupFont_table (font height : Nat) (c : Content) : TableKept v (setupFont font height c d).2.1.works := by
  unfold setupFont
  repeat' split
  any_goals exact h
  exact raiseWhere_table h ..

theorem loadGlyphs_table (font : Nat) (entries : List GlyphEntry) (c : Content) :
    TableKept v (loadGlyphs font entries c d).2.1.works := by
  unfold loadGlyphs
  dsimp only
  repeat' split
  any_goals exact h
  exact raiseWhere_table h ..

theorem setToken_table (token : Nat) (text : List Nat) (c : Content) :
    TableKept v (setToken token text c d).2.1.works := by
  unfold setToken
  repeat' split
  any_goals exact h
  exact raiseWhere_table h ..

theorem setupTicker_table (ticker font window period columns lowWater : Nat) (c : Content) :
    TableKept v (setupTicker ticker font window period columns lowWater c d).2.1.works := by
  unfold setupTicker
  repeat' split
  any_goals exact h
  exact raiseWhere_table h ..

theorem feedTicker_table (p : PortId) (ticker : Nat) (chars : List Nat) (c : Content) :
    TableKept v (feedTicker p ticker chars c d).2.1.works := by
  unfold feedTicker
  dsimp only
  repeat' split
  any_goals exact h
  exact raiseWhere_table h ..

theorem flushTicker_table (ticker : Nat) (c : Content) : TableKept v (flushTicker ticker c d).2.1.works := by
  unfold flushTicker
  dsimp only
  repeat' split
  any_goals exact h
  exact raiseWhere_table h ..

theorem scrollTicker_table (t : TickerId) (c : Content) : TableKept v (scrollTicker t c d).2.works := by
  have noticed {e : Delivery} (k : TableKept v e.works) (crosses : Bool) (feeder : Option PortId) :
      TableKept v (noticeLow t crosses feeder e).works := by
    unfold noticeLow
    repeat' split
    all_goals exact k
  unfold scrollTicker
  simp only []
  split
  · exact h
  · exact raiseWhere_table (noticed (e := d.reach _) h _ _) ..

end

end Sys2Proof.Machine
end

section
/-! What lanes, links and panel requests make of the panel table and the FIFOs (chapters 5, 6, 9 and 10), and every command:
no location twice, geometries within their class, PARKED with no cause, FIFOs within 1,024 bytes. -/

namespace Sys2Proof.Machine

/-! ## Lanes at work (R109 to R112, R153) -/

section
variable {v w : Works} (h : TableKept v w)
include h

/-- A lane writes no more than the FIFO has room for (R110). -/
theorem writeLane_table (n : LaneId) : TableKept v (w.writeLane n) := by
  unfold Works.writeLane
  simp only []
  split
  · exact h
  · next x _ =>
    have written : TableKept v (w.setLink x.link { w.links[x.link] with
        fifo := (w.links[x.link]).fifo ++ (w.lanes[n]).unwritten.take (fifoSize - (w.links[x.link]).fifo.length) }) := by
      refine setLink_table h (fun fits => ?_)
      simp only [List.length_append, List.length_take, fifoSize]
      omega
    exact written

theorem writeInOrder_table (ns : List LaneId) : TableKept v (writeInOrder ns w) := by
  induction ns generalizing w with
  | nil => exact h
  | cons n ns ih =>
    unfold writeInOrder
    split
    · exact ih (writeLane_table h n)
    · exact writeLane_table h n

theorem commitWaiting_table (p : PanelId) : TableKept v (w.commitWaiting p) := by
  unfold Works.commitWaiting
  split
  · exact h
  · split
    · exact setLink_table (w := w.mapLane _ _) h id
    · exact h

theorem resume_table (p : PanelId) : TableKept v (w.resume p) := commitWaiting_table (writeInOrder_table h _) p

theorem sendBytes_table (l : LinkId) (n : Nat) : TableKept v (w.sendBytes l n) := by
  unfold Works.sendBytes
  have sent : TableKept v (w.setLink l { w.links[l] with
      fifo := (w.links[l]).fifo.drop n, sent := (w.links[l]).sent ++ (w.links[l]).fifo.take n }) :=
    setLink_table h (fun fits => by rw [List.length_drop]; omega)
  simp only []
  split
  · split
    · exact sent
    · exact resume_table sent _
  · exact h

theorem decideStrip_table (first : LaneId) (second : Option LaneId) (x : Context) (f : FrameBuild) (work : CauseSet)
    (strip : Nat) : TableKept v (w.decideStrip first second x f work strip) := by
  unfold Works.decideStrip
  refine resume_table ?_ x.panel
  split <;> exact h

theorem stripStep_table (n : LaneId) (c : Content) : TableKept v (stripStep n c w) := by
  unfold stripStep
  dsimp only
  repeat' split
  any_goals exact h
  all_goals exact decideStrip_table (w := w.mapLane n _) h ..

theorem reportCoded_table {p : PanelId} {q : Panel} (defined : w.panels[p] = some q) (f : FrameBuild) (work : CauseSet) :
    TableKept v (w.reportCoded p q f work) := by
  have linked : TableKept v (w.setLink q.link { w.links[q.link] with
      frame := (w.links[q.link]).frame.map (FrameRecord.finish f) }) := setLink_table h id
  refine restLanes_table (changePanel_table linked (r := { q with state := .sending, inFlight := some work }) defined rfl
    (fun _ e => ?_)) p
  cases e

/-! ## The course of a frame (R158, R163 to R165) -/

theorem startFrame_table (l : LinkId) : TableKept v (w.startFrame l) := by
  unfold Works.startFrame
  simp only []
  split
  · exact h
  · next f _ =>
    split
    · exact h
    · next q defined =>
      have numbered : TableKept v (w.setPanel f.panel { q with lastFrame := q.lastFrame + 1 }) :=
        changePanel_table h defined rfl id
      exact setLink_table numbered id

theorem reportAbandoned_table (p : PanelId) : TableKept v (w.reportAbandoned p) := by
  unfold Works.reportAbandoned
  split
  · exact h
  · next q defined =>
    split
    · refine restLanes_table (changePanel_table h (r := { q with state := .ready, wake := _ }) defined rfl (fun _ e => ?_)) p
      cases e
    · exact h

theorem underflow_table (l : LinkId) : TableKept v (w.underflow l) := by
  unfold Works.underflow
  simp only []
  split
  · exact h
  · repeat' split
    any_goals exact h
    · exact sendBytes_table h l 1
    · exact reportAbandoned_table (abandon_table h l _) _

theorem breakEnd_table (l : LinkId) : TableKept v (w.breakEnd l) := by
  unfold Works.breakEnd
  simp only []
  split
  · exact toIdle_table h l
  · exact setLink_table h (fun _ => Nat.zero_le _)
  all_goals exact h

theorem lastByteSent_table (l : LinkId) : TableKept v (w.lastByteSent l) := by
  unfold Works.lastByteSent
  simp only []
  repeat' split
  any_goals exact h
  exact setLink_table h (fun _ => Nat.zero_le _)

theorem probeSent_table (l : LinkId) : TableKept v (w.probeSent l) := by
  unfold Works.probeSent
  simp only []
  split
  · exact setLink_table h id
  · exact h

theorem showEnd_table (l : LinkId) : TableKept v (w.showEnd l) := by
  unfold Works.showEnd
  simp only []
  split
  · have released : TableKept v (w.setLink l { w.links[l] with line := .released, rx := [] }) := setLink_table h id
    exact lineFree_table released l
  · exact h

theorem passMs_table : TableKept v w.passMs := by
  refine foldWorks_table (w := { w with now := w.now + 1 }) h Works.linkMs (fun u l k => ?_) _
  unfold Works.linkMs
  simp only []
  split
  · have counted : TableKept v (u.setLink l { u.links[l] with busy := (u.links[l]).bytesInMs.2 }) := setLink_table k id
    exact sendBytes_table counted l _
  · exact k

end

/-! ## Reports at the panel table (R87 to R94) -/

theorem afterFailure_place (now : Nat) (q : Panel) : (q.afterFailure now).place = q.place := by
  unfold Panel.afterFailure
  split <;> rfl

theorem afterFailure_rested (now : Nat) (q : Panel) : (q.afterFailure now).rested := by
  unfold Panel.afterFailure
  split
  · intro e
    cases e
  · exact rest_rested q

theorem concludeFrame_table {v : Works} {d : Delivery} {report : Delivery → Delivery}
    (reported : TableKept v (report d).works) (l : LinkId) (o : LinkOutcome) (p : PanelId) :
    TableKept v (concludeFrame l o p report d).works := by
  unfold concludeFrame
  generalize report d = e at reported
  exact toIdle_table (w := e.works.setOutcome l o p) (setLink_table reported id) l

section
variable {v : Works} {d : Delivery} (h : TableKept v d.works)
include h

theorem copyComplete_table (n : LaneId) (c : Content) : TableKept v (copyComplete n c d).works := by
  have copied (p : PanelId) (q : Panel) : TableKept v (d.works.copyContext n p q) := h
  have started {w : Works} (k : TableKept v w) (p : PanelId) : TableKept v (w.startLanes c d.groups p) :=
    foldWorks_table k (fun w n => w.mapLane n (fun k =>
      k.startWorking (if w.holder n = n then some (newFrame c.board.generation d.groups p k.work) else none)))
      (fun _ _ k => k) _
  unfold copyComplete
  simp only []
  repeat' split
  any_goals exact h
  simp only [Delivery.mapWorks_works]
  split
  · exact started (copied _ _) _
  · exact copied _ _

theorem arriveNull_table (b : Board) (p : PanelId) (candidate : Bool) : TableKept v (arriveNull b p candidate d).works := by
  unfold arriveNull
  repeat' split
  any_goals exact h
  exact arrive_table h ..

theorem reportNull_table {p : PanelId} {q : Panel} (defined : d.works.panels[p] = some q) (b : Board) (f : FrameBuild) :
    TableKept v (reportNull b p q f d).works := by
  have idle {u : Works} (k : TableKept u d.works) : TableKept u ((d.works.restLanes p).toIdle q.link) :=
    toIdle_table (restLanes_table k p) q.link
  have taken : TableKept v (((d.works.restLanes p).toIdle q.link).putPanel p (q.takeNull f.generation)) :=
    setPanel_table (idle h) (Eq.trans (place_kept (idle (tableKept_refl _)) defined) rfl) (fun _ => rest_rested _)
  exact arriveNull_table (checkConfirmations_table taken b) ..

theorem endCoding_table (n : LaneId) (c : Content) : TableKept v (endCoding n c d).works := by
  unfold endCoding
  simp only []
  split
  · split
    · exact h
    · next q defined =>
      split
      · split
        · exact reportCoded_table h defined ..
        · exact reportNull_table h defined ..
      · exact h
  · exact h

theorem reportDelivered_table (b : Board) (f : FrameRecord) : TableKept v (reportDelivered b f d).works := by
  unfold reportDelivered
  split
  · exact h
  · next q defined =>
    split
    · exact h
    · split
      · unfold deliverStaged
        simp only []
        split
        · exact arrive_table h ..
        · next q' defined' => exact changePanel_table (arrive_table h ..) defined' rfl (fun _ => rest_rested _)
      · have delivered : TableKept v (d.works.putPanel f.panel
            (q.acknowledge d.works.now f.record f.full).delivered) :=
          putPanel_table h defined (by rw [acknowledge_eq]; rfl) (fun _ => rest_rested _)
        exact checkConfirmations_table delivered b

theorem reportFailed_table (b : Board) (p : PanelId) : TableKept v (reportFailed b p d).works := by
  unfold reportFailed
  split
  · exact h
  · next q defined =>
    split
    · exact h
    · next sending =>
      have sends : q.state = .sending := not_not.1 sending
      have failed {u : Works} (k : TableKept u d.works) :
          TableKept u ((d.mapWorks (Works.putPanel p q.fail)).dropOut b p).works := by
        refine dropOut_table ?_ b p
        exact putPanel_table k defined rfl (fun _ parked => by cases sends.symm.trans parked)
      have judged : TableKept v (((d.mapWorks (Works.putPanel p q.fail)).dropOut b p).works.putPanel p
          (q.fail.afterFailure d.works.now)) := by
        refine setPanel_table (failed h) ?_ (fun _ => afterFailure_rested _ _)
        rw [afterFailure_place]
        exact Eq.trans (place_kept (failed (tableKept_refl _)) defined) rfl
      refine checkConfirmations_table ?_ b
      split <;> exact judged

theorem reportRestarted_table (b : Board) (p : PanelId) : TableKept v (reportRestarted b p d).works := by
  unfold reportRestarted
  split
  · exact h
  · next q defined =>
    split
    · exact h
    · refine checkConfirmations_table ?_ b
      exact putPanel_table h defined rfl (fun _ e => by cases e)

theorem reportOnline_table (b : Board) (l : LinkId) (p : PanelId) : TableKept v (reportOnline b l p d).works := by
  unfold reportOnline
  split
  · exact h
  · next q defined =>
    split
    · refine checkConfirmations_table ?_ b
      refine putPanel_table h defined (gain_place _ _) (fun _ parked => ?_)
      cases parked
    · exact h

theorem reportMismatch_table (l : LinkId) (p : PanelId) : TableKept v (reportMismatch l p d).works := by
  unfold reportMismatch
  split
  · exact h
  · next q defined =>
    split
    · exact changePanel_table h defined rfl id
    · exact h

/-! ## Replies and deadlines (R88, R92, R165 to R168) -/

theorem judgeReply_table (b : Board) (l : LinkId) (reply : List Byte) : TableKept v (judgeReply b l reply d).works := by
  have failed (o : LinkOutcome) (p : PanelId) : TableKept v (concludeFrame l o p (reportFailed b p) d).works :=
    concludeFrame_table (reportFailed_table h b p) l o p
  unfold judgeReply
  split
  · exact h
  · split
    · unfold judgeAck
      split
      · exact h
      · split
        · exact concludeFrame_table (reportDelivered_table h b _) l _ _
        · exact failed _ _
    · unfold judgeNak
      repeat' split
      any_goals exact h
      · exact failed _ _
      · exact failed _ _
      · exact concludeFrame_table (reportRestarted_table h b _) l _ _
    · unfold judgeIdent
      split
      · exact h
      · refine toIdle_table ?_ l
        split
        · exact reportOnline_table h b l _
        · exact reportMismatch_table h l _
    · exact h

theorem receive_table (l : LinkId) (rx : List RxChar) (c : Content) : TableKept v (receive l rx c d).works := by
  refine foldDelivery_table h _ (fun e x k => ?_) rx
  have heard (bytes : List Byte) : TableKept v (e.works.setRx l bytes) := setLink_table k id
  unfold receiveChar
  simp only []
  repeat' split
  any_goals exact k
  · exact judgeReply_table (d := e.mapWorks _) (heard _) ..
  · exact heard _

theorem replyTimeout_table (l : LinkId) (c : Content) : TableKept v (replyTimeout l c d).works := by
  unfold replyTimeout
  simp only []
  repeat' split
  any_goals exact h
  exact concludeFrame_table (reportFailed_table (d := d.reach _) h ..) l _ _

theorem probeFallsDue_table (p : PanelId) : TableKept v (probeFallsDue p d).works := by
  unfold probeFallsDue
  repeat' split
  any_goals exact h
  simp only [Delivery.mapWorks_works]
  split
  · exact beginDueProbe_table (w := (d.reach _).works) h _
  · exact h

theorem probeTimeout_table (l : LinkId) : TableKept v (probeTimeout l d).works := by
  unfold probeTimeout
  simp only []
  repeat' split
  any_goals exact h
  exact toIdle_table (w := (d.reach _).works) h l

theorem endHoldoff_table (p : PanelId) (c : Content) : TableKept v (endHoldoff p c d).works := by
  unfold endHoldoff
  split
  · exact h
  · next q defined =>
    split
    · exact h
    · refine raise_table ?_ ..
      exact changePanel_table (w := (d.reach _).works) h defined rfl id

theorem reachRefresh_table (p : PanelId) (c : Content) : TableKept v (reachRefresh p c d).works := by
  unfold reachRefresh
  split
  · exact h
  · next q defined =>
    split
    · exact h
    · refine raise_table ?_ ..
      exact putPanel_table (w := (d.reach _).works) h defined rfl id

theorem lapseSwap_table (b : Board) (g : GroupId) (x : Swap) : TableKept v (d.lapseSwap b g x).works := by
  have noted {e : Delivery} (k : TableKept v e.works) : TableKept v (e.notifyIncomplete g x).works := by
    unfold Delivery.notifyIncomplete
    split <;> exact k
  exact endSwap_table (raises_table (noted (showSwap_table h b x)) ..) g x

/-! ## The requests of links, groups and panels -/

theorem setupLink_table (link divider timeout startLevel : Nat) (c : Content) :
    TableKept v (setupLink link divider timeout startLevel c d).2.1.works := by
  unfold setupLink
  dsimp only
  repeat' split
  any_goals exact h
  exact setLink_table h id

theorem enableLink_table (link : Nat) (c : Content) : TableKept v (enableLink link c d).2.1.works := by
  unfold enableLink
  dsimp only
  repeat' split
  any_goals exact h
  next l _ _ =>
  have enabled : TableKept v (d.works.setLink l (d.works.links[l]).enable) := setLink_table h (fun _ => Nat.zero_le _)
  exact mapPanels_table enabled _ (fun q => by split <;> rfl) (fun q rest => by split <;> exact rest)

theorem setupGroup_table (group : Nat) (members : List Nat) (deadline : Nat) (c : Content) :
    TableKept v (setupGroup group members deadline c d).2.1.works := by
  unfold setupGroup
  dsimp only
  repeat' split
  all_goals exact h

theorem armRequest_table (p : PortId) (group : Nat) (c : Content) :
    TableKept v (armRequest p group c d).2.1.works := by
  unfold armRequest
  dsimp only
  repeat' split
  any_goals exact h
  exact arm_table h ..

theorem takeNotice_table (p : PortId) (c : Content) : TableKept v (takeNotice p c d).2.1.works := by
  unfold takeNotice
  repeat' split
  all_goals exact h

theorem maskNotices_table (p : PortId) (kinds : BitVec 16) (c : Content) :
    TableKept v (maskNotices p kinds c d).2.1.works := by
  unfold maskNotices
  split <;> exact h

theorem restoreRequest_table (panel : Nat) (c : Content) : TableKept v (restoreRequest panel c d).2.1.works := by
  unfold restoreRequest
  repeat' split
  any_goals exact h
  next q defined _ => exact changePanel_table h defined rfl (fun _ e => by cases e)

end

end Sys2Proof.Machine
end

section
/-! Every command keeps the panel table and the FIFOs; PANEL_DEFINE, PANEL_REMOVE, LINK_DISABLE and RESETN by what they are
(R80 to R82, R95, R157, R181). -/

namespace Sys2Proof.Machine

/-! ## PANEL_DEFINE (R80, R81) -/

/-- A record of a location that no other holds, within the limits of its class and without a cause. -/
theorem tableOk_defined {w : Works} (ok : TableOk w) {p : PanelId} {q : Panel}
    (free : ∀ (m : PanelId) (r : Panel), m ≠ p → w.panels[m] = some r → r.link = q.link → r.drop ≠ q.drop)
    (fits : geometryAccepted q.cls q.width q.height = true) (level : q.level = 1 ∨ q.level = 2) (refresh : q.refresh ≤ 60)
    (rest : q.rested) : TableOk (w.setPanel p q) := by
  obtain ⟨⟨apart, within⟩, fifos⟩ := ok
  have record (m : PanelId) (a : Panel) (defined : (w.setPanel p q).panels[m] = some a) :
      (m = p ∧ a = q) ∨ (m ≠ p ∧ w.panels[m] = some a) := by
    rw [Works.setPanel_panels, set_getFin] at defined
    split at defined
    · next e =>
      cases defined
      exact .inl ⟨e.symm, rfl⟩
    · next other => exact .inr ⟨fun e => other e.symm, defined⟩
  refine ⟨⟨fun m n a b ha hb link drop => ?_, fun m a ha => ?_⟩, fifos⟩
  · rcases record m a ha with ⟨rfl, rfl⟩ | ⟨om, da⟩ <;> rcases record n b hb with ⟨rfl, rfl⟩ | ⟨on, db⟩
    · rfl
    · exact absurd drop.symm (free n b on db link.symm)
    · exact absurd drop (free m a om da link)
    · exact apart m n a b da db link drop
  · rcases record m a ha with ⟨rfl, rfl⟩ | ⟨-, da⟩
    · exact ⟨fits, level, refresh, rest⟩
    · exact within m a da

theorem defineRequest_ok (panel : Nat) (address : Byte) (link drop cls width height level refresh : Nat) (c : Content)
    {d : Delivery} (ok : TableOk d.works) :
    TableOk (defineRequest panel address link drop cls width height level refresh c d).2.1.works := by
  unfold defineRequest
  split
  · next p l x k _ _ _ _ =>
    split
    · next accepted =>
      obtain ⟨levels, fits⟩ := accepted
      unfold definePanel
      split
      · exact ok
      · split
        · exact ok
        · next unused =>
          refine tableOk_defined (w := (d.works.dropResident p).setPasses p 0) ok (fun m r other defined onLink atDrop => ?_)
            fits levels (Nat.min_le_left 60 refresh) (fun e => by cases e)
          exact unused ((locationUsed_iff d.works p l x).2 ⟨m, r, other, defined, onLink, atDrop⟩)
    · exact ok
  · exact ok

/-! ## PANEL_REMOVE (R82) -/

theorem clearPanel_ok {w : Works} (ok : TableOk w) (p : PanelId) : TableOk (w.clearPanel p) := by
  obtain ⟨⟨apart, within⟩, fifos⟩ := ok
  have record (m : PanelId) (a : Panel) (defined : (w.clearPanel p).panels[m] = some a) : w.panels[m] = some a := by
    rw [Works.clearPanel_panels, set_getFin] at defined
    split at defined
    · cases defined
    · exact defined
  exact ⟨⟨fun m n a b ha hb => apart m n a b (record m a ha) (record n b hb), fun m a ha => within m a (record m a ha)⟩,
    fifos⟩

theorem removePanel_ok (b : Board) (p : PanelId) (q : Panel) {d : Delivery} (ok : TableOk d.works) :
    TableOk (removePanel b p q d).works := by
  have abandoned : TableKept d.works (d.works.abandonWork p q) := by
    have dropped := dropFrame_table (tableKept_refl d.works) q.link
    unfold Works.abandonWork
    split
    · exact freeLanes_table dropped _
    · exact dropped
    all_goals exact tableKept_refl _
  have forgotten : TableKept d.works ((d.works.abandonWork p q).forgetPanel p) := by
    refine endClaimOf_table (w := (d.works.abandonWork p q).dropResident p) ?_ p
    exact abandoned
  have left : TableKept d.works ((d.mapWorks (fun w => (w.abandonWork p q).forgetPanel p)).leaveGroup b p).works := by
    refine dropOut_table ?_ b p
    exact forgotten
  unfold removePanel
  rw [(checkConfirmations_frame b _).2]
  exact clearPanel_ok (left.ok ok) p

theorem removeRequest_ok (panel : Nat) (c : Content) {d : Delivery} (ok : TableOk d.works) :
    TableOk (removeRequest panel c d).2.1.works := by
  unfold removeRequest
  repeat' split
  any_goals exact ok
  exact removePanel_ok c.board _ _ ok

/-! ## LINK_DISABLE (R95, R161) -/

theorem droppedOff_table (b : Board) (l : LinkId) (d : Delivery) : TableKept d.works (d.droppedOff b l).works := by
  refine ⟨⟨fun m => ?_, fun all m q defined => ?_⟩, fun fits k => ?_⟩
  · cases on : d.works.onLink l m with
    | false => exact congrArg _ (takenOff_panels_off on)
    | true =>
      obtain ⟨q, defined, link⟩ := (onLink_iff _ l m).1 on
      have taken : (d.droppedOff b l).works.panels[m] =
          some ({ q with wake := q.wake.union (d.works.workOf m) } : Panel).disable := takenOff_panels_on defined link
      rw [defined, taken]
      rfl
  · have taken : (d.takenOff b l).works.panels[m] = some q := defined
    cases on : d.works.onLink l m with
    | false => exact all m q ((takenOff_panels_off on).symm.trans taken)
    | true =>
      obtain ⟨r, was, link⟩ := (onLink_iff _ l m).1 on
      cases (takenOff_panels_on (b := b) was link).symm.trans taken
      intro parked
      cases parked
  · have links : (d.droppedOff b l).works.links = d.works.links.set l (d.works.links[l]).disable :=
      (takenOff_offline b l d).links.trans (disableOn_links d.works l)
    rw [links, set_getFin]
    split
    · have own := fits l
      unfold Link.disable
      split
      · exact Nat.zero_le _
      all_goals exact own
    · exact fits k

theorem disableLink_table (link : Nat) (c : Content) (d : Delivery) :
    TableKept d.works (disableLink link c d).2.1.works := by
  by_cases above : 7 < link
  · rw [disableLink_above above]
    exact tableKept_refl _
  · obtain ⟨l, rfl⟩ : ∃ l : LinkId, l.val = link := ⟨⟨link, by omega⟩, rfl⟩
    by_cases was : (d.works.links[l]).state = .disabled
    · rw [disableLink_disabled was]
      exact tableKept_refl _
    · rw [disableLink_eq was]
      exact foldDelivery_table (droppedOff_table c.board l d) _ (fun _ g k => checkSwap_table k c.board g) _

/-! ## Every command -/

/-- The command keeps the panel table and the FIFOs as they are to be. -/
def TableHolds (i : Instr) (s : State) : Prop :=
  ∀ t, exec i s = .next t → TableOk s.delivery.works → TableOk t.delivery.works

theorem tableHolds_of_leaves {i : Instr} {s : State} {c : Content} {d : Delivery} (h : Leaves (exec i s) s c d)
    (k : TableOk s.delivery.works → TableOk d.works) : TableHolds i s := fun t e ok => by
  cases h.symm.trans e
  exact (settleDelivery_table (tableKept_refl d.works) ..).ok (k ok)

theorem tableHolds_of_event {i : Instr} {s : State} (f : Content → Delivery → Delivery) (e : exec i s = event f s)
    (k : ∀ c d, TableKept d.works (f c d).works) : TableHolds i s :=
  tableHolds_of_leaves (e ▸ event_leaves f s) (k s.content s.delivery).ok

theorem tableHolds_of_contentEvent {i : Instr} {s : State} (f : Content → Delivery → Content × Delivery)
    (e : exec i s = contentEvent f s) (k : ∀ c d, TableKept d.works (f c d).2.works) : TableHolds i s :=
  tableHolds_of_leaves (c := (f s.content s.delivery).1) (d := (f s.content s.delivery).2) e (k s.content s.delivery).ok

theorem tableHolds_of_ok {i : Instr} {s : State} (p : PortId) (f : Content → Delivery → Content × Delivery × Reply)
    (e : exec i s = request p i f s) (k : ∀ c d, TableOk d.works → TableOk (f c d).2.1.works) : TableHolds i s := by
  by_cases take : s.canTake p i
  · have taken := request_taken p i f s take
    rw [← e] at taken
    exact tableHolds_of_leaves taken (k s.content (s.taking p))
  · intro t h ok
    rw [e, request_left p i f s take] at h
    cases h
    exact ok

theorem tableHolds_of_supervisedOk {i : Instr} {s : State} (p : PortId)
    (f : Content → Delivery → Content × Delivery × Reply) (e : exec i s = request p i (supervised p f) s)
    (k : ∀ c d, TableOk d.works → TableOk (f c d).2.1.works) : TableHolds i s :=
  tableHolds_of_ok p (supervised p f) e (fun c d ok => by
    unfold supervised
    split
    · exact ok
    · exact k c d ok)

theorem tableHolds_of_request {i : Instr} {s : State} (p : PortId)
    (f : Content → Delivery → Content × Delivery × Reply) (e : exec i s = request p i f s)
    (k : ∀ c d, TableKept d.works (f c d).2.1.works) : TableHolds i s := tableHolds_of_ok p f e (fun c d => (k c d).ok)

theorem tableHolds_of_supervised {i : Instr} {s : State} (p : PortId)
    (f : Content → Delivery → Content × Delivery × Reply) (e : exec i s = request p i (supervised p f) s)
    (k : ∀ c d, TableKept d.works (f c d).2.1.works) : TableHolds i s :=
  tableHolds_of_supervisedOk p f e (fun c d => (k c d).ok)

theorem tableHolds_of_query {i : Instr} {s : State} (p : PortId) (f : Content → Delivery → Reply)
    (e : exec i s = query p i f s) : TableHolds i s := tableHolds_of_request p _ e (fun _ d => tableKept_refl d.works)

theorem mapWorks_table {v : Works} {d : Delivery} (f : Works → Works) (h : TableKept v (f d.works)) :
    TableKept v (d.mapWorks f).works := h

/-- An event that changes the works alone. -/
theorem tableHolds_of_works {i : Instr} {s : State} (f : Content → Works → Works)
    (e : exec i s = event (fun c d => d.mapWorks (f c)) s) (k : ∀ c w, TableKept w (f c w)) : TableHolds i s :=
  tableHolds_of_event _ e (fun c d => mapWorks_table (f c) (k c d.works))

theorem exec_table (i : Instr) (s : State) : TableHolds i s := by
  cases i with
  | resetn =>
    intro t h _
    cases h
    obtain ⟨-, -, -, -, -, -, -, -, -, panels, -, fifos⟩ := resetStateIsSafe
    exact ⟨panels, fifos⟩
  | transfer p fdi =>
    intro t h ok
    change execTransfer p fdi s = .next t at h
    unfold execTransfer at h
    split at h <;> cases h <;> exact ok
  | depPut p list trip line destination scheduled =>
    exact tableHolds_of_request p
      (listRequest list trip (decide (line ≤ 63 ∧ destination ≤ 127 ∧ scheduled ≤ 107999))
        (putTrip p trip line destination scheduled)) rfl
      (fun c d => listRequest_table (tableKept_refl _) _ _ _ _ c (fun _ => putTrip_table (tableKept_refl _) ..))
  | depPredict p list trip predicted =>
    exact tableHolds_of_request p (entryRequest list trip (predictTrip p predicted)) rfl
      (fun c d => entryRequest_table (tableKept_refl _) _ _ _ c (fun _ _ => predictTrip_table (tableKept_refl _) ..))
  | depArrive p list trip =>
    exact tableHolds_of_request p (entryRequest list trip (arriveTrip p)) rfl
      (fun c d => entryRequest_table (tableKept_refl _) _ _ _ c (fun _ _ => raiseListChange_table (tableKept_refl _) ..))
  | depDepart p list trip =>
    exact tableHolds_of_request p (entryRequest list trip departTrip) rfl
      (fun c d => entryRequest_table (tableKept_refl _) _ _ _ c (fun _ _ => raiseWhere_table (tableKept_refl _) ..))
  | depCancel p list trip =>
    exact tableHolds_of_request p (entryRequest list trip (cancelTrip p)) rfl
      (fun c d => entryRequest_table (tableKept_refl _) _ _ _ c (fun _ _ => raiseListChange_table (tableKept_refl _) ..))
  | depRead p list => exact tableHolds_of_query p (fun c _ => readList list c) rfl
  | destSet p index text =>
    exact tableHolds_of_request p (setDestination index text) rfl (fun c _ => setDestination_table (tableKept_refl _) _ _ c)
  | clockSet p t => exact tableHolds_of_request p (setClock t) rfl (fun c _ => setClock_table (tableKept_refl _) t c)
  | newDay p t => exact tableHolds_of_supervised p (newDay t) rfl (fun c _ => newDay_table (tableKept_refl _) t c)
  | clockRead p => exact tableHolds_of_query p (fun c _ => readClock c.clock) rfl
  | settings p pairs =>
    exact tableHolds_of_supervised p (changeSettings pairs) rfl (fun c _ => changeSettings_table (tableKept_refl _) _ c)
  | post p f => exact tableHolds_of_request p (postPlacard p f) rfl (fun c _ => postPlacard_table (tableKept_refl _) p f c)
  | amend p number f =>
    exact tableHolds_of_request p (placardRequest number (amendValid f) (amendPlacard p f)) rfl (fun c _ =>
      placardRequest_table (tableKept_refl _) _ _ _ c (fun _ _ => amendPlacard_table (tableKept_refl _) ..))
  | textSet p number text =>
    exact tableHolds_of_request p (placardRequest number (textValid 160 text) (setText p text)) rfl (fun c _ =>
      placardRequest_table (tableKept_refl _) _ _ _ c (fun _ _ => setText_table (tableKept_refl _) ..))
  | withdraw p number =>
    exact tableHolds_of_request p (placardRequest number true (withdrawPlacard p)) rfl (fun c _ =>
      placardRequest_table (tableKept_refl _) _ _ _ c (fun _ _ => withdrawPlacard_table (tableKept_refl _) ..))
  | boardRead p number => exact tableHolds_of_query p (fun c _ => readPlacard number c.board) rfl
  | confirmShown p tag number timeout =>
    exact tableHolds_of_request p
      (taggedRequest p tag (fun t => placardRequest number true (openConfirmation p timeout t))) rfl (fun c _ =>
      taggedRequest_table (tableKept_refl _) _ _ _ c (fun _ => placardRequest_table (tableKept_refl _) _ _ _ c
        (fun _ _ => openConfirmation_table (tableKept_refl _) ..)))
  | take p tag hold wait =>
    exact tableHolds_of_request p (takeRequest p tag hold wait) rfl
      (fun c _ => takeRequest_table (tableKept_refl _) _ _ _ _ c)
  | release p hold =>
    exact tableHolds_of_request p (releaseRequest p hold) rfl (fun c _ => releaseRequest_table (tableKept_refl _) _ _ c)
  | handover p hold heir =>
    exact tableHolds_of_request p (handoverRequest p hold heir) rfl
      (fun c _ => handoverRequest_table (tableKept_refl _) _ _ _ c)
  | holdSetup p hold limit group =>
    exact tableHolds_of_supervised p (setupHold hold limit group) rfl
      (fun c _ => setupHold_table (tableKept_refl _) _ _ _ c)
  | holdRead p hold => exact tableHolds_of_query p (fun c d => readHold hold c d.works.now) rfl
  | holdExpiry hold =>
    exact tableHolds_of_contentEvent (expireHold hold) rfl (fun c _ => expireHold_table (tableKept_refl _) hold c)
  | waitTimeout hold port =>
    refine tableHolds_of_contentEvent (fun c d => match c.holds[hold].waiterOf port with
      | none => (c, d)
      | some x => endWait hold x .timeout (b1 hold.val) c (d.reach x.deadline)) rfl (fun c d => ?_)
    split <;> exact tableKept_refl d.works
  | panelDefine p panel address link drop cls width height level refresh =>
    exact tableHolds_of_supervisedOk p (defineRequest panel address link drop cls width height level refresh) rfl
      (fun c _ => defineRequest_ok panel address link drop cls width height level refresh c)
  | panelRemove p panel =>
    exact tableHolds_of_supervisedOk p (removeRequest panel) rfl (fun c _ => removeRequest_ok panel c)
  | panelRestore p panel =>
    exact tableHolds_of_supervised p (restoreRequest panel) rfl (fun c _ => restoreRequest_table (tableKept_refl _) _ c)
  | panelRead p panel => exact tableHolds_of_query p (fun _ d => readPanel panel d.works) rfl
  | fontSetup p font height =>
    exact tableHolds_of_supervised p (setupFont font height) rfl (fun c _ => setupFont_table (tableKept_refl _) _ _ c)
  | glyphLoad p font entries =>
    exact tableHolds_of_supervised p (loadGlyphs font entries) rfl (fun c _ => loadGlyphs_table (tableKept_refl _) _ _ c)
  | tokenSet p token text =>
    exact tableHolds_of_supervised p (setToken token text) rfl (fun c _ => setToken_table (tableKept_refl _) _ _ c)
  | tickerSetup p ticker font window period columns lowWater =>
    exact tableHolds_of_supervised p (setupTicker ticker font window period columns lowWater) rfl
      (fun c _ => setupTicker_table (tableKept_refl _) _ _ _ _ _ _ c)
  | tickerFeed p ticker chars =>
    exact tableHolds_of_request p (feedTicker p ticker chars) rfl (fun c _ => feedTicker_table (tableKept_refl _) _ _ _ c)
  | tickerFlush p ticker =>
    exact tableHolds_of_request p (flushTicker ticker) rfl (fun c _ => flushTicker_table (tableKept_refl _) _ c)
  | tickerRead p ticker => exact tableHolds_of_query p (fun c d => readTicker ticker c d.works.now) rfl
  | scrollStep ticker =>
    exact tableHolds_of_contentEvent (scrollTicker ticker) rfl (fun c _ => scrollTicker_table (tableKept_refl _) ticker c)
  | linkSetup p link divider timeout startLevel =>
    exact tableHolds_of_supervised p (setupLink link divider timeout startLevel) rfl
      (fun c _ => setupLink_table (tableKept_refl _) _ _ _ _ c)
  | linkEnable p link =>
    exact tableHolds_of_supervised p (enableLink link) rfl (fun c _ => enableLink_table (tableKept_refl _) _ c)
  | linkDisable p link => exact tableHolds_of_supervised p (disableLink link) rfl (disableLink_table link)
  | linkRead p link => exact tableHolds_of_query p (fun _ d => readLink link d.works) rfl
  | groupSetup p group members deadline =>
    exact tableHolds_of_supervised p (setupGroup group members deadline) rfl
      (fun c _ => setupGroup_table (tableKept_refl _) _ _ _ c)
  | groupArm p group =>
    exact tableHolds_of_request p (armRequest p group) rfl (fun c _ => armRequest_table (tableKept_refl _) p _ c)
  | groupRead p group => exact tableHolds_of_query p (fun _ d => readGroup group d) rfl
  | groupDeadline group =>
    refine tableHolds_of_event (fun c d => match d.groups[group].swap with
      | none => d
      | some k => (d.reach k.deadline).lapseSwap c.board group k) rfl (fun c d => ?_)
    split
    · exact tableKept_refl d.works
    · exact lapseSwap_table (d := d.reach _) (tableKept_refl d.works) ..
  | cancelSplit p tag =>
    exact tableHolds_of_request p (cancelSplit p tag) rfl (fun c _ => cancelSplit_table (tableKept_refl _) p _ c)
  | noticeTake p => exact tableHolds_of_request p (takeNotice p) rfl (fun c _ => takeNotice_table (tableKept_refl _) p c)
  | noticeMask p kinds =>
    exact tableHolds_of_request p (maskNotices p kinds) rfl (fun c _ => maskNotices_table (tableKept_refl _) p _ c)
  | partStatus p => exact tableHolds_of_query p partStatus rfl
  | boardClear p => exact tableHolds_of_supervised p clearAll rfl (fun c _ => clearAll_table (tableKept_refl _) c)
  | countInterval =>
    intro t h ok
    cases h
    have counted : TableKept s.delivery.works (countClock s.content (s.delivery.reach s.nextCount)).2.works := by
      rw [countClock_eq]
      exact followClock_table (d := s.delivery.reach _) (tableKept_refl s.delivery.works) ..
    exact (settleDelivery_table counted ..).ok ok
  | confirmDeadline p tag =>
    refine tableHolds_of_event (fun c d => match d.confirmationOf p tag with
      | none => d
      | some k => (d.reach k.deadline).endConfirmation k (k.lapse c.board d.works)) rfl (fun c d => ?_)
    split <;> exact tableKept_refl d.works
  | holdoffEnd panel =>
    exact tableHolds_of_event (endHoldoff panel) rfl (fun c _ => endHoldoff_table (tableKept_refl _) panel c)
  | refreshDeadline panel =>
    exact tableHolds_of_event (reachRefresh panel) rfl (fun c _ => reachRefresh_table (tableKept_refl _) panel c)
  | contextCopyComplete lane =>
    exact tableHolds_of_event (copyComplete lane) rfl (fun c _ => copyComplete_table (tableKept_refl _) lane c)
  | strip lane => exact tableHolds_of_works (stripStep lane) rfl (fun c w => stripStep_table (tableKept_refl w) lane c)
  | fifoRoom lane sent =>
    refine tableHolds_of_event (fun _ d => match d.works.lanes[lane].context with
      | none => d
      | some x => d.mapWorks (Works.sendBytes x.link sent)) rfl (fun _ d => ?_)
    split
    · exact tableKept_refl d.works
    · exact sendBytes_table (tableKept_refl d.works) _ _
  | codingEnd lane => exact tableHolds_of_event (endCoding lane) rfl (fun c _ => endCoding_table (tableKept_refl _) lane c)
  | frameStart link =>
    refine tableHolds_of_event
      (fun _ d => if d.works.mayStart link then d.mapWorks (Works.startFrame link) else d) rfl (fun _ d => ?_)
    split
    · exact startFrame_table (tableKept_refl d.works) link
    · exact tableKept_refl d.works
  | underflow link =>
    exact tableHolds_of_works (fun _ => Works.underflow link) rfl (fun _ w => underflow_table (tableKept_refl w) link)
  | breakEnd link =>
    exact tableHolds_of_works (fun _ => Works.breakEnd link) rfl (fun _ w => breakEnd_table (tableKept_refl w) link)
  | lastByteSent link =>
    exact tableHolds_of_works (fun _ => Works.lastByteSent link) rfl (fun _ w => lastByteSent_table (tableKept_refl w) link)
  | ack link rx | nak link rx | ident link rx =>
    exact tableHolds_of_event (receive link rx) rfl (fun c _ => receive_table (tableKept_refl _) link rx c)
  | replyTimeout link =>
    exact tableHolds_of_event (replyTimeout link) rfl (fun c _ => replyTimeout_table (tableKept_refl _) link c)
  | probeDue panel =>
    exact tableHolds_of_event (fun _ => probeFallsDue panel) rfl (fun _ _ => probeFallsDue_table (tableKept_refl _) panel)
  | probeSent link =>
    exact tableHolds_of_works (fun _ => Works.probeSent link) rfl (fun _ w => probeSent_table (tableKept_refl w) link)
  | probeTimeout link =>
    exact tableHolds_of_event (fun _ => probeTimeout link) rfl (fun _ _ => probeTimeout_table (tableKept_refl _) link)
  | showEnd link =>
    exact tableHolds_of_works (fun _ => Works.showEnd link) rfl (fun _ w => showEnd_table (tableKept_refl w) link)
  | resetnLow =>
    intro t h ok
    cases h
    exact ok

/-- Settles O12: on an empty queue a ms passes and bytes leave the FIFOs; every other command keeps each panel where its
definition put it, parks none with a cause and writes into a FIFO no more than it has room for. -/
theorem stepsKeepPanelTableAndFifos : Obligations.StepsKeepPanelTableAndFifos := by
  unfold Obligations.StepsKeepPanelTableAndFifos
  intro s t ok stepped
  unfold step at stepped
  split at stepped
  · cases stepped
    exact (settleDelivery_table (mapWorks_table Works.passMs (passMs_table (tableKept_refl _))) ..).ok ok
  · next i rest _ => exact exec_table i _ t stepped ok

end Sys2Proof.Machine
end

section
/-! The course of a frame on its link: FRAME_START, LAST_BYTE_SENT, UNDERFLOW, BREAK_END and the levels on LTX (R158, R163 to
R165). -/

namespace Sys2Proof.Machine

/-! ## Events that change the works alone -/

theorem leavesWorks_of_event {i : Instr} {s : State} {w : Works} (f : Content → Delivery → Delivery)
    (e : exec i s = event f s) (h : f s.content s.delivery = { s.delivery with works := w }) : LeavesWorks i s w := by
  unfold LeavesWorks
  rw [e, ← h]
  exact event_leaves f s

theorem leavesWorks_of_works {i : Instr} {s : State} {w : Works} (f : Content → Works → Works)
    (e : exec i s = event (fun c d => d.mapWorks (f c)) s) (h : f s.content s.delivery.works = w) : LeavesWorks i s w :=
  leavesWorks_of_event _ e (by rw [Delivery.mapWorks, h])

/-! ## Lanes that rest (R106, R112, R117) -/

/-- The lanes that rest one by one: each keeps its panel's context alone, and nothing else changes. -/
theorem residentLanes_eq (w : Works) (ns : List LaneId) (nodup : ns.Nodup) : ns.foldl Works.residentLane w =
    { w with lanes := Vector.ofFn (fun n => if n ∈ ns then keptLane w n else w.lanes[n]) } := by
  have walk := foldl_table (fun (v : Vector Lane 8) (_ : Unit) => ({ w with lanes := v } : Works)) Works.residentLane
    (fun n k => if w.inClaimedPair n then Lane.claimed
      else { Lane.free with state := .resident, panel := k.panel, partner := k.partner, context := k.context })
    (fun _ _ d => d) (fun _ _ _ => rfl) ns w.lanes () nodup
  exact walk

theorem lanesServing_nodup (w : Works) (p : PanelId) : (w.lanesServing p).Nodup := (List.nodup_finRange 8).filter _

theorem restLanes_eq (w : Works) (p : PanelId) : w.restLanes p =
    { w with lanes := Vector.ofFn (fun n => if n ∈ w.lanesServing p then keptLane w n else w.lanes[n]) } :=
  residentLanes_eq w _ (lanesServing_nodup w p)

theorem ofFn_getFin {α : Type} {n : Nat} (f : Fin n → α) (i : Fin n) : (Vector.ofFn f)[i] = f i := by simp

/-! ## The start of a frame (R163) -/

section
variable {w : Works} {l : LinkId} {f : FrameRecord} (frame : (w.links[l]).frame = some f)
include frame

theorem mayStart_iff (state : (w.links[l]).state = .reserved) (line : (w.links[l]).line = .released) :
    w.mayStart l = true ↔ f.committed = true ∧
      ((w.links[l]).startLevel ≤ (w.links[l]).fifo.length ∨ f.complete = true ∨ w.waitsForRoom f.panel = true) := by
  simp only [Works.mayStart, frame, state, line, Bool.and_eq_true, Bool.or_eq_true, decide_eq_true_eq, and_self, true_and,
    or_assoc]

theorem startFrame_eq {q : Panel} (defined : w.panels[f.panel] = some q) : w.startFrame l =
    (w.setPanel f.panel { q with lastFrame := q.lastFrame + 1 }).setLink l { w.links[l] with
      state := .streaming
      line := .frame
      frame := some { f with number := some (q.lastFrame + 1), staged := w.stagedMark f }
      sent := frameHeader f.drop (q.lastFrame + 1) (w.stagedMark f) q.stripCount
      busy := 7 * (w.links[l]).divider
      rx := [] } := by
  simp only [Works.startFrame, frame, defined]

/-! ## Its end (R164, R165) -/

variable (state : (w.links[l]).state = .streaming) (line : (w.links[l]).line = .frame)
include state line

theorem lastByteSent_eq (complete : f.complete = true) : w.lastByteSent l = w.setLink l { w.links[l] with
    state := .awaitingReply, line := .released, fifo := [], sent := (w.links[l]).sent ++ (w.links[l]).fifo, busy := 0
    wait := some (w.now + (w.links[l]).timeout), rx := [] } := by
  simp only [Works.lastByteSent, frame, state, line, complete, and_self, if_true]

theorem underflow_sent (empty : (w.links[l]).fifo = []) (complete : f.complete = true) : w.underflow l = w := by
  simp only [Works.underflow, frame, state, line, empty, complete, and_self, if_true, ne_eq, not_true_eq_false, if_false]

theorem underflow_goesOn {x : Byte} {rest : List Byte} (more : (w.links[l]).fifo = x :: rest) : w.underflow l =
    (w.setLink l { w.links[l] with fifo := rest, sent := (w.links[l]).sent ++ [x] }).resume f.panel := by
  simp only [Works.underflow, Works.sendBytes, frame, state, line, more, and_self, if_true, ne_eq, reduceCtorEq,
    not_false_eq_true, List.drop_one, List.tail_cons, List.take_succ_cons, List.take_zero]

theorem underflow_breaks (empty : (w.links[l]).fifo = []) (incomplete : f.complete = false) : w.underflow l =
    (w.setLink l { w.links[l] with
      line := .brk false, abandons := min 65535 ((w.links[l]).abandons + 1), fifo := [], busy := 0
      lastOutcome := some (.abandoned, f.panel) }).reportAbandoned f.panel := by
  have broken : (w.links[l]).breaking = false := by rw [Link.breaking, line]
  have abandoned : (w.links[l]).abandon = { w.links[l] with
      line := .brk false, abandons := min 65535 ((w.links[l]).abandons + 1), fifo := [], busy := 0 } := by
    rw [Link.abandon, broken, ← empty]
    rfl
  simp only [Works.underflow, frame, state, line, empty, incomplete, abandoned, and_self, if_true, ne_eq, not_true_eq_false,
    if_false, Bool.false_eq_true]

end

/-- ABANDONED of a LOADED panel: READY with the work causes merged back, its lanes at rest (R93, R117). -/
theorem reportAbandoned_loaded {w : Works} {p : PanelId} {q : Panel} (defined : w.panels[p] = some q)
    (loaded : q.state = .loaded) : w.reportAbandoned p =
      (w.setPanel p { q with state := .ready, wake := q.wake.union (w.workOf p) }).restLanes p := by
  simp only [Works.reportAbandoned, defined, loaded, if_true]
  rfl

theorem reportAbandoned_other {w : Works} {p : PanelId} (h : ∀ q, w.panels[p] = some q → q.state ≠ .loaded) :
    w.reportAbandoned p = w := by
  unfold Works.reportAbandoned
  split
  · rfl
  · next q defined => exact if_neg (h q defined)

/-! ## The end of a break (R158) -/

theorem breakEnd_idle {w : Works} {l : LinkId} (line : (w.links[l]).line = .brk false) : w.breakEnd l = w.toIdle l := by
  simp only [Works.breakEnd, line]

theorem breakEnd_disabled {w : Works} {l : LinkId} (line : (w.links[l]).line = .brk true) : w.breakEnd l =
    w.setLink l { w.links[l] with
      state := .disabled, fifo := [], frame := none, probe := none, wait := none, line := .released, pendingShow := []
      busy := 0, rx := [] } := by
  simp only [Works.breakEnd, Link.clear, line, reduceCtorEq, if_false]

/-! ## The levels on LTX (R158) -/

theorem ltxAt_released {k : Link} (line : k.line = .released) (t : Nat) : k.ltxAt t = true := by
  simp [Link.ltxAt, Link.ltxLevels, line]

theorem ltxAt_sending {k : Link} (line : k.line = .frame ∨ k.line = .probe ∨ k.line = .show) (t : Nat) :
    k.ltxAt t = ((k.sent.flatMap charLevels)[t]?).getD true := by
  rcases line with line | line | line <;> rw [Link.ltxAt, Link.ltxLevels, line]

theorem ltxAt_break {k : Link} {b : Bool} (line : k.line = .brk b) (t : Nat) :
    k.ltxAt t = ((k.sent.flatMap charLevels ++ List.replicate 20 false)[t]?).getD true := by
  rw [Link.ltxAt, Link.ltxLevels, line]

/-- Settles O54: the start by `mayStart_iff`, the end of a frame and its break by what `underflow` makes of the FIFO, the
return to IDLE by `toIdle_returns`. -/
theorem framesStartEndAndBreak : Obligations.FramesStartEndAndBreak := by
  unfold Obligations.FramesStartEndAndBreak
  intro l s w k
  refine ⟨fun f q frame defined state line => ⟨fun committed ready => ?_, fun not_ready => ?_⟩,
    fun f frame state line complete => ?_, fun f frame state line => ⟨fun empty complete => ?_, fun x rest more => ?_⟩,
    fun f frame state line empty incomplete => ?_, fun line => ?_, fun line => ?_, ?_⟩
  · have starts := (mayStart_iff frame state line).2 ⟨committed, ready⟩
    have started : w.startFrame l = _ := startFrame_eq frame defined
    refine leavesWorks_of_event (fun _ d => if d.works.mayStart l then d.mapWorks (Works.startFrame l) else d) rfl ?_
    refine (if_pos starts).trans (congrArg (fun v => { s.delivery with works := v }) (started.trans ?_))
    simp only [frameHeader, Bool.cond_eq_ite]
    rfl
  · refine leavesWorks_of_event (fun _ d => if d.works.mayStart l then d.mapWorks (Works.startFrame l) else d) rfl ?_
    refine if_neg fun starts => ?_
    obtain ⟨committed, ready⟩ := (mayStart_iff (w := w) frame state line).1 starts
    rcases not_ready with e | ⟨below, incomplete, no_wait⟩
    · exact Bool.false_ne_true (e.symm.trans committed)
    · rcases ready with e | e | e
      · exact Nat.not_lt.2 e below
      · exact Bool.false_ne_true (incomplete.symm.trans e)
      · exact Bool.false_ne_true (no_wait.symm.trans e)
  · exact leavesWorks_of_works (fun _ => Works.lastByteSent l) rfl (lastByteSent_eq frame state line complete)
  · exact leavesWorks_of_works (fun _ => Works.underflow l) rfl (underflow_sent frame state line empty complete)
  · exact leavesWorks_of_works (fun _ => Works.underflow l) rfl (underflow_goesOn frame state line more)
  · refine ⟨_, leavesWorks_of_works (fun _ => Works.underflow l) rfl
      (underflow_breaks frame state line empty incomplete), ?_⟩
    by_cases loaded : ∃ q, w.panels[f.panel] = some q ∧ q.state = .loaded
    · obtain ⟨q, defined, loads⟩ := loaded
      rw [reportAbandoned_loaded (w := w.setLink l _) defined loads, restLanes_eq]
      refine ⟨rfl, rfl, rfl, fun r hr _ => ?_, fun other => absurd loads (other q defined)⟩
      cases defined.symm.trans hr
      exact ⟨⟨_, takesBack_workOf w f.panel q.wake, rfl⟩, fun n => ofFn_getFin _ n⟩
    · have other : ∀ q, w.panels[f.panel] = some q → q.state ≠ .loaded := fun q defined loads => loaded ⟨q, defined, loads⟩
      rw [reportAbandoned_other (w := w.setLink l _) other]
      exact ⟨rfl, rfl, rfl, fun q defined loads => absurd loads (other q defined), fun _ => ⟨rfl, rfl⟩⟩
  · exact ⟨_, leavesWorks_of_works (fun _ => Works.breakEnd l) rfl (breakEnd_idle line), toIdle_returns l w⟩
  · exact leavesWorks_of_works (fun _ => Works.breakEnd l) rfl (breakEnd_disabled line)
  · exact ⟨decide_eq_true_iff, ltxAt_released, ltxAt_sending, fun b => ltxAt_break⟩

end Sys2Proof.Machine
end

section
/-! What LRX brings, character by character, and the whole reply that a quiet line brings (R158, R165, R168, R193). -/

namespace Sys2Proof.Machine

/-! ## The reply in assembly (R193) -/

theorem setRx_setRx (l : LinkId) (a b : List Byte) (w : Works) : (w.setRx l a).setRx l b = w.setRx l b := by
  simp only [Works.setRx, Works.setLink, Vector.set_set, set_getFin_self]

theorem setRx_self {l : LinkId} {w : Works} {rx : List Byte} (h : (w.links[l]).rx = rx) : w.setRx l rx = w := by
  rw [← h, Works.setRx, Works.setLink, set_self]

section
variable {b : Board} {l : LinkId} {d : Delivery} (line : (d.works.links[l]).line = .released)
  (enabled : (d.works.links[l]).state ≠ .disabled)
include line enabled

/-- A character heard with a low stop bit discards what was received. -/
theorem receiveChar_lowStop {x : RxChar} (stop : x.stopHigh = false) :
    receiveChar b l d x = d.mapWorks (Works.setRx l []) := by
  have hears : ¬ ((d.works.links[l]).line ≠ .released ∨ (d.works.links[l]).state = .disabled) :=
    not_or.2 ⟨not_not.2 line, enabled⟩
  simp only [receiveChar, if_neg hears, assemble, stop, Bool.not_false, if_true]
  rfl

/-- A character heard whole joins the reply in assembly: discarded, judged or awaiting more. -/
theorem receiveChar_heard {x : RxChar} (stop : x.stopHigh = true) : receiveChar b l d x =
    let reply := (if x.gapBefore then [] else (d.works.links[l]).rx) ++ [x.byte]
    if (replyLength (reply.headD 0)).isNone || replyBad reply then d.mapWorks (Works.setRx l [])
    else if replyLength (reply.headD 0) = some reply.length then judgeReply b l reply (d.mapWorks (Works.setRx l []))
    else d.mapWorks (Works.setRx l reply) := by
  have hears : ¬ ((d.works.links[l]).line ≠ .released ∨ (d.works.links[l]).state = .disabled) :=
    not_or.2 ⟨not_not.2 line, enabled⟩
  simp only [receiveChar, if_neg hears, assemble_eq _ x stop]
  generalize (if x.gapBefore = true then [] else (d.works.links[l]).rx) = part
  have head (r : List Byte) : ((r ++ [x.byte]).head?.bind replyLength) = replyLength ((r ++ [x.byte]).headD 0) := by
    cases r <;> rfl
  split
  · rfl
  · simp only [head]

end

/-! ## A whole reply on a quiet line -/

/-- The bytes of a reply within their ranges, whatever part of it has arrived (R193). -/
theorem replyBad_take {kind drop x y : Byte} (rest : List Byte) (dropFits : drop.toNat ≤ 7)
    (classFits : kind = 0xC2 → x.toNat ≤ 2) (reasonFits : kind = 0xC1 → y ≠ 0 ∧ y.toNat ≤ 3) :
    ∀ n, replyBad ((kind :: drop :: x :: y :: rest).take n) = false
  | 0 => rfl
  | 1 => rfl
  | 2 => by simpa [replyBad] using dropFits
  | 3 => by simpa [replyBad] using classFits
  | 4 => by
    simp only [replyBad, List.take_succ_cons, List.take_zero, decide_eq_false_iff_not, not_and, not_or, not_lt]
    exact reasonFits
  | n + 5 => by
    cases rest with
    | nil =>
      simp only [replyBad, List.take_succ_cons, List.take_nil, decide_eq_false_iff_not, not_and, not_or, not_lt]
      exact reasonFits
    | cons z zs => rfl

section
variable {b : Board} {l : LinkId} {d : Delivery} (line : (d.works.links[l]).line = .released)
  (enabled : (d.works.links[l]).state ≠ .disabled) (quiet : (d.works.links[l]).rx = []) {reply : List Byte}
  (size : replyLength (reply.headD 0) = some reply.length) (fits : ∀ n, replyBad (reply.take n) = false)
include line enabled quiet size fits

/-- A clean character after the part `n` of a reply. -/
theorem receiveChar_next {n : Nat} (more : n < reply.length) :
    receiveChar b l (d.mapWorks (Works.setRx l (reply.take n))) ⟨reply[n], true, false⟩ =
      if n + 1 = reply.length then judgeReply b l reply d else d.mapWorks (Works.setRx l (reply.take (n + 1))) := by
  have heard := receiveChar_heard (b := b) (l := l) (d := d.mapWorks (Works.setRx l (reply.take n)))
    (x := ⟨reply[n], true, false⟩) (by simp only [Delivery.mapWorks_works, Works.setRx_links, set_getFin_self, line])
    (by simpa only [Delivery.mapWorks_works, Works.setRx_links, set_getFin_self] using enabled) rfl
  have part : ((d.mapWorks (Works.setRx l (reply.take n))).works.links[l]).rx = reply.take n := by
    simp only [Delivery.mapWorks_works, Works.setRx_links, set_getFin_self]
  have written (rx : List Byte) : (d.mapWorks (Works.setRx l (reply.take n))).mapWorks (Works.setRx l rx) =
      d.mapWorks (Works.setRx l rx) := congrArg (fun w => ({ d with works := w } : Delivery)) (setRx_setRx ..)
  have emptied : d.mapWorks (Works.setRx l []) = d :=
    congrArg (fun w => ({ d with works := w } : Delivery)) (setRx_self quiet)
  have head : (reply.take (n + 1)).headD 0 = reply.headD 0 := by
    cases reply <;> rfl
  have length : (reply.take (n + 1)).length = n + 1 := List.length_take_of_le more
  simp only [Bool.false_eq_true, if_false, part, written, emptied, ← List.take_succ_eq_append_getElem more, head, size,
    fits, Option.isNone_some, Bool.or_self, Option.some.injEq, length] at heard
  rw [heard]
  by_cases last : n + 1 = reply.length
  · rw [if_pos last, if_pos last.symm, last, List.take_length]
  · rw [if_neg last, if_neg (Ne.symm last)]

theorem receive_part : ∀ n, n < reply.length →
    (cleanRx (reply.take n)).foldl (receiveChar b l) d = d.mapWorks (Works.setRx l (reply.take n))
  | 0, _ => (congrArg (fun w => ({ d with works := w } : Delivery)) (setRx_self quiet)).symm
  | n + 1, more => by
    have before := receive_part n (by omega)
    have step := receiveChar_next (b := b) line enabled quiet size fits (Nat.lt_of_succ_lt more)
    rw [if_neg (by omega)] at step
    rw [cleanRx] at before
    rw [← step, List.take_succ_eq_append_getElem (by omega), cleanRx, List.map_append, List.foldl_append, before]
    rfl

/-- A reply that a quiet line brings whole is judged as its last byte arrives. -/
theorem receive_reply (c : Content) : receive l (cleanRx reply) c d = judgeReply c.board l reply d := by
  have some_byte : reply.length ≠ 0 := by
    cases reply with
    | nil => simp [replyLength] at size
    | cons => simp
  obtain ⟨n, last⟩ := Nat.exists_eq_succ_of_ne_zero some_byte
  have before := receive_part (b := c.board) line enabled quiet size fits n (by omega)
  have step := receiveChar_next (b := c.board) line enabled quiet size fits (n := n) (by omega)
  rw [if_pos last.symm] at step
  have whole : reply = reply.take n ++ [reply[n]] := by
    rw [← List.take_succ_eq_append_getElem, ← Nat.succ_eq_add_one, ← last, List.take_length]
  rw [cleanRx] at before
  rw [receive, cleanRx, whole, List.map_append, List.foldl_append, before]
  rw [← whole]
  exact step

end

/-! ## The three replies (section 13.2) -/

theorem replyChecked_withCheck (message : List Byte) : replyChecked (withCheck message) = true := by
  simp [replyChecked, withCheck, digestBytes]

/-- The two bytes of a digest spell it. -/
theorem leValue_digest (d : Digest) : BitVec.ofNat 16 (leValue [d.setWidth 8, (d >>> 8).setWidth 8]) = d := by
  apply BitVec.eq_of_toNat_eq
  have small := d.isLt
  simp only [leValue, BitVec.toNat_ofNat, BitVec.toNat_setWidth, BitVec.toNat_ushiftRight, Nat.shiftRight_eq_div_pow]
  omega

theorem leValue_b2 {v : Nat} (h : v < 65536) : leValue (b2 v) = v := by
  simp only [b2, leBytes, leValue, BitVec.toNat_ofNat]
  omega

theorem drop_toNat (x : Drop) : (BitVec.ofNat 8 x.val).toNat = x.val := by
  rw [BitVec.toNat_ofNat]
  omega

theorem drop_byte_inj {x y : Drop} (h : BitVec.ofNat 8 x.val = BitVec.ofNat 8 y.val) : x = y :=
  Fin.ext ((drop_toNat x).symm.trans ((congrArg BitVec.toNat h).trans (drop_toNat y)))

section
variable {l : LinkId} {c : Content} {d : Delivery} (line : (d.works.links[l]).line = .released)
  (enabled : (d.works.links[l]).state ≠ .disabled) (quiet : (d.works.links[l]).rx = []) (x : Drop)
include line enabled quiet

theorem receive_ack (number : Byte) (returned : Digest) :
    receive l (cleanRx (withCheck [0xC0, BitVec.ofNat 8 x.val, number, returned.setWidth 8, (returned >>> 8).setWidth 8]))
      c d = judgeAck c.board l (BitVec.ofNat 8 x.val) number returned d := by
  rw [receive_reply line enabled quiet rfl]
  · simp only [judgeReply, replyChecked_withCheck, Bool.not_true, Bool.false_eq_true, if_false]
    exact congrArg (fun r => judgeAck c.board l _ number r d) (leValue_digest returned)
  · refine replyBad_take _ ?_ (fun e => by cases e) (fun e => by cases e)
    rw [drop_toNat]
    omega

theorem receive_nak (number : Byte) {reason : Byte} (known : reason = 1 ∨ reason = 2 ∨ reason = 3) :
    receive l (cleanRx (withCheck [0xC1, BitVec.ofNat 8 x.val, number, reason])) c d =
      judgeNak c.board l (BitVec.ofNat 8 x.val) number reason d := by
  rw [receive_reply line enabled quiet rfl]
  · simp only [judgeReply, replyChecked_withCheck, Bool.not_true, Bool.false_eq_true, if_false]
    rfl
  · refine replyBad_take _ ?_ (fun e => by cases e) (fun _ => ?_)
    · rw [drop_toNat]
      omega
    · rcases known with rfl | rfl | rfl <;> decide

theorem receive_ident {cls : Byte} {width height : Nat} (classFits : cls.toNat ≤ 2) (widthFits : width < 65536)
    (heightFits : height < 256) :
    receive l (cleanRx (withCheck ([0xC2, BitVec.ofNat 8 x.val, cls] ++ b2 width ++ b1 height))) c d =
      judgeIdent c.board l (BitVec.ofNat 8 x.val) cls width height d := by
  rw [receive_reply line enabled quiet rfl]
  · simp only [judgeReply, replyChecked_withCheck, Bool.not_true, Bool.false_eq_true, if_false]
    have high : (BitVec.ofNat 8 height).toNat = height := by rw [BitVec.toNat_ofNat]; omega
    change judgeIdent c.board l _ cls (leValue (b2 width)) (BitVec.ofNat 8 height).toNat d = _
    rw [leValue_b2 widthFits, high]
  · refine replyBad_take _ ?_ (fun _ => classFits) (fun e => by cases e)
    rw [drop_toNat]
    omega

end

end Sys2Proof.Machine
end

section
/-! Probes and SHOW: PROBE_DUE, PROBE_SENT, IDENT, PROBE_TIMEOUT and SHOW_END (R94, R167 to R169). -/

namespace Sys2Proof.Machine

theorem setLink_setLink (l : LinkId) (j k : Link) (w : Works) : (w.setLink l j).setLink l k = w.setLink l k := by
  simp only [Works.setLink, Vector.set_set]

theorem setLink_same (l : LinkId) (k : Link) (w : Works) : (w.setLink l k).links[l] = k := set_getFin_self _ _ _

/-- An event that leaves the content as it is. -/
theorem leaves_of_event {i : Instr} {s : State} {d : Delivery} (f : Content → Delivery → Delivery)
    (e : exec i s = event f s) (h : f s.content s.delivery = d) : Leaves (exec i s) s s.content d := by
  rw [e, ← h]
  exact event_leaves f s

/-! ## The probe that is due (R167) -/

/-- The first number of a table at which something is found. -/
theorem findSome_finRange {α : Type} {n : Nat} {f : Fin n → Option α} {a : α}
    (h : (List.finRange n).findSome? f = some a) : ∃ i, f i = some a ∧ ∀ j < i, f j = none := by
  obtain ⟨before, i, after, split, found, none_before⟩ := List.findSome?_eq_some_iff.1 h
  have sorted := List.pairwise_lt_finRange n
  rw [split, List.pairwise_append] at sorted
  obtain ⟨-, later, -⟩ := sorted
  refine ⟨i, found, fun j below => none_before j ?_⟩
  have mem := List.mem_finRange j
  rw [split, List.mem_append, List.mem_cons] at mem
  rcases mem with mem | rfl | mem
  · exact mem
  · exact absurd below (lt_irrefl _)
  · exact absurd below (lt_asymm ((List.pairwise_cons.1 later).1 j mem))

/-- The panel is on the link, OFFLINE, and its probe due is reached. -/
def ProbeWaits (w : Works) (l : LinkId) (m : PanelId) (x : Panel) : Prop :=
  w.panels[m] = some x ∧ x.link = l ∧ x.state = .offline ∧ ∃ u, x.probeDue = some u ∧ u ≤ w.now

theorem probeIsDue_iff (now : Nat) (x : Panel) :
    x.probeIsDue now = true ↔ x.state = .offline ∧ ∃ u, x.probeDue = some u ∧ u ≤ now := by
  unfold Panel.probeIsDue
  cases x.probeDue <;> simp

theorem panelAt_some {w : Works} {l : LinkId} {drop : Drop} {m : PanelId} {x : Panel}
    (h : w.panelAt l drop = some (m, x)) : w.panels[m] = some x ∧ x.link = l ∧ x.drop = drop := by
  have place := List.find?_some h
  exact ⟨(mem_panelList w m x).1 (List.mem_of_find?_eq_some h), of_decide_eq_true place⟩

/-- No location holds two panels, so the panel at a drop is the one of that location (R79). -/
theorem panelAt_of_defined {w : Works} (ok : panelsOk w) {m : PanelId} {x : Panel} (defined : w.panels[m] = some x) :
    w.panelAt x.link x.drop = some (m, x) := by
  obtain ⟨apart, -⟩ := ok
  cases at_drop : w.panelAt x.link x.drop with
  | none => exact absurd (by simp) (List.find?_eq_none.1 at_drop (m, x) ((mem_panelList w m x).2 defined))
  | some y =>
    obtain ⟨m', x'⟩ := y
    obtain ⟨defined', link, drop⟩ := panelAt_some at_drop
    obtain rfl := apart m' m x' x defined' defined link drop
    rw [defined] at defined'
    cases defined'
    rfl

/-- The drop at a distance from the probe pointer. -/
def dropAfter (pointer : Drop) (i : Fin 8) : Drop := Fin.ofNat 8 (pointer.val + 1 + i.val)

/-- The distance of a drop from the probe pointer, 0 for the drop after it. -/
def probeRank (pointer drop : Drop) : Nat := (drop.val + 7 - pointer.val) % 8

theorem probeRank_dropAfter (pointer : Drop) (i : Fin 8) : probeRank pointer (dropAfter pointer i) = i.val := by
  simp only [probeRank, dropAfter, Fin.val_ofNat]
  omega

theorem dropAfter_probeRank (pointer drop : Drop) :
    dropAfter pointer ⟨probeRank pointer drop, Nat.mod_lt _ (by decide)⟩ = drop := by
  apply Fin.ext
  simp only [probeRank, dropAfter, Fin.val_ofNat]
  omega

theorem dueProbe_eq (w : Works) (l : LinkId) : w.dueProbe l = (List.finRange 8).findSome? (fun i =>
    (w.panelAt l (dropAfter (w.links[l]).probePointer i)).filter (fun x => x.2.probeIsDue w.now)) := by
  rw [Works.dueProbe, cycleFrom, List.findSome?_map]
  rfl

/-- The probe that is due is that of a waiting panel. -/
theorem dueProbe_waits {w : Works} {l : LinkId} {m : PanelId} {x : Panel} (h : w.dueProbe l = some (m, x)) :
    ProbeWaits w l m x := by
  rw [dueProbe_eq] at h
  obtain ⟨i, found, -⟩ := findSome_finRange h
  obtain ⟨at_drop, due⟩ := Option.filter_eq_some_iff.1 found
  obtain ⟨defined, link, -⟩ := panelAt_some at_drop
  exact ⟨defined, link, (probeIsDue_iff w.now x).1 due⟩

/-- What a waiting panel brings at its distance from the probe pointer. -/
theorem waiting_found {w : Works} (ok : panelsOk w) {l : LinkId} {m : PanelId} {x : Panel} (h : ProbeWaits w l m x) :
    (w.panelAt l (dropAfter (w.links[l]).probePointer
      ⟨probeRank (w.links[l]).probePointer x.drop, Nat.mod_lt _ (by decide)⟩)).filter (fun x => x.2.probeIsDue w.now) =
      some (m, x) := by
  obtain ⟨defined, rfl, due⟩ := h
  rw [dropAfter_probeRank, panelAt_of_defined ok defined]
  exact Option.filter_eq_some_iff.2 ⟨rfl, (probeIsDue_iff w.now x).2 due⟩

/-- Of the waiting panels the one next after the probe pointer is probed (R167). -/
theorem dueProbe_first {w : Works} (ok : panelsOk w) {l : LinkId} {m : PanelId} {x : Panel}
    (h : w.dueProbe l = some (m, x)) {m' : PanelId} {x' : Panel} (waits : ProbeWaits w l m' x') :
    probeRank (w.links[l]).probePointer x.drop ≤ probeRank (w.links[l]).probePointer x'.drop := by
  rw [dueProbe_eq] at h
  obtain ⟨i, found, earlier⟩ := findSome_finRange h
  obtain ⟨at_drop, -⟩ := Option.filter_eq_some_iff.1 found
  obtain ⟨-, -, drop⟩ := panelAt_some at_drop
  rw [drop, probeRank_dropAfter]
  refine Nat.not_lt.1 fun below => ?_
  cases (waiting_found ok waits).symm.trans (earlier ⟨_, Nat.mod_lt _ (by decide)⟩ below)

theorem dueProbe_exists {w : Works} (ok : panelsOk w) {l : LinkId} {m : PanelId} {x : Panel} (waits : ProbeWaits w l m x) :
    ∃ y, w.dueProbe l = some y := by
  refine Option.ne_none_iff_exists'.1 fun none_due => ?_
  rw [dueProbe_eq] at none_due
  cases (waiting_found ok waits).symm.trans (List.findSome?_eq_none_iff.1 none_due _ (List.mem_finRange _))

/-- What is due on a link depends on the panels, the moment and the link's probe pointer alone. -/
theorem dueProbe_congr {v w : Works} {l : LinkId} (panels : v.panels = w.panels) (now : v.now = w.now)
    (pointer : (v.links[l]).probePointer = (w.links[l]).probePointer) : v.dueProbe l = w.dueProbe l := by
  simp only [Works.dueProbe, Works.panelAt, Works.panelList, panels, now, pointer]

theorem dueProbe_setLink {w : Works} {l : LinkId} {k : Link} (pointer : k.probePointer = (w.links[l]).probePointer) :
    (w.setLink l k).dueProbe l = w.dueProbe l := dueProbe_congr rfl rfl (by rw [setLink_same, pointer])

theorem beginProbe_setLink (l : LinkId) (p : PanelId) (q : Panel) (k : Link) (w : Works) : (w.setLink l k).beginProbe l p q =
    (w.setPanel p { q with probeDue := some (w.now + 5000), probeMark := true }).setLink l (k.probing p q) := by
  rw [Works.beginProbe, setLink_same]
  exact setLink_setLink l k _ (w.setPanel p { q with probeDue := some (w.now + 5000), probeMark := true })

theorem beginDueProbe_none {w : Works} {l : LinkId} (h : w.dueProbe l = none) : w.beginDueProbe l = w := by
  simp only [Works.beginDueProbe, h]

theorem beginDueProbe_some {w : Works} {l : LinkId} {x : PanelId × Panel} (h : w.dueProbe l = some x) :
    w.beginDueProbe l = w.beginProbe l x.1 x.2 := by
  simp only [Works.beginDueProbe, h]

theorem probeFallsDue_eq {p : PanelId} {q : Panel} {t : Nat} {d : Delivery} (defined : d.works.panels[p] = some q)
    (due : q.probeDue = some t) (offline : q.state = .offline) : probeFallsDue p d =
      { d with works := if (d.works.links[q.link]).state = .idle ∧ (d.works.links[q.link]).line = .released then
          ({ d.works with now := max d.works.now t } : Works).beginDueProbe q.link
        else { d.works with now := max d.works.now t } } := by
  simp only [probeFallsDue, defined, due, offline, if_true]
  rfl

/-! ## A line that becomes free (R167, R169) -/

section
variable {w : Works} {l : LinkId} (line : (w.links[l]).line = .released)
include line

theorem lineFree_show (pending : (w.links[l]).pendingShow ≠ [])
    (state : (w.links[l]).state = .idle ∨ (w.links[l]).state = .reserved) :
    w.lineFree l = w.setLink l (w.links[l]).showing := by
  have shows : ((w.links[l]).mayShow && !(w.links[l]).pendingShow.isEmpty) = true := by
    simpa only [Link.mayShow, Bool.and_eq_true, decide_eq_true_eq, Bool.not_eq_true', List.isEmpty_eq_false_iff] using
      ⟨state, pending⟩
  simp only [Works.lineFree, line, shows, ne_eq, not_true_eq_false, if_false, if_true]

theorem lineFree_idle (pending : (w.links[l]).pendingShow = []) (state : (w.links[l]).state = .idle) :
    w.lineFree l = w.beginDueProbe l := by
  simp only [Works.lineFree, line, pending, state, List.isEmpty_nil, Bool.not_true, Bool.and_false, Bool.false_eq_true,
    ne_eq, not_true_eq_false, if_false, if_true]

theorem lineFree_reserved (pending : (w.links[l]).pendingShow = []) (state : (w.links[l]).state = .reserved) :
    w.lineFree l = w := by
  simp only [Works.lineFree, line, pending, state, List.isEmpty_nil, Bool.not_true, Bool.and_false, Bool.false_eq_true,
    ne_eq, not_true_eq_false, if_false, reduceCtorEq]

end

section
variable {w : Works} {l : LinkId} (line : (w.links[l]).line = .show)
include line

theorem showEnd_eq : w.showEnd l = (w.setLink l { w.links[l] with line := .released, rx := [] }).lineFree l := by
  simp only [Works.showEnd, line, if_true]

theorem showEnd_shows (pending : (w.links[l]).pendingShow ≠ [])
    (state : (w.links[l]).state = .idle ∨ (w.links[l]).state = .reserved) : w.showEnd l = w.setLink l { w.links[l] with
      sent := showMessage (w.links[l]).pendingShow, pendingShow := [], rx := [] } := by
  rw [showEnd_eq line, lineFree_show (by rw [setLink_same]) (by rwa [setLink_same]) (by rwa [setLink_same]),
    setLink_setLink, setLink_same, Link.showing, ← line]

theorem showEnd_reserved (pending : (w.links[l]).pendingShow = []) (state : (w.links[l]).state = .reserved) :
    w.showEnd l = w.setLink l { w.links[l] with line := .released, rx := [] } := by
  rw [showEnd_eq line, lineFree_reserved (by rw [setLink_same]) (by rwa [setLink_same]) (by rwa [setLink_same])]

section
variable (pending : (w.links[l]).pendingShow = []) (state : (w.links[l]).state = .idle)
include pending state

theorem showEnd_idle (none_due : w.dueProbe l = none) :
    w.showEnd l = w.setLink l { w.links[l] with line := .released, rx := [] } := by
  rw [showEnd_eq line, lineFree_idle (by rw [setLink_same]) (by rwa [setLink_same]) (by rwa [setLink_same])]
  exact beginDueProbe_none (Eq.trans (dueProbe_setLink rfl) none_due)

theorem showEnd_probes {x : PanelId × Panel} (due : w.dueProbe l = some x) :
    w.showEnd l = (w.setPanel x.1 { x.2 with probeDue := some (w.now + 5000), probeMark := true }).setLink l
      (({ w.links[l] with line := .released, rx := [] } : Link).probing x.1 x.2) := by
  have freed : (w.setLink l { w.links[l] with line := .released, rx := [] }).dueProbe l = some x :=
    Eq.trans (dueProbe_setLink rfl) due
  rw [showEnd_eq line, lineFree_idle (by rw [setLink_same]) (by rwa [setLink_same]) (by rwa [setLink_same]),
    beginDueProbe_some freed, beginProbe_setLink]

end

end

/-! ## The probe's wait and its answer (R94, R168) -/

theorem probeSent_eq {w : Works} {l : LinkId} (state : (w.links[l]).state = .probing) (line : (w.links[l]).line = .probe) :
    w.probeSent l = w.setLink l { w.links[l] with
      line := .released, wait := some (w.now + (w.links[l]).timeout), rx := [] } := by
  simp only [Works.probeSent, state, line, and_self, if_true]

theorem probeTimeout_eq {d : Delivery} {l : LinkId} {t : Nat} (state : (d.works.links[l]).state = .probing)
    (line : (d.works.links[l]).line = .released) (wait : (d.works.links[l]).wait = some t) :
    probeTimeout l d = (d.reach t).mapWorks (Works.toIdle l) := by
  simp only [probeTimeout, state, line, wait, and_self, if_true]

theorem probed_some {k : Link} {x : ProbeRecord} {t : Nat} (state : k.state = .probing) (wait : k.wait = some t)
    (probe : k.probe = some x) : k.probed (BitVec.ofNat 8 x.drop.val) = some x := by
  simp [Link.probed, state, wait, probe]

theorem probed_other {k : Link} {x : ProbeRecord} (probe : k.probe = some x) {y : Drop} (other : y ≠ x.drop) :
    k.probed (BitVec.ofNat 8 y.val) = none := by
  have differ : BitVec.ofNat 8 x.drop.val ≠ BitVec.ofNat 8 y.val := fun e => other (drop_byte_inj e).symm
  simp [Link.probed, probe, differ]

theorem awaits_of_state {k : Link} (state : k.state ≠ .awaitingReply) (drop number : Byte) :
    k.awaits drop number = none := by
  unfold Link.awaits
  split
  · next h => exact absurd h state
  all_goals rfl

theorem takesProbe_iff (l : LinkId) (q : Panel) :
    q.takesProbe l = true ↔ q.state = .offline ∧ q.link = l ∧ q.probeMark = true := by
  simp [Panel.takesProbe, and_assoc]

section
variable {b : Board} {l : LinkId} {p : PanelId} {d : Delivery}

theorem reportOnline_taken {q : Panel} (defined : d.works.panels[p] = some q) (takes : q.takesProbe l = true) :
    reportOnline b l p d = ((d.mapWorks (Works.putPanel p { q with
      ack := none, refreshDeadline := none, fullDemand := true, probeDue := none, probeMark := false, state := .ready
      wake := q.wake.insert .content })).notifyAll (.panelOnline p)).checkConfirmations b := by
  simp only [reportOnline, defined, takes, if_true]
  rfl

theorem reportMismatch_taken {q : Panel} (defined : d.works.panels[p] = some q) (takes : q.takesProbe l = true) :
    reportMismatch l p d = (d.mapWorks (Works.setPanel p { q with probeMark := false })).notifyAll (.panelMismatch p) := by
  simp only [reportMismatch, defined, takes, if_true]

variable (dropped : ∀ q, d.works.panels[p] = some q → q.takesProbe l = false)
include dropped

theorem reportOnline_dropped : reportOnline b l p d = d := by
  unfold reportOnline
  split
  · rfl
  · next q defined => rw [dropped q defined, if_neg Bool.false_ne_true]

theorem reportMismatch_dropped : reportMismatch l p d = d := by
  unfold reportMismatch
  split
  · rfl
  · next q defined => rw [dropped q defined, if_neg Bool.false_ne_true]

end

/-- An IDENT of the probed drop (R168). -/
theorem judgeIdent_probed {b : Board} {l : LinkId} {d : Delivery} {x : ProbeRecord} {drop cls : Byte} {width height : Nat}
    (probed : (d.works.links[l]).probed drop = some x) : judgeIdent b l drop cls width height d =
      (if cls = x.cls.code ∧ width = x.width ∧ height = x.height then reportOnline b l x.panel d
        else reportMismatch l x.panel d).mapWorks (Works.toIdle l) := by
  simp only [judgeIdent, probed, decide_eq_true_eq]

/-! ## Probes and SHOW as a whole -/

/-- Settles O56: the probe that is due by `dueProbe_first`, the answers by `receive_ident` and what a report of the panel
table takes, the line that becomes free by `lineFree`. -/
theorem probesAndShowTakeTheirCourse : Obligations.ProbesAndShowTakeTheirCourse := by
  unfold Obligations.ProbesAndShowTakeTheirCourse
  intro l s w k
  refine ⟨fun p q t defined due offline link => ?_, fun state line => ?_, ?_, ?_, ?_, fun t state line wait => ?_,
    fun line => ⟨fun pending state => ?_, fun state pending => ?_, fun state pending =>
      ⟨fun none_due => ?_, fun x due => ?_⟩⟩⟩
  · intro w1
    subst link
    have falls := probeFallsDue_eq (d := s.delivery) defined due offline
    refine ⟨fun busy => ?_, fun state line ok => ?_⟩
    · rw [if_neg (by rintro ⟨state, line⟩; exact busy.elim (fun h => h state) (fun h => h line))] at falls
      exact leavesWorks_of_event (fun _ d => probeFallsDue p d) rfl falls
    · rw [if_pos ⟨state, line⟩] at falls
      have ok1 : panelsOk w1 := ok
      obtain ⟨⟨m, x⟩, found⟩ := dueProbe_exists (w := w1) ok1 ⟨defined, rfl, offline, t, due, Nat.le_max_right _ _⟩
      obtain ⟨defined', onLink, offline', u, due', reached⟩ := dueProbe_waits found
      refine ⟨m, x, u, defined', onLink, offline', due', reached, fun m' x' u' dx lx sx px rx => ?_, ?_⟩
      · exact dueProbe_first ok1 found ⟨dx, lx, sx, u', px, rx⟩
      · rw [beginDueProbe_some found] at falls
        exact leavesWorks_of_event (fun _ d => probeFallsDue p d) rfl falls
  · exact leavesWorks_of_works (fun _ => Works.probeSent l) rfl (probeSent_eq state line)
  · intro x t q cls width height i state line wait probe quiet classFits widthFits heightFits defined offline link mark
    have enabled : (s.delivery.works.links[l]).state ≠ .disabled := fun e => by cases state.symm.trans e
    have takes : q.takesProbe l = true := (takesProbe_iff l q).2 ⟨offline, link, mark⟩
    have heard := (receive_ident (c := s.content) line enabled quiet x.drop classFits widthFits heightFits).trans
      (judgeIdent_probed (probed_some state wait probe))
    refine ⟨fun same => ?_, fun differ => ?_⟩
    · rw [if_pos same, reportOnline_taken defined takes] at heard
      exact ⟨_, toIdle_returns l _, leaves_of_event (receive l _) rfl heard⟩
    · rw [if_neg differ, reportMismatch_taken defined takes] at heard
      exact ⟨_, toIdle_returns l _, leaves_of_event (receive l _) rfl heard⟩
  · intro x t cls width height i state line wait probe quiet classFits widthFits heightFits others
    have enabled : (s.delivery.works.links[l]).state ≠ .disabled := fun e => by cases state.symm.trans e
    have dropped : ∀ q, s.delivery.works.panels[x.panel] = some q → q.takesProbe l = false := fun q defined => by
      rw [← Bool.not_eq_true, takesProbe_iff]
      rintro ⟨offline, link, mark⟩
      rcases others q defined with e | e | e
      · exact e offline
      · exact e link
      · exact Bool.false_ne_true (e.symm.trans mark)
    have heard := (receive_ident (c := s.content) line enabled quiet x.drop classFits widthFits heightFits).trans
      (judgeIdent_probed (probed_some state wait probe))
    rw [reportOnline_dropped dropped, reportMismatch_dropped dropped, ite_self] at heard
    exact ⟨_, toIdle_returns l w, leavesWorks_of_event (receive l _) rfl heard⟩
  · intro x state line probe quiet
    have enabled : (s.delivery.works.links[l]).state ≠ .disabled := fun e => by cases state.symm.trans e
    have noFrame : (s.delivery.works.links[l]).state ≠ .awaitingReply := fun e => by cases state.symm.trans e
    refine ⟨fun y cls width height other classFits widthFits heightFits => ?_,
      fun y number => ⟨fun d => ?_, fun reason known => ?_⟩⟩
    · refine leavesWorks_of_event (receive l _) rfl ?_
      rw [receive_ident line enabled quiet y classFits widthFits heightFits, judgeIdent, probed_other probe other]
    · refine leavesWorks_of_event (receive l _) rfl ?_
      rw [receive_ack line enabled quiet y, judgeAck, awaits_of_state noFrame]
    · refine leavesWorks_of_event (receive l _) rfl ?_
      rw [receive_nak line enabled quiet y number known, judgeNak, awaits_of_state noFrame]
  · exact ⟨_, toIdle_returns l _, leavesWorks_of_event (fun _ d => probeTimeout l d) rfl (probeTimeout_eq state line wait)⟩
  · exact leavesWorks_of_works (fun _ => Works.showEnd l) rfl (showEnd_shows line pending state)
  · exact leavesWorks_of_works (fun _ => Works.showEnd l) rfl (showEnd_reserved line pending state)
  · exact leavesWorks_of_works (fun _ => Works.showEnd l) rfl (showEnd_idle line pending state none_due)
  · exact leavesWorks_of_works (fun _ => Works.showEnd l) rfl (showEnd_probes line pending state due)

end Sys2Proof.Machine
end

section
/-! Replies and the reply deadline: what concludes a frame, and what is discarded on the way (R89 to R93, R165, R166,
R193). -/

namespace Sys2Proof.Machine

/-! ## What is discarded (R158, R165, R168, R193) -/

theorem receive_deaf {l : LinkId} {d : Delivery} (rx : List RxChar) (c : Content)
    (deaf : (d.works.links[l]).line ≠ .released ∨ (d.works.links[l]).state = .disabled) : receive l rx c d = d := by
  refine foldl_keeps (fun e : Delivery => e = d) _ (fun e x same => ?_) rx d rfl
  subst same
  exact receiveChar_deaf c.board l e x deaf

/-- No frame's reply is awaited, or that of another drop or frame number (R165). -/
theorem awaits_none {k : Link} {drop number : Byte} (h : ¬ (k.state = .awaitingReply ∧ ∃ g n, k.frame = some g ∧
    g.number = some n ∧ [drop, number] = [BitVec.ofNat 8 g.drop.val, n])) : k.awaits drop number = none := by
  by_cases state : k.state = .awaitingReply
  · simp only [Link.awaits, state]
    refine Option.filter_eq_none_iff.2 fun g frame named => h ⟨state, g, number, frame, ?_⟩
    obtain ⟨drops, numbers⟩ := of_decide_eq_true named
    exact ⟨numbers, by rw [drops]⟩
  · exact awaits_of_state state drop number

theorem awaits_some {k : Link} {f : FrameRecord} {number : Byte} (state : k.state = .awaitingReply)
    (frame : k.frame = some f) (numbered : f.number = some number) :
    k.awaits (BitVec.ofNat 8 f.drop.val) number = some f := by
  simp [Link.awaits, state, frame, numbered]

/-- No probe's answer is awaited, or that of another drop (R168). -/
theorem probed_none {k : Link} {drop : Byte} (h : ¬ (k.state = .probing ∧ k.wait ≠ none ∧ ∃ r, k.probe = some r ∧
    [drop] = [BitVec.ofNat 8 r.drop.val])) : k.probed drop = none := by
  unfold Link.probed
  split
  · next waits =>
    obtain ⟨state, wait⟩ := waits
    refine Option.filter_eq_none_iff.2 fun r probe named => h ⟨state, Option.isSome_iff_ne_none.1 wait, r, probe, ?_⟩
    rw [of_decide_eq_true named]
  · rfl

/-- A reply addressed to neither the frame nor the probe of the link is judged to nothing. -/
theorem judgeReply_ignored {b : Board} {l : LinkId} {reply : List Byte} {d : Delivery}
    (noFrame : reply.length ≠ 8 → ∀ drop number, (reply.drop 1).take 2 = [drop, number] →
      (d.works.links[l]).awaits drop number = none)
    (noProbe : reply.length = 8 → ∀ drop, (reply.drop 1).take 1 = [drop] → (d.works.links[l]).probed drop = none) :
    judgeReply b l reply d = d := by
  unfold judgeReply
  split
  · rfl
  · split
    · simp only [judgeAck, noFrame (by simp) _ _ rfl]
    · simp only [judgeNak, noFrame (by simp) _ _ rfl]
    · simp only [judgeIdent, noProbe rfl _ rfl]
    · rfl

theorem judgeReply_unchecked {b : Board} {l : LinkId} {reply : List Byte} {d : Delivery}
    (wrong : reply ≠ withCheck (reply.take (reply.length - 2))) : judgeReply b l reply d = d := by
  simp only [judgeReply, replyChecked, decide_eq_false wrong, Bool.not_false, if_true]

theorem replyLength_known {kind : Byte} (known : kind = 0xC0 ∨ kind = 0xC1 ∨ kind = 0xC2) :
    replyLength kind = some (if kind = 0xC0 then 7 else if kind = 0xC1 then 6 else 8) := by
  rcases known with rfl | rfl | rfl <;> rfl

/-! ## Reports at the panel table (R89 to R93) -/

theorem CauseSet.isEmpty_iff (x : CauseSet) : x.isEmpty = true ↔ x = CauseSet.none := decide_eq_true_iff

/-- PARKED with an empty wake set, READY with any cause (R85). -/
theorem Panel.rest_eq (q : Panel) :
    q.rest = { q with state := if q.wake = CauseSet.none then .parked else .ready } := by
  simp only [Panel.rest, Bool.cond_eq_ite, CauseSet.isEmpty_iff]

theorem awaits_iff (g : Group) (p : PanelId) : g.awaits p = true ↔
    ∃ x, g.swap = some x ∧ p ∈ x.expected ∧ p ∉ x.dropped ∧ ∀ r ∈ x.staged, r.panel ≠ p := by
  unfold Group.awaits
  cases g.swap <;> simp [Swap.awaits, Swap.arrived, and_assoc]

section
variable {b : Board} {p : PanelId} {q : Panel} {d : Delivery} (defined : d.works.panels[p] = some q)
  (sending : q.state = .sending)
include defined sending

/-- FAILED of a SENDING panel: failed seven times it waits, failed once more it is ISOLATED (R91). -/
theorem reportFailed_sending : reportFailed b p d =
    let d1 := (d.mapWorks (Works.putPanel p q.fail)).dropOut b p
    let d2 := d1.mapWorks (Works.putPanel p (if q.failures + 1 < 8 then
      { q.fail.rest with holdoff := some (d.works.now + 100 * (q.failures + 1)) } else { q.fail with state := .isolated }))
    (if q.failures + 1 < 8 then d2 else d2.notifyAll (.panelIsolated p)).checkConfirmations b := by
  have failures : q.fail.failures = q.failures + 1 := rfl
  by_cases few : q.failures + 1 < 8
  · simp only [reportFailed, defined, sending, Panel.afterFailure, failures, few, Nat.not_le.2 few, ne_eq, not_true_eq_false,
      if_false, if_true]
  · simp only [reportFailed, defined, sending, Panel.afterFailure, failures, few, Nat.not_lt.1 few, ne_eq, not_true_eq_false,
      if_false, if_true]

theorem reportRestarted_sending : reportRestarted b p d =
    (d.mapWorks (Works.putPanel p q.restart)).checkConfirmations b := by
  simp only [reportRestarted, defined, sending, ne_eq, not_true_eq_false, if_false]

end

section
variable {b : Board} {f : FrameRecord} {q : Panel} {d : Delivery} (defined : d.works.panels[f.panel] = some q)
  (sending : q.state = .sending)
include defined sending

/-- DELIVERED of a frame that no group takes (R89, R90, R178). -/
theorem reportDelivered_plain
    (untaken : f.staged = false ∨ f.swapEnded = true ∨ awaitingGroup d.groups f.panel = none) :
    reportDelivered b f d = deliverPlain b f.panel q f d := by
  have untakenBy (g : GroupId) : (f.staged && !f.swapEnded) = true → awaitingGroup d.groups f.panel ≠ some g := by
    rcases untaken with e | e | e <;> simp [e]
  simp only [reportDelivered, defined, sending, ne_eq, not_true_eq_false, if_false]

/-- DELIVERED of a staged frame that its group awaits (R90, R175). -/
theorem reportDelivered_staged {g : GroupId} (staged : f.staged = true) (going : f.swapEnded = false)
    (awaited : awaitingGroup d.groups f.panel = some g) : reportDelivered b f d = deliverStaged b g f.panel f d := by
  simp only [reportDelivered, defined, sending, staged, going, awaited, ne_eq, not_true_eq_false, if_false, Bool.not_false,
    Bool.and_self]

end

theorem replyTimeout_eq {l : LinkId} {f : FrameRecord} {t : Nat} {c : Content} {d : Delivery}
    (state : (d.works.links[l]).state = .awaitingReply) (wait : (d.works.links[l]).wait = some t)
    (frame : (d.works.links[l]).frame = some f) :
    replyTimeout l c d = concludeFrame l .timeout f.panel (reportFailed c.board f.panel) (d.reach t) := by
  simp only [replyTimeout, state, wait, frame, if_true]

section
variable {b : Board} {l : LinkId} {d : Delivery} {f : FrameRecord} {drop number : Byte}
  (addressed : (d.works.links[l]).awaits drop number = some f)
include addressed

theorem judgeAck_delivers : judgeAck b l drop number f.expected d =
    concludeFrame l .delivered f.panel (reportDelivered b f) d := by
  simp only [judgeAck, addressed, if_true]

theorem judgeAck_differs {returned : Digest} (differ : returned ≠ f.expected) :
    judgeAck b l drop number returned d = concludeFrame l .digestMismatch f.panel (reportFailed b f.panel) d := by
  simp only [judgeAck, addressed, differ, if_false]

theorem judgeNak_format :
    judgeNak b l drop number 1 d = concludeFrame l .nakFormat f.panel (reportFailed b f.panel) d := by
  simp only [judgeNak, addressed, if_true]

theorem judgeNak_digest :
    judgeNak b l drop number 2 d = concludeFrame l .nakDigest f.panel (reportFailed b f.panel) d := by
  simp only [judgeNak, addressed]
  rfl

theorem judgeNak_restarted :
    judgeNak b l drop number 3 d = concludeFrame l .restarted f.panel (reportRestarted b f.panel) d := by
  simp only [judgeNak, addressed]
  rfl

end

/-- An arrival taken by its group leaves the panel defined, and PARKED or READY (R90, R175). -/
theorem deliverStaged_eq {b : Board} {g : GroupId} {p : PanelId} {f : FrameRecord} {q : Panel} {d : Delivery}
    (defined : (d.arrive b g ⟨p, f.strips, f.expected, f.generation, true, true⟩).works.panels[p] = some q) :
    deliverStaged b g p f d = (d.arrive b g ⟨p, f.strips, f.expected, f.generation, true, true⟩).mapWorks
      (Works.setPanel p q.delivered) := by
  simp only [deliverStaged, defined]

/-- A panel that is defined stays so as a record arrives. -/
theorem arrive_defined {b : Board} {g : GroupId} {r : StagedRecord} {p : PanelId} {q : Panel} {d : Delivery}
    (defined : d.works.panels[p] = some q) : ∃ q', (d.arrive b g r).works.panels[p] = some q' := by
  have placed := place_kept (arrive_table (tableKept_refl d.works) b g r) defined
  obtain ⟨q', defined', -⟩ := Option.map_eq_some_iff.1 placed
  exact ⟨q', defined'⟩

/-- A frame concluded: the outcome stored, then the link returned to IDLE (R165). -/
theorem leaves_of_concluded {l : LinkId} {o : LinkOutcome} {p : PanelId} {i : Instr} {s : State} {d0 d : Delivery}
    {report : Delivery → Delivery} (f : Content → Delivery → Delivery) (e : exec i s = event f s)
    (concluded : f s.content s.delivery = concludeFrame l o p report d0) (reported : report d0 = d) :
    ∃ w', ReturnsToIdle l { d.works with links := d.works.links.set l { d.works.links[l] with lastOutcome := some (o, p) } }
      w' ∧ Leaves (exec i s) s s.content { d with works := w' } := by
  subst reported
  exact ⟨_, toIdle_returns l _, leaves_of_event f e concluded⟩

/-! ## Replies and timeouts as a whole -/

theorem awaitingGroup_none {gs : Vector Group 8} {p : PanelId} (h : ∀ g : GroupId, (gs[g]).awaits p = false) :
    awaitingGroup gs p = none := find_finRange_none _ h

theorem awaitingGroup_some {gs : Vector Group 8} {p : PanelId} {g : GroupId} (h : (gs[g]).awaits p = true)
    (first : ∀ j < g, (gs[j]).awaits p = false) : awaitingGroup gs p = some g := find_finRange _ g h first

/-- Settles O55: what is discarded by `receiveChar_heard`, a whole reply by `receive_ack`, `receive_nak` and
`receive_ident`, what a report makes of a SENDING panel, and the return to IDLE by `toIdle_returns`. -/
theorem repliesAndTimeoutsConcludeTheFrame : Obligations.RepliesAndTimeoutsConcludeTheFrame := by
  unfold Obligations.RepliesAndTimeoutsConcludeTheFrame
  intro l f number q s w k c drop ack nak rested ends failed awaits
  have rests (r : Panel) : r.rest = rested r := Panel.rest_eq r
  have failing {d : Delivery} (defined : d.works.panels[f.panel] = some q) (sending : q.state = .sending) :
      reportFailed c.board f.panel d = failed d := by
    rw [reportFailed_sending defined sending]
    simp only [rests]
    rfl
  have awaited (g : GroupId) : (s.delivery.groups[g]).awaits f.panel = true ↔ ∃ x, awaits g x := awaits_iff _ _
  have unawaited (g : GroupId) (h : ∀ x, ¬ awaits g x) : (s.delivery.groups[g]).awaits f.panel = false :=
    Bool.eq_false_iff.2 fun e => by
      obtain ⟨x, waits⟩ := (awaited g).1 e
      exact h x waits
  refine ⟨fun rx i row => ?_, fun x => ?_, fun state line frame numbered => ⟨fun t wait defined sending => ?_,
    fun quiet defined sending => ?_, fun quiet x m other => ?_,
    fun quiet x cls width height classFits widthFits heightFits => ?_⟩⟩
  · have row_of (e : exec i s = event (receive l rx) s) :
        Leaves (exec i s) s c (rx.foldl (receiveChar c.board l) s.delivery) ∧
          (k.line ≠ .released ∨ k.state = .disabled → Leaves (exec i s) s c s.delivery) :=
      ⟨leaves_of_event _ e rfl, fun deaf => leaves_of_event _ e (receive_deaf rx c deaf)⟩
    simp only [List.mem_cons, List.not_mem_nil, or_false] at row
    rcases row with rfl | rfl | rfl <;> exact row_of rfl
  · intro heard reply kind size outOfRange toFrame toProbe becomes line enabled
    refine ⟨receiveChar_lowStop line enabled, fun stop => ?_⟩
    have hears := receiveChar_heard (b := c.board) line enabled stop
    have ranges : replyBad reply = true ↔ outOfRange := replyBad_iff _ x.byte
    refine ⟨fun bad => ?_, fun known inRange => ?_⟩
    · refine hears.trans (if_pos ?_)
      rw [Bool.or_eq_true]
      exact bad.imp (replyLength_isNone kind).2 ranges.2
    have length : replyLength kind = some size := replyLength_known known
    have good : ¬ ((replyLength kind).isNone || replyBad reply) = true := by
      rw [length, Option.isNone_some, Bool.false_or]
      exact mt ranges.1 inRange
    have goesOn := hears.trans (if_neg good)
    refine ⟨fun more => ?_, fun whole discarded => ?_⟩
    · refine goesOn.trans (if_neg fun e => more ?_)
      exact (Option.some.inj (length.symm.trans e)).symm
    · refine (goesOn.trans (if_pos (length.trans (congrArg some whole.symm)))).trans ?_
      rcases discarded with wrong | ⟨noFrame, noProbe⟩
      · exact judgeReply_unchecked (whole ▸ wrong)
      · have record : (s.delivery.mapWorks (Works.setRx l [])).works.links[l] = { k with rx := [] } := setLink_same ..
        refine judgeReply_ignored (fun short drop number named => ?_) (fun long drop named => ?_) <;> rw [record]
        · refine awaits_none fun ⟨state, g, n, frame, numbered, e⟩ => noFrame ⟨fun ident => short ?_, state, g, n, frame,
            numbered, named.trans e⟩
          rw [whole]
          simp only [size, ident]
          rfl
        · refine probed_none fun ⟨state, wait, r, probe, e⟩ => noProbe ⟨?_, state, wait, r, probe, named.trans e⟩
          rw [whole] at long
          rcases known with e | e | e
          · simp [size, e] at long
          · simp [size, e] at long
          · exact e
  · exact leaves_of_concluded (replyTimeout l) rfl (replyTimeout_eq state wait frame)
      (failing (d := s.delivery.reach t) defined sending)
  · have enabled : (s.delivery.works.links[l]).state ≠ .disabled := fun e => by cases state.symm.trans e
    have addressed : (s.delivery.works.links[l]).awaits drop number = some f := awaits_some state frame numbered
    have acked (returned : Digest) := receive_ack (c := s.content) line enabled quiet f.drop number returned
    have naked (reason : Byte) (known : reason = 1 ∨ reason = 2 ∨ reason = 3) :=
      receive_nak (c := s.content) line enabled quiet f.drop number known
    have delivers := judgeAck_delivers (b := c.board) addressed
    refine ⟨fun untaken => ?_, fun g x staged going waits first => ?_, fun d differ => ?_, ?_, ?_, ?_⟩
    · refine leaves_of_concluded (receive l _) rfl ((acked f.expected).trans delivers) ?_
      have nobody : f.staged = false ∨ f.swapEnded = true ∨ awaitingGroup s.delivery.groups f.panel = none :=
        untaken.imp_right (Or.imp_right fun none_awaits => awaitingGroup_none fun g => unawaited g (none_awaits g))
      rw [reportDelivered_plain defined sending nobody, deliverPlain, Panel.delivered, acknowledge_eq, rests]
      rfl
    · have group : awaitingGroup s.delivery.groups f.panel = some g :=
        awaitingGroup_some ((awaited g).2 ⟨x, waits⟩) (fun j below => unawaited j (first j below))
      obtain ⟨armed, -⟩ := waits
      intro d
      have arrives : s.delivery.arrive c.board g ⟨f.panel, f.strips, f.expected, f.generation, true, true⟩ = d :=
        arrive_eq c.board s.delivery g x _ armed
      obtain ⟨q', defined'⟩ := arrive_defined (b := c.board) (g := g)
        (r := ⟨f.panel, f.strips, f.expected, f.generation, true, true⟩) defined
      have reported := (reportDelivered_staged (b := c.board) defined sending staged going group).trans
        (deliverStaged_eq defined')
      rw [arrives] at defined' reported
      rw [Panel.delivered, rests] at reported
      exact ⟨q', defined', leaves_of_concluded (receive l _) rfl ((acked f.expected).trans delivers) reported⟩
    · exact leaves_of_concluded (receive l _) rfl ((acked d).trans (judgeAck_differs addressed differ))
        (failing defined sending)
    · exact leaves_of_concluded (receive l _) rfl ((naked 1 (.inl rfl)).trans (judgeNak_format addressed))
        (failing defined sending)
    · exact leaves_of_concluded (receive l _) rfl ((naked 2 (.inr (.inl rfl))).trans (judgeNak_digest addressed))
        (failing defined sending)
    · exact leaves_of_concluded (receive l _) rfl ((naked 3 (.inr (.inr rfl))).trans (judgeNak_restarted addressed))
        (reportRestarted_sending defined sending)
  · have enabled : (s.delivery.works.links[l]).state ≠ .disabled := fun e => by cases state.symm.trans e
    have unaddressed : (s.delivery.works.links[l]).awaits (BitVec.ofNat 8 x.val) m = none :=
      awaits_none fun ⟨_, g, n, frame', numbered', e⟩ => by
        cases frame.symm.trans frame'
        cases numbered.symm.trans numbered'
        simp only [List.cons.injEq, and_true] at e
        exact other.elim (fun h => h e.1) (fun h => h e.2)
    refine ⟨fun d => leaves_of_event (receive l _) rfl ?_, fun reason known => leaves_of_event (receive l _) rfl ?_⟩
    · rw [receive_ack line enabled quiet x, judgeAck, unaddressed]
    · rw [receive_nak line enabled quiet x m known, judgeNak, unaddressed]
  · have enabled : (s.delivery.works.links[l]).state ≠ .disabled := fun e => by cases state.symm.trans e
    have noProbe : (s.delivery.works.links[l]).probed (BitVec.ofNat 8 x.val) = none :=
      probed_none fun ⟨probing, _⟩ => by cases state.symm.trans probing
    refine leaves_of_event (receive l _) rfl ?_
    rw [receive_ident line enabled quiet x classFits widthFits heightFits, judgeIdent, noProbe]

end Sys2Proof.Machine
end

section
/-! A lane resumes as its link sends, and the end of coding (R87, R110 to R112, R153 to R155). -/

namespace Sys2Proof.Machine

/-! ## Writing into the FIFO (R110) -/

/-- A lane after it has written into a FIFO that had room for some bytes. -/
def Lane.wrote (room decided strips : Nat) (k : Lane) : Lane := { k with
  nextStrip := if k.unwritten.length ≤ room then nextStripAfter decided strips k.nextStrip else k.nextStrip
  unwritten := k.unwritten.drop room }

theorem nextStrip_wrote (fits : Prop) [Decidable fits] (decided strips n : Nat) :
    (if fits then nextStripAfter decided strips n else n) =
      if fits ∧ n < decided ∧ n + 1 < strips then n + 1 else n := by
  unfold nextStripAfter
  by_cases h : fits <;> simp only [h, if_true, if_false, true_and, false_and]

/-- A lane that holds a context writes what the FIFO has room for. -/
theorem writeLane_eq {w : Works} {n h : LaneId} {x : Context} {f : FrameBuild} (context : (w.lanes[n]).context = some x)
    (holder : w.holder n = h) (frame : (w.lanes[h]).frame = some f) : w.writeLane n =
      let room := 1024 - (w.links[x.link]).fifo.length
      { w with
        links := w.links.set x.link { w.links[x.link] with
          fifo := (w.links[x.link]).fifo ++ (w.lanes[n]).unwritten.take room }
        lanes := w.lanes.set n ((w.lanes[n]).wrote room f.kinds.length x.strips) } := by
  subst holder
  unfold Works.writeLane
  simp only []
  split
  · next none => cases context.symm.trans none
  · next y e =>
    obtain rfl : x = y := Option.some.inj (context.symm.trans e)
    simp only [frame, Option.map_some, Option.getD_some, List.isEmpty_iff, List.drop_eq_nil_iff]
    rfl

theorem holder_single {w : Works} {n : LaneId} (partner : (w.lanes[n]).partner = none) : w.holder n = n := by
  simp only [Works.holder, partner]

theorem holder_paired {w : Works} {n m : LaneId} (partner : (w.lanes[n]).partner = some m) :
    w.holder n = evenLane (pairOf n) := by
  simp only [Works.holder, partner]

theorem pairOf_even (j : Fin 4) : pairOf (evenLane j) = j := by
  apply Fin.ext
  simp only [pairOf, evenLane]
  omega

theorem pairOf_odd (j : Fin 4) : pairOf (oddLane j) = j := by
  apply Fin.ext
  simp only [pairOf, oddLane]
  omega

theorem evenLane_ne_oddLane (j : Fin 4) : evenLane j ≠ oddLane j := fun e => by
  have values := congrArg Fin.val e
  simp only [evenLane, oddLane] at values
  omega

theorem set_set_set {α : Type} {v : Vector α 8} {i j : LaneId} (apart : i ≠ j) (a b c : α) :
    ((v.set i a).set j b).set i c = (v.set i c).set j b := by
  rw [Vector.set_comm _ _ (fun same => apart (Fin.ext same).symm), Vector.set_set]

/-- Lanes in the same states with the same panels serve the same panels. -/
theorem lanesServing_congr {v w : Works} (same : ∀ n : LaneId, sameHold v.lanes[n] w.lanes[n]) (p : PanelId) :
    v.lanesServing p = w.lanesServing p := by
  refine List.filter_congr fun n _ => ?_
  obtain ⟨state, panel⟩ := same n
  rw [Lane.serves, Lane.serves, state, panel]

theorem sameHold_set {ls : Vector Lane 8} {n : LaneId} {k : Lane} (same : sameHold k ls[n]) (m : LaneId) :
    sameHold (ls.set n k)[m] ls[m] := by
  rw [set_getFin]
  split
  · next e => exact e ▸ same
  · exact ⟨rfl, rfl⟩

/-! ## The frame committed as its lane waits for room (R153) -/

/-- A frame as the FIFO is found full or not: a staged candidate is committed late. -/
def FrameBuild.atRoom (full : Bool) (f : FrameBuild) : FrameBuild := { f with
  committed := f.committed || (f.stagedCandidate && !f.committed && full)
  wouldKeep := f.wouldKeep && !(f.stagedCandidate && !f.committed && full) }

theorem atRoom_eq (full : Bool) (f : FrameBuild) : (if full then f.commitFull else f) = f.atRoom full := by
  obtain ⟨_, staged, committed, _, _, wouldKeep, _⟩ := f
  cases full <;> cases staged <;> cases committed <;> simp [FrameBuild.commitFull, FrameBuild.atRoom]

theorem commitWaiting_eq {w : Works} {p : PanelId} {n : LaneId} {ns : List LaneId} {x : Context} {f : FrameBuild}
    (serving : w.lanesServing p = n :: ns) (context : (w.lanes[n]).context = some x) (frame : (w.lanes[n]).frame = some f) :
    w.commitWaiting p = { w with
      lanes := w.lanes.set n { w.lanes[n] with frame := some (f.atRoom (w.waitsForRoom p)) }
      links := w.links.set x.link { w.links[x.link] with
        frame := (w.links[x.link]).frame.map (fun r => { r with
          committed := (f.atRoom (w.waitsForRoom p)).committed }) } } := by
  unfold Works.commitWaiting
  rw [serving]
  simp only []
  split
  · next g y isFrame isContext =>
    obtain rfl : f = g := Option.some.inj (frame.symm.trans isFrame)
    obtain rfl : x = y := Option.some.inj (context.symm.trans isContext)
    rw [atRoom_eq]
    rfl
  · next other => exact absurd context (other f x frame)

/-! ## A lane resumes (R110, R163) -/

theorem sendBytes_streaming {w : Works} {l : LinkId} {r : FrameRecord} (state : (w.links[l]).state = .streaming)
    (line : (w.links[l]).line = .frame) (frame : (w.links[l]).frame = some r) (n : Nat) : w.sendBytes l n =
      (w.setLink l { w.links[l] with
        fifo := (w.links[l]).fifo.drop n, sent := (w.links[l]).sent ++ (w.links[l]).fifo.take n }).resume r.panel := by
  simp only [Works.sendBytes, state, line, frame, and_self, if_true]

theorem fifoRoom_leaves {n : LaneId} {x : Context} {sent : Nat} {s : State} {w : Works}
    (context : (s.delivery.works.lanes[n]).context = some x) (h : s.delivery.works.sendBytes x.link sent = w) :
    LeavesWorks (.fifoRoom n sent) s w := by
  refine leavesWorks_of_event (fun _ d => match d.works.lanes[n].context with
    | none => d
    | some x => d.mapWorks (Works.sendBytes x.link sent)) rfl ?_
  simp only [context, Delivery.mapWorks, h]

theorem drop_waits {α : Type} (r : Nat) (xs : List α) : (!(xs.drop r).isEmpty) = decide (r < xs.length) := by
  rw [Bool.eq_iff_iff]
  simp

theorem writeInOrder_single (w : Works) (n : LaneId) : writeInOrder [n] w = w.writeLane n := by
  unfold writeInOrder
  split <;> rfl

section
variable {w : Works} {x : Context} {f : FrameBuild}

theorem resume_single {n : LaneId} (partner : (w.lanes[n]).partner = none) (context : (w.lanes[n]).context = some x)
    (frame : (w.lanes[n]).frame = some f) (serving : w.lanesServing x.panel = [n]) : w.resume x.panel =
      let k := w.lanes[n]
      let link := w.links[x.link]
      let room := 1024 - link.fifo.length
      let g := f.atRoom (decide (room < k.unwritten.length))
      { w with
        links := w.links.set x.link { link with
          fifo := link.fifo ++ k.unwritten.take room
          frame := link.frame.map (fun r => { r with committed := g.committed }) }
        lanes := w.lanes.set n { k.wrote room f.kinds.length x.strips with frame := some g } } := by
  have written := writeLane_eq context (holder_single partner) frame
  have serves : (w.writeLane n).lanesServing x.panel = [n] := by
    rw [written, ← serving]
    exact lanesServing_congr (fun m => sameHold_set (k := (w.lanes[n]).wrote _ _ _) ⟨rfl, rfl⟩ m) x.panel
  have waits : (w.writeLane n).waitsForRoom x.panel =
      decide (1024 - (w.links[x.link]).fifo.length < (w.lanes[n]).unwritten.length) := by
    rw [Works.waitsForRoom, serves, written, List.any_cons, List.any_nil, Bool.or_false, set_getFin_self, Lane.wrote,
      drop_waits]
  rw [Works.resume, serving, writeInOrder_single, commitWaiting_eq (x := x) (f := f) serves
    (by rw [written, set_getFin_self]; exact context) (by rw [written, set_getFin_self]; exact frame), waits, written]
  simp only [Vector.set_set, set_getFin_self]

variable {e o : LaneId} (apart : e ≠ o) (evenHolder : w.holder e = e) (oddHolder : w.holder o = e)
  (even : (w.lanes[e]).context = some x) (odd : (w.lanes[o]).context = some x) (frame : (w.lanes[e]).frame = some f)

/-- The odd lane of a pair after both have written, in order, into a FIFO with room for some bytes (R111). -/
def Lane.wroteAfter (room decided strips : Nat) (k first : Lane) : Lane := { k with
  nextStrip := if (first.unwritten ++ k.unwritten).length ≤ room then nextStripAfter decided strips k.nextStrip
    else k.nextStrip
  unwritten := k.unwritten.drop (room - first.unwritten.length) }

theorem wroteAfter_emptied {first k : Lane} {room : Nat} (decided strips : Nat) (fits : first.unwritten.length ≤ room) :
    Lane.wroteAfter room decided strips k first = Lane.wrote (room - first.unwritten.length) decided strips k := by
  have both : (first.unwritten ++ k.unwritten).length ≤ room ↔ k.unwritten.length ≤ room - first.unwritten.length := by
    rw [List.length_append]
    omega
  simp only [Lane.wroteAfter, Lane.wrote, both]

theorem wroteAfter_waiting {first k : Lane} {room : Nat} (decided strips : Nat) (full : room < first.unwritten.length) :
    Lane.wroteAfter room decided strips k first = k := by
  have both : ¬ (first.unwritten ++ k.unwritten).length ≤ room := by
    rw [List.length_append]
    omega
  have nothing : room - first.unwritten.length = 0 := by omega
  simp only [Lane.wroteAfter, if_neg both, nothing, List.drop_zero]

include apart evenHolder oddHolder even odd frame

/-- A pair writes: the odd lane what is left of the room once the even lane has written (R111). -/
theorem writePair_eq : writeInOrder [e, o] w =
    let room := 1024 - (w.links[x.link]).fifo.length
    { w with
      links := w.links.set x.link { w.links[x.link] with
        fifo := (w.links[x.link]).fifo ++ ((w.lanes[e]).unwritten ++ (w.lanes[o]).unwritten).take room }
      lanes := (w.lanes.set e ((w.lanes[e]).wrote room f.kinds.length x.strips)).set o
        (Lane.wroteAfter room f.kinds.length x.strips w.lanes[o] w.lanes[e]) } := by
  have written := writeLane_eq even evenHolder frame
  have other : (w.writeLane e).lanes[o] = w.lanes[o] := by rw [written, set_getFin_ne _ _ apart]
  unfold writeInOrder
  by_cases fits : (w.lanes[e]).unwritten.length ≤ 1024 - (w.links[x.link]).fifo.length
  · have empty : ((w.writeLane e).lanes[e]).unwritten.isEmpty = true := by
      rw [written, set_getFin_self, List.isEmpty_iff]
      exact List.drop_eq_nil_of_le fits
    have holder : (w.writeLane e).holder o = e := by
      rw [Works.holder, other]
      exact oddHolder
    have kept : ((w.writeLane e).lanes[e]).frame = some f := by
      rw [written, set_getFin_self]
      exact frame
    rw [if_pos empty, writeInOrder_single, writeLane_eq (other ▸ odd) holder kept, other, written]
    simp only [set_getFin_self, Vector.set_set, wroteAfter_emptied _ _ fits, List.take_append, List.length_append,
      List.length_take, List.append_assoc, Nat.sub_add_eq, Nat.min_eq_right fits]
  · have waits : ((w.writeLane e).lanes[e]).unwritten.isEmpty = false := by
      rw [written, set_getFin_self, List.isEmpty_eq_false_iff]
      exact fun none => fits (List.drop_eq_nil_iff.mp none)
    rw [if_neg (by rw [waits]; exact Bool.false_ne_true), written]
    simp only [wroteAfter_waiting _ _ (Nat.lt_of_not_le fits),
      List.take_append_of_le_length (Nat.le_of_not_le fits)]
    have kept := set_self (w.lanes.set e ((w.lanes[e]).wrote (1024 - (w.links[x.link]).fifo.length) f.kinds.length
      x.strips)) o
    rw [set_getFin_ne _ _ apart] at kept
    rw [kept]

theorem resume_pair (serving : w.lanesServing x.panel = [e, o]) : w.resume x.panel =
    let ke := w.lanes[e]
    let ko := w.lanes[o]
    let link := w.links[x.link]
    let room := 1024 - link.fifo.length
    let g := f.atRoom (decide (room < (ke.unwritten ++ ko.unwritten).length))
    { w with
      links := w.links.set x.link { link with
        fifo := link.fifo ++ (ke.unwritten ++ ko.unwritten).take room
        frame := link.frame.map (fun r => { r with committed := g.committed }) }
      lanes := (w.lanes.set e { ke.wrote room f.kinds.length x.strips with frame := some g }).set o
        (Lane.wroteAfter room f.kinds.length x.strips ko ke) } := by
  have written := writePair_eq apart evenHolder oddHolder even odd frame
  have serves : (writeInOrder [e, o] w).lanesServing x.panel = [e, o] := by
    rw [written, ← serving]
    have second : sameHold (Lane.wroteAfter (1024 - (w.links[x.link]).fifo.length) f.kinds.length x.strips
        w.lanes[o] w.lanes[e])
        ((w.lanes.set e ((w.lanes[e]).wrote (1024 - (w.links[x.link]).fifo.length) f.kinds.length x.strips))[o]) := by
      rw [set_getFin_ne _ _ apart]
      exact ⟨rfl, rfl⟩
    refine lanesServing_congr (fun m => ?_) x.panel
    have toEven := sameHold_set (ls := w.lanes) (n := e)
      (k := (w.lanes[e]).wrote (1024 - (w.links[x.link]).fifo.length) f.kinds.length x.strips) ⟨rfl, rfl⟩ m
    have toOdd := sameHold_set second m
    exact ⟨toOdd.1.trans toEven.1, toOdd.2.trans toEven.2⟩
  have waits : (writeInOrder [e, o] w).waitsForRoom x.panel =
      decide (1024 - (w.links[x.link]).fifo.length < ((w.lanes[e]).unwritten ++ (w.lanes[o]).unwritten).length) := by
    rw [Works.waitsForRoom, serves, written]
    simp only [List.any_cons, List.any_nil, Bool.or_false, set_getFin_self, set_getFin_ne _ _ apart.symm, Lane.wrote,
      Lane.wroteAfter, drop_waits, List.length_append, ← Bool.decide_or, decide_eq_decide]
    omega
  have first : (writeInOrder [e, o] w).lanes[e] = (w.lanes[e]).wrote (1024 - (w.links[x.link]).fifo.length)
      f.kinds.length x.strips := by
    rw [written, set_getFin_ne _ _ apart.symm, set_getFin_self]
  rw [Works.resume, serving, commitWaiting_eq (x := x) (f := f) serves (by rw [first]; exact even)
    (by rw [first]; exact frame), waits, first, written]
  simp only [Vector.set_set, set_getFin_self, set_set_set apart]

end

/-! ## The end of coding (R112, R154, R155) -/

/-- Lanes set one by one, each to a value of its own. -/
theorem foldl_set_eq {α : Type} (g : LaneId → α) (ns : List LaneId) (v : Vector α 8) :
    ns.foldl (fun v m => v.set m (g m)) v = Vector.ofFn (fun n => if n ∈ ns then g n else v[n]) := by
  induction ns generalizing v with
  | nil => exact Vector.ext fun i h => by simp
  | cons m ns ih =>
    refine (ih _).trans (congrArg Vector.ofFn (funext fun n => ?_))
    rw [set_getFin]
    by_cases later : n ∈ ns
    · rw [if_pos later, if_pos (List.mem_cons_of_mem m later)]
    · rw [if_neg later]
      simp only [List.mem_cons, later, or_false, eq_comm (a := n)]
      split
      · next e => rw [e]
      · rfl

theorem restLanes_serving {w : Works} {p : PanelId} {lanes : List LaneId} (serving : w.lanesServing p = lanes) :
    w.restLanes p = { w with lanes := lanes.foldl (fun v (m : LaneId) => v.set m (keptLane w m)) w.lanes } := by
  rw [restLanes_eq, foldl_set_eq, serving]

theorem codingDone_eq {w : Works} {p : PanelId} {f : FrameBuild} {x : Context} (decided : f.kinds.length = x.strips)
    (written : ∀ m ∈ w.lanesServing p, (w.lanes[m]).unwritten = []) : w.codingDone p f x = true := by
  simp only [Works.codingDone, decided, decide_true, Bool.true_and, Bool.not_eq_true', Works.waitsForRoom,
    List.any_eq_false]
  intro m serves
  rw [written m serves]
  simp

theorem endCoding_eq {n h : LaneId} {x : Context} {f : FrameBuild} {q : Panel} {d : Delivery}
    (holder : d.works.holder n = h) (context : (d.works.lanes[h]).context = some x)
    (frame : (d.works.lanes[h]).frame = some f) (defined : d.works.panels[x.panel] = some q)
    (working : (d.works.lanes[n]).state = .working) (done : d.works.codingDone x.panel f x = true)
    (loaded : q.state = .loaded) (c : Content) : endCoding n c d =
      if f.committed then d.mapWorks (Works.reportCoded x.panel q f (d.works.lanes[h]).work)
      else reportNull c.board x.panel q f d := by
  subst holder
  simp only [endCoding, frame, context, defined, working, done, loaded, and_self, if_true]

theorem reportCoded_eq {w : Works} {p : PanelId} {q : Panel} {f : FrameBuild} {l : LinkId} {lanes : List LaneId}
    (serving : w.lanesServing p = lanes) (linked : q.link = l) (committed : f.committed = true) (work : CauseSet) :
    w.reportCoded p q f work = { w with
      panels := w.panels.set p (some { q with state := .sending, inFlight := some work })
      lanes := lanes.foldl (fun v (m : LaneId) => v.set m (keptLane w m)) w.lanes
      links := w.links.set l { w.links[l] with frame := (w.links[l]).frame.map (fun r => { r with
        strips := f.digests
        expected := frameDigest f.digests
        generation := f.generation
        full := f.kinds.all (fun z => decide (z = .coded))
        staged := f.stagedCandidate
        committed := true
        complete := true
        swapEnded := f.swapEnded }) } } := by
  subst linked
  have finished : FrameRecord.finish f = fun r => { r with
      strips := f.digests, expected := frameDigest f.digests, generation := f.generation,
      full := f.kinds.all (fun z => decide (z = .coded)), staged := f.stagedCandidate, committed := true,
      complete := true, swapEnded := f.swapEnded } := by
    funext r
    simp only [FrameRecord.finish, FrameBuild.full, FrameBuild.staged, committed, Bool.true_and]
  rw [← finished]
  exact restLanes_serving (w := (w.setLink q.link _).setPanel p _) serving

theorem takeNull_eq (generation : Nat) (q : Panel) : q.takeNull generation = { q with
    ack := q.ack.map (fun r => { r with generation := generation })
    state := if q.wake = CauseSet.none then .parked else .ready } := Panel.rest_eq _

theorem reportNull_eq {p : PanelId} {q : Panel} {l : LinkId} {lanes : List LaneId} {d : Delivery}
    (serving : d.works.lanesServing p = lanes) (linked : q.link = l) (b : Board) (f : FrameBuild) :
    reportNull b p q f d = arriveNull b p (f.stagedCandidate && !f.swapEnded) ({ d with
      works := (Works.toIdle l { d.works with
        lanes := lanes.foldl (fun v (m : LaneId) => v.set m (keptLane d.works m)) d.works.lanes }).putPanel p { q with
          ack := q.ack.map (fun r : AckRecord => { r with generation := f.generation })
          state := if q.wake = CauseSet.none then .parked else .ready } }.checkConfirmations b) := by
  subst linked
  rw [reportNull, takeNull_eq]
  simp only [Delivery.mapWorks, restLanes_serving serving]

theorem arriveNull_untaken {p : PanelId} {f : FrameBuild} {d : Delivery} (b : Board) (untaken : f.stagedCandidate = false ∨
    f.swapEnded = true ∨ awaitingGroup d.groups p = none) :
    arriveNull b p (f.stagedCandidate && !f.swapEnded) d = d := by
  rcases untaken with e | e | e <;> simp [arriveNull, e]

theorem arriveNull_taken {b : Board} {p : PanelId} {f : FrameBuild} {d : Delivery} {g : GroupId} {q : Panel} {r : AckRecord}
    (staged : f.stagedCandidate = true) (going : f.swapEnded = false) (awaited : awaitingGroup d.groups p = some g)
    (defined : d.works.panels[p] = some q) (ack : q.ack = some r) :
    arriveNull b p (f.stagedCandidate && !f.swapEnded) d =
      d.arrive b g ⟨p, r.strips, r.frame, r.generation, false, false⟩ := by
  simp [arriveNull, staged, going, awaited, defined, ack]

/-- Settles O50: how a lane, or a pair, resumes by `resume_single` and `resume_pair`; what CODED and NULL_FRAME hand over
by `endCoding_eq`. -/
theorem laneResumesAndEndsCoding : Obligations.LaneResumesAndEndsCoding := by
  unfold Obligations.LaneResumesAndEndsCoding
  refine ⟨?_, ?_, ?_⟩
  · intro n x f r sent s w k link fifo room late _ partner context frame serving state line record same
    refine fifoRoom_leaves context ((sendBytes_streaming state line record sent).trans
      ((congrArg (fun p => Works.resume p _) same).trans ?_))
    refine (resume_single (w := w.setLink x.link _) partner context frame serving).trans ?_
    have sending : (w.links[x.link]).frame = some r := record
    simp only [Works.setLink, set_getFin_self, Vector.set_set, sending, Lane.wrote, nextStrip_wrote, Option.map_some]
    rfl
  · intro j n x f r sent s w e o ke ko link fifo room both late next which even odd evenContext oddContext frame serving
      state line record same
    have context : (w.lanes[n]).context = some x := by rcases which with rfl | rfl <;> assumption
    refine fifoRoom_leaves context ((sendBytes_streaming state line record sent).trans
      ((congrArg (fun p => Works.resume p _) same).trans ?_))
    refine (resume_pair (w := w.setLink x.link _) (evenLane_ne_oddLane j) ((holder_paired even).trans ?_)
      ((holder_paired odd).trans ?_) evenContext oddContext frame serving).trans ?_
    · rw [pairOf_even]
    · rw [pairOf_odd]
    · have sending : (w.links[x.link]).frame = some r := record
      simp only [Works.setLink, set_getFin_self, Vector.set_set, sending, Option.map_some]
      rfl
  · intro n h lanes x f q s w link shape serving working context frame written decided defined loaded linked kept
    have holder : w.holder n = h := by
      rcases shape with ⟨_, rfl, partner⟩ | ⟨j, _, rfl, rfl | rfl, even, odd⟩
      · exact holder_single partner
      · rw [holder_paired even, pairOf_even]
      · rw [holder_paired odd, pairOf_odd]
    have done : w.codingDone x.panel f x = true := codingDone_eq decided (serving ▸ written)
    have ends := endCoding_eq (d := s.delivery) holder context frame defined working done loaded s.content
    refine ⟨fun committed => leavesWorks_of_event (endCoding n) rfl ?_, fun uncommitted => ?_⟩
    · rw [ends, if_pos committed, Delivery.mapWorks, reportCoded_eq serving linked committed]
    · refine ⟨_, toIdle_returns x.link _, ?_⟩
      intro q' d
      have null : endCoding n s.content s.delivery =
          arriveNull s.content.board x.panel (f.stagedCandidate && !f.swapEnded) d := by
        rw [ends, uncommitted, if_neg Bool.false_ne_true, reportNull_eq serving linked]
      obtain ⟨groups, works⟩ := checkConfirmations_frame s.content.board
        { s.delivery with works := (Works.toIdle x.link { w with lanes := kept }).putPanel x.panel q' }
      refine ⟨fun untaken => leaves_of_event (endCoding n) rfl (null.trans (arriveNull_untaken _ ?_)),
        fun g r staged going awaited ack => leaves_of_event (endCoding n) rfl (null.trans ?_)⟩
      · exact untaken.imp_right (Or.imp_right fun e => groups ▸ e)
      · have defined : d.works.panels[x.panel] = some q' := by
          rw [works]
          exact set_getFin_self _ _ _
        exact arriveNull_taken (r := { r with generation := f.generation }) staged going (groups ▸ awaited) defined
          (congrArg (Option.map _) ack)

end Sys2Proof.Machine
end

section
/-! What the removal of a panel makes of its link and its lanes (R82, R106, R116, R162, R166). -/

namespace Sys2Proof.Machine

/-! ## A link that lets its frame go -/

/-- A panel record but for its probe fields. -/
def unprobed (x : Option Panel) : Option Panel := x.map (fun q => { q with probeDue := none, probeMark := false })

/-- `v` differs from `w` at most in link `l` and in the probe fields of panels. -/
structure ProbesOnly (l : LinkId) (w v : Works) : Prop where
  lanes : v.lanes = w.lanes
  rotation : v.rotation = w.rotation
  now : v.now = w.now
  links : ∀ m : LinkId, m ≠ l → v.links[m] = w.links[m]
  panels : ∀ m : PanelId, unprobed v.panels[m] = unprobed w.panels[m]

theorem probesOnly_refl (l : LinkId) (w : Works) : ProbesOnly l w w := ⟨rfl, rfl, rfl, fun _ _ => rfl, fun _ => rfl⟩

section
variable {l : LinkId} {w v : Works} (h : ProbesOnly l w v)
include h

theorem probesOnly_setLink (k : Link) : ProbesOnly l w (v.setLink l k) :=
  { h with links := fun m other => (set_getFin_ne _ _ other.symm).trans (h.links m other) }

theorem probesOnly_beginDueProbe : ProbesOnly l w (v.beginDueProbe l) := by
  unfold Works.beginDueProbe
  split
  · exact h
  · next x due =>
    have record : ProbesOnly l w (v.setPanel x.1 { x.2 with probeDue := some (v.now + 5000), probeMark := true }) := by
      refine { h with panels := fun m => Eq.trans ?_ (h.panels m) }
      rw [Works.setPanel, set_getFin]
      split
      · next same =>
        rw [← same, dueProbe_defined due]
        rfl
      · rfl
    exact probesOnly_setLink record _

theorem probesOnly_lineFree : ProbesOnly l w (v.lineFree l) := by
  unfold Works.lineFree
  simp only []
  split
  · exact h
  · split
    · exact probesOnly_setLink h _
    · split
      · exact probesOnly_beginDueProbe h
      · exact h

theorem probesOnly_toIdle : ProbesOnly l w (v.toIdle l) := probesOnly_lineFree (probesOnly_setLink h _)

theorem probesOnly_dropFrame : ProbesOnly l w (v.dropFrame l) := by
  unfold Works.dropFrame
  split
  · exact probesOnly_setLink h _
  · exact probesOnly_toIdle h
  · exact probesOnly_toIdle h
  · exact h
  · exact h
  · exact h

end

/-! ## The link record once its frame is gone -/

/-- A link record after its link let the frame go, or returned to IDLE. -/
structure FrameGone (k k' : Link) : Prop where
  streaming : k.state = .streaming → k.breaking = false →
    k'.state = .streaming ∧ k'.line = .brk false ∧ k'.abandons = min 65535 (k.abandons + 1)
  waiting : k.state = .reserved ∨ k.state = .awaitingReply → k'.fifo = [] ∧ k'.frame = none ∧ k'.wait = none ∧
    k'.abandons = k.abandons ∧ (k'.state = .idle ∨ k'.state = .probing)

theorem returnsToIdle_link {l : LinkId} {w v : Works} (h : ReturnsToIdle l w v) : (v.links[l]).fifo = [] ∧
    (v.links[l]).frame = none ∧ (v.links[l]).wait = none ∧ (v.links[l]).abandons = (w.links[l]).abandons ∧
    ((v.links[l]).state = .idle ∨ (v.links[l]).state = .probing) := by
  obtain ⟨showing, pending, free⟩ := h
  by_cases line : (w.links[l]).line = .show
  · rw [showing line, set_getFin_self]
    exact ⟨rfl, rfl, rfl, rfl, .inl rfl⟩
  · by_cases waits : (w.links[l]).pendingShow = []
    · obtain ⟨undue, due⟩ := free line waits
      cases probe : w.dueProbe l with
      | none =>
        rw [undue probe, set_getFin_self]
        exact ⟨rfl, rfl, rfl, rfl, .inl rfl⟩
      | some x =>
        rw [due x probe, set_getFin_self]
        exact ⟨rfl, rfl, rfl, rfl, .inr rfl⟩
    · rw [pending line waits, set_getFin_self]
      exact ⟨rfl, rfl, rfl, rfl, .inl rfl⟩

theorem letsFrameGo_link {l : LinkId} {w v : Works} (h : LetsFrameGo l w v) : FrameGone w.links[l] v.links[l] := by
  obtain ⟨breaks, -, waits, -⟩ := h
  refine ⟨fun state going => ?_, fun state => returnsToIdle_link (waits state)⟩
  rw [breaks state going, set_getFin_self]
  exact ⟨state, rfl, rfl⟩

/-! ## The works at steps 1 to 3 of PANEL_REMOVE (R82, R116) -/

/-- The works once the frame of a LOADED or SENDING panel is gone. -/
def Works.frameGone (q : Panel) (w : Works) : Works :=
  if q.state = .loaded ∨ q.state = .sending then w.dropFrame q.link else w

theorem frameGone_probesOnly (q : Panel) (w : Works) : ProbesOnly q.link w (w.frameGone q) := by
  unfold Works.frameGone
  split
  · exact probesOnly_dropFrame (probesOnly_refl q.link w)
  · exact probesOnly_refl q.link w

theorem abandonWork_eq (p : PanelId) (q : Panel) (w : Works) : w.abandonWork p q =
    if q.state = .loaded then (w.lanesServing p).foldl Works.freeLane (w.frameGone q) else w.frameGone q := by
  unfold Works.abandonWork Works.frameGone
  cases q.state <;> simp

theorem abandonWork_frame (p : PanelId) (q : Panel) (w : Works) : (w.abandonWork p q).links = (w.frameGone q).links ∧
    (w.abandonWork p q).panels = (w.frameGone q).panels ∧ (w.abandonWork p q).rotation = w.rotation ∧
    (w.abandonWork p q).now = w.now := by
  have gone := frameGone_probesOnly q w
  rw [← gone.rotation, ← gone.now, abandonWork_eq]
  split
  · exact freeLanes_frame _ _
  · exact ⟨rfl, rfl, rfl, rfl⟩

theorem abandonWork_lanes (p : PanelId) (q : Panel) (w : Works) (n : LaneId) : (w.abandonWork p q).lanes[n] =
    if q.state = .loaded ∧ n ∈ w.lanesServing p then vacated w.rotation.claim n else w.lanes[n] := by
  have gone := frameGone_probesOnly q w
  rw [abandonWork_eq]
  by_cases loaded : q.state = .loaded
  · rw [if_pos loaded, freeLanes_lanes, gone.rotation, gone.lanes]
    simp only [loaded, true_and]
  · rw [if_neg loaded, gone.lanes, if_neg fun h => loaded h.1]

/-- A panel's claim ended and its pass count 0 (R106). -/
theorem unclaimed_rotation (w : Works) (p : PanelId) : ((w.endClaimOf p).setPasses p 0).rotation = { w.rotation with
    passes := w.rotation.passes.set p 0, claim := w.rotation.claim.filter (fun x => decide (x.panel ≠ p)) } := by
  rw [Works.setPasses_rotation, endClaimOf_rotation]
  simp only [Works.rotationLeft, claimLeft, decide_not]
  split
  · rfl
  · next x claim =>
    split
    · next own => simp only [of_decide_eq_true own, Vector.set_set]
    · rfl

/-- The works as PANEL_REMOVE leaves them before the panel leaves its group. -/
def Works.removed (p : PanelId) (q : Panel) (w : Works) : Works := (w.abandonWork p q).forgetPanel p

theorem removed_frame (p : PanelId) (q : Panel) (w : Works) : (w.removed p q).links = (w.frameGone q).links ∧
    (w.removed p q).panels = (w.frameGone q).panels ∧ (w.removed p q).now = w.now ∧
    (w.removed p q).rotation = { w.rotation with
      passes := w.rotation.passes.set p 0
      claim := w.rotation.claim.filter (fun x => decide (x.panel ≠ p)) } := by
  obtain ⟨links, panels, rotation, now⟩ := abandonWork_frame p q w
  obtain ⟨links', panels', now'⟩ := endClaimOf_frame ((w.abandonWork p q).dropResident p) p
  refine ⟨links'.trans links, panels'.trans panels, now'.trans now, ?_⟩
  rw [← rotation]
  exact unclaimed_rotation ((w.abandonWork p q).dropResident p) p

theorem removed_lanes (p : PanelId) (q : Panel) (w : Works) (n : LaneId) : (w.removed p q).lanes[n] =
    letGo w.rotation.claim p n (q.state = .loaded ∧ n ∈ w.lanesServing p) w.lanes[n] := by
  obtain ⟨-, -, rotation, -⟩ := abandonWork_frame p q w
  rw [Works.removed, Works.forgetPanel, Works.setPasses_lanes, endClaimOf_lanes, Works.dropResident_rotation, rotation,
    Works.dropResident_lanes, mapTable_getFin, abandonWork_lanes]
  rfl

/-- A panel lets a lane go: vacated where it served, FREE where it was resident or claimed for it, else as it was. -/
theorem letGo_eq (claim : Option Claim) (p : PanelId) (n : LaneId) (served : Prop) [Decidable served] (k : Lane) :
    letGo claim p n served k =
      if served then vacated (claim.filter (fun x => decide (x.panel ≠ p))) n
      else if k.state = .resident ∧ k.panel = some p then Lane.free
      else if k.state = .claimed ∧ claim.any (fun x => decide (x.panel = p)) = true then Lane.free
      else k := by
  by_cases own : served
  · rw [if_pos own, letGo_served served own, letGo_vacated]
    cases claim with
    | none => rfl
    | some x => by_cases e : x.panel = p <;> simp [e, Option.filter_some]
  · rw [if_neg own, letGo, if_neg own]
    by_cases resident : k.state = .resident ∧ k.panel = some p
    · simp [resident, Lane.residentFor, Lane.free]
    · simp only [Lane.residentFor, resident, decide_false, Bool.false_eq_true, if_false]
      exact if_congr and_comm rfl rfl

end Sys2Proof.Machine
end

section
/-! PANEL_REMOVE and PANEL_RESTORE settled (R82, R83, R176, R177). -/

namespace Sys2Proof.Machine

/-! ## What a drop-out and the check that follows can change (R169, R176 to R178) -/

/-- A link record that a request for SHOW may have reached (R169): only the pending SHOW and, if its line was free to send
one, the line have changed. -/
structure ShowReached (k k' : Link) : Prop where
  state : k'.state = k.state
  fifo : k'.fifo = k.fifo
  frame : k'.frame = k.frame
  wait : k'.wait = k.wait
  abandons : k'.abandons = k.abandons
  line : k.state ≠ .idle → k.state ≠ .reserved → k'.line = k.line

theorem showReached_refl (k : Link) : ShowReached k k := ⟨rfl, rfl, rfl, rfl, rfl, fun _ _ => rfl⟩

theorem showAsked_reached {asked : Drop → Prop} {k k' : Link} (h : ShowAsked asked k k') : ShowReached k k' := by
  classical
  obtain ⟨dropped, joins⟩ := h
  by_cases quiet : k.state = .disabled ∨ ∀ x, ¬ asked x
  · rw [dropped quiet]
    exact showReached_refl k
  · obtain ⟨enabled, some_asked⟩ := not_or.1 quiet
    obtain ⟨sent, pending⟩ := joins ((List.finRange 8).filter (fun x => decide (x ∈ k.pendingShow ∨ asked x)))
      (List.Pairwise.filter _ (List.pairwise_lt_finRange 8)) (by simp) enabled (by simpa using some_asked)
    by_cases free : (k.state = .idle ∨ k.state = .reserved) ∧ k.line = .released
    · obtain ⟨state, line⟩ := free
      rw [sent state line]
      exact ⟨rfl, rfl, rfl, rfl, rfl, fun idle reserved => (state.elim idle reserved).elim⟩
    · rw [pending ((not_and_or.1 free).imp_left not_or.1)]
      exact ⟨rfl, rfl, rfl, rfl, rfl, fun _ _ => rfl⟩

/-- `e` differs from `d` at most as the check of a swap may change it. -/
structure SwapChecked (d e : Delivery) : Prop where
  members : ∀ g : GroupId, (e.groups[g]).members = (d.groups[g]).members
  setting : ∀ g : GroupId, (e.groups[g]).setting = (d.groups[g]).setting
  links : ∀ l : LinkId, ShowReached d.works.links[l] e.works.links[l]
  rotation : e.works.rotation = d.works.rotation
  lanes : ∀ n : LaneId, sameHold e.works.lanes[n] d.works.lanes[n]
  panels : ∀ m : PanelId, sameButAck e.works.panels[m] d.works.panels[m]
  notices : ∀ x : PortId, (e.ports[x]).notices = (d.ports[x]).notices

theorem swapChecked_refl (d : Delivery) : SwapChecked d d :=
  ⟨fun _ => rfl, fun _ => rfl, fun _ => showReached_refl _, rfl, fun _ => ⟨rfl, rfl⟩, fun _ => rfl, fun _ => rfl⟩

theorem swapChecked_ended (b : Board) (g : GroupId) (x : Swap) (d : Delivery) (complete : x.isComplete = true)
    (swap : (d.groups[g]).swap = some x) : SwapChecked d ((d.showSwap b x).endSwap g x) := by
  obtain ⟨-, -, panels, lanes, rotation, -⟩ := showSwap_frame b d x
  obtain ⟨-, -, rotation', -⟩ := adopts_frame b x.toShow d
  have group (j : GroupId) : (((d.showSwap b x).endSwap g x).groups[j]).members = (d.groups[j]).members ∧
      (((d.showSwap b x).endSwap g x).groups[j]).setting = (d.groups[j]).setting := by
    rw [Delivery.endSwap_groups, modifyAt_getFin, showSwap_groups]
    split
    · next same => exact same ▸ ⟨rfl, rfl⟩
    · exact ⟨rfl, rfl⟩
  refine ⟨fun j => (group j).1, fun j => (group j).2, fun l => ?_, ?_, fun n => ?_, fun m => ?_,
    fun y => ?_⟩
  · rw [Delivery.endSwap_works, Works.outlive_links]
    exact showAsked_reached (showSwap_links b d x l)
  · rw [Delivery.endSwap_works, Works.outlive_rotation]
    exact rotation.trans rotation'
  · rw [Delivery.endSwap_works, Works.outlive_lanes, mapTable_getFin, lanes]
    exact sameHold_trans ⟨Lane.outlive_state _ _, Lane.outlive_panel _ _⟩ (adopts_hold b x.toShow d n)
  · rw [Delivery.endSwap_works, Works.outlive_panels, panels]
    exact adopts_sameButAck b x.toShow d m
  · have checked := checkSwap_notices b g d y
    rwa [checkSwap_eq b d g x swap, if_pos complete] at checked

theorem swapChecked_checkSwap (b : Board) (g : GroupId) (d : Delivery) : SwapChecked d (d.checkSwap b g) := by
  cases swap : (d.groups[g]).swap with
  | none =>
    simp only [Delivery.checkSwap, swap]
    exact swapChecked_refl d
  | some x =>
    rw [checkSwap_eq b d g x swap]
    split
    · next complete => exact swapChecked_ended b g x d complete swap
    · exact swapChecked_refl d

theorem swapChecked_dropOut (b : Board) (p : PanelId) (d : Delivery) : SwapChecked d (d.dropOut b p) := by
  unfold Delivery.dropOut
  split
  · exact swapChecked_refl d
  · next g _ =>
    let marked := d.mapGroup g (fun r => { r with swap := r.swap.map (Swap.dropMember p) })
    have checked : SwapChecked marked (marked.checkSwap b g) := swapChecked_checkSwap b g marked
    have group (j : GroupId) : (marked.groups[j]).members = (d.groups[j]).members ∧
        (marked.groups[j]).setting = (d.groups[j]).setting := by
      simp only [marked]
      rw [Delivery.mapGroup, modifyAt_getFin]
      split
      · next same => exact same ▸ ⟨rfl, rfl⟩
      · exact ⟨rfl, rfl⟩
    exact { checked with
      members := fun j => (checked.members j).trans (group j).1
      setting := fun j => (checked.setting j).trans (group j).2 }

/-! ## The requests (R82, R83) -/

section
variable {n : PanelId} {c : Content} {d : Delivery}

theorem removeRequest_above {v : Nat} (h : 63 < v) : removeRequest v c d = (c, d, refuse .badValue) := by
  simp only [removeRequest, index?_of_le h]

theorem restoreRequest_above {v : Nat} (h : 63 < v) : restoreRequest v c d = (c, d, refuse .badValue) := by
  simp only [restoreRequest, index?_of_le h]

theorem removeRequest_undefined (h : d.works.panels[n] = none) : removeRequest n.val c d = (c, d, okWith []) := by
  simp only [removeRequest, index?_val, h]

theorem removeRequest_defined {q : Panel} (h : d.works.panels[n] = some q) :
    removeRequest n.val c d = (c, removePanel c.board n q d, okWith []) := by
  simp only [removeRequest, index?_val, h]

theorem restoreRequest_refused (h : ∀ q, d.works.panels[n] = some q → q.state ≠ .isolated) :
    restoreRequest n.val c d = (c, d, refuse .state) := by
  cases defined : d.works.panels[n] with
  | none => simp only [restoreRequest, index?_val, defined]
  | some q => simp only [restoreRequest, index?_val, defined, ne_eq, h q defined, not_false_eq_true, if_true]

theorem restoreRequest_passed {q : Panel} (h : d.works.panels[n] = some q) (isolated : q.state = .isolated) :
    restoreRequest n.val c d = (c, d.mapWorks (Works.setPanel n
      { q with failures := 0, state := .offline, probeDue := d.works.probeAtOnce q.link }), okWith []) := by
  simp only [restoreRequest, index?_val, h, isolated, ne_eq, not_true_eq_false, if_false]

end

/-- The last step of a removal, once the panel has dropped out (R82). -/
def removedFrom (b : Board) (n : PanelId) (left : Delivery) : Delivery :=
  { left with
    groups := mapTable (fun g => { g with members := g.members.filter (fun m => decide (m ≠ n)) }) left.groups
    works := { left.works with panels := left.works.panels.set n none } }.checkConfirmations b

theorem removePanel_eq (b : Board) (n : PanelId) (q : Panel) (d : Delivery) : removePanel b n q d =
    removedFrom b n (({ d with works := d.works.removed n q } : Delivery).dropOut b n) := rfl

theorem removedFrom_frame (b : Board) (n : PanelId) (left : Delivery) :
    (removedFrom b n left).groups =
      mapTable (fun g => { g with members := g.members.filter (fun m => decide (m ≠ n)) }) left.groups ∧
    (removedFrom b n left).works = { left.works with panels := left.works.panels.set n none } ∧
    ∀ x : PortId, ((removedFrom b n left).ports[x]).notices = (left.ports[x]).notices := by
  obtain ⟨groups, works⟩ := checkConfirmations_frame b { left with
    groups := mapTable (fun g => { g with members := g.members.filter (fun m => decide (m ≠ n)) }) left.groups
    works := { left.works with panels := left.works.panels.set n none } }
  exact ⟨groups, works, fun x => checkConfirmations_notices b _ x⟩

theorem sameButAck_unprobed {a b c : Option Panel} (h : sameButAck a b) (probes : unprobed b = unprobed c) :
    sameButAck (unprobed a) (unprobed c) := by
  rw [← probes]
  have erased := congrArg unprobed h
  simp only [unprobed, Option.map_map] at erased
  simp only [sameButAck, unprobed, Option.map_map]
  exact erased

/-! ## The lanes of a removed panel (R116) -/

theorem vacated_holdsNothing (claim : Option Claim) (n : LaneId) :
    (vacated claim n).state ≠ .resident ∧ (vacated claim n).serves = false := by
  rcases vacated_states claim n with e | e <;> rw [e] <;> exact ⟨by decide, rfl⟩

theorem removed_notResident (n : PanelId) (q : Panel) (w : Works) (k : LaneId)
    (resident : ((w.removed n q).lanes[k]).state = .resident) : ((w.removed n q).lanes[k]).panel ≠ some n := by
  rw [removed_lanes, letGo_eq] at resident ⊢
  split at resident
  · exact absurd resident (vacated_holdsNothing _ k).1
  · next unserved =>
    rw [if_neg unserved]
    split at resident
    · cases resident
    · next other =>
      rw [if_neg other]
      split at resident
      · cases resident
      · next unclaimed =>
        rw [if_neg unclaimed]
        exact fun panel => other ⟨resident, panel⟩

theorem removed_notServing (n : PanelId) (q : Panel) (w : Works) (loaded : q.state = .loaded) (k : LaneId)
    (serves : ((w.removed n q).lanes[k]).serves = true) : ((w.removed n q).lanes[k]).panel ≠ some n := by
  rw [removed_lanes, letGo_eq] at serves ⊢
  split at serves
  · exact absurd ((vacated_holdsNothing _ k).2.symm.trans serves) Bool.false_ne_true
  · next unserved =>
    rw [if_neg unserved]
    split at serves
    · cases serves
    · next other =>
      rw [if_neg other]
      split at serves
      · cases serves
      · next unclaimed =>
        rw [if_neg unclaimed]
        exact fun panel => unserved ⟨loaded, List.mem_filter.2 ⟨List.mem_finRange k, by
          simp only [serves, panel, decide_true, Bool.and_self]⟩⟩

theorem serves_sameHold {a b : Lane} (same : sameHold a b) : a.serves = b.serves := by rw [Lane.serves, Lane.serves, same.1]

/-- Settles O45: steps 1 to 3 by `removed_frame` and `removed_lanes`, the drop-out by `swapChecked_dropOut`, the record's
end by `removedFrom_frame`. -/
theorem panelRemoveAndRestore : Obligations.PanelRemoveAndRestore := by
  unfold Obligations.PanelRemoveAndRestore
  refine ⟨fun p v s above supervisor => ⟨fun take => ?_, fun take => ?_⟩, ?_⟩
  · exact refuses_of_supervised p _ (removeRequest v) s _ rfl take supervisor (removeRequest_above above)
  · exact refuses_of_supervised p _ (restoreRequest v) s _ rfl take supervisor (restoreRequest_above above)
  intro p n s w
  refine ⟨?_, ?_⟩
  · intro i take supervisor
    refine ⟨fun undefined => replies_of_supervised p i (removeRequest n.val) s _ _ _ rfl take supervisor
      (removeRequest_undefined (d := s.taking p) undefined), fun q defined => ?_⟩
    have answers := replies_of_supervised p i (removeRequest n.val) s _ _ _ rfl take supervisor
      (removeRequest_defined (d := s.taking p) defined)
    rw [removePanel_eq] at answers
    obtain ⟨links, panels, now, rotation⟩ := removed_frame n q w
    have probes := frameGone_probesOnly q w
    have kept (m : PanelId) : unprobed (w.removed n q).panels[m] = unprobed w.panels[m] := by
      rw [panels]
      exact probes.panels m
    refine ⟨w.removed n q, ({ s.taking p with works := w.removed n q } : Delivery).dropOut s.content.board n, ?_⟩
    intro out expected gone d unprobed'
    have dropped : SwapChecked out (out.dropOut s.content.board n) := swapChecked_dropOut s.content.board n out
    have ends : d.groups = _ ∧ d.works = _ ∧ ∀ x : PortId, (d.ports[x]).notices = _ :=
      removedFrom_frame s.content.board n (out.dropOut s.content.board n)
    obtain ⟨groups', works', notices'⟩ := ends
    have turns : d.works.rotation = (w.removed n q).rotation := (congrArg Works.rotation works').trans dropped.rotation
    have lane (k : LaneId) : sameHold d.works.lanes[k] (w.removed n q).lanes[k] :=
      (congrArg (fun v : Works => v.lanes[k]) works') ▸ dropped.lanes k
    have drops (g : GroupId) : (out.groups[g]).mayDrop n = true ↔ ∃ x, expected g x := mayDrop_iff out g n
    have keeps (g : GroupId) (h : ∀ x, ¬ expected g x) : (out.groups[g]).mayDrop n = false :=
      Bool.eq_false_iff.2 fun e => by
        obtain ⟨x, expects⟩ := (drops g).1 e
        exact h x expects
    refine ⟨answers, now, kept, ⟨w.frameGone q, fun busy => ?_, fun loaded sending => ?_, panels, links⟩, rotation,
      fun k => ?_, fun l other => ?_, fun none_expects => ?_, fun g x expects first => ?_, fun x => ?_, ?_, ?_,
      fun x claim => ?_, fun g => ?_, fun k resident => ?_, fun loaded k serves => ?_, fun busy => ?_, fun m other => ?_⟩
    · rw [Works.frameGone, if_pos busy]
      exact dropFrame_letsGo q.link w
    · exact if_neg (not_or.2 ⟨loaded, sending⟩)
    · rw [rotation, removed_lanes, letGo_eq]
      rfl
    · rw [links]
      exact probes.links l other
    · exact dropOut_none s.content.board out n fun g => keeps g (none_expects g)
    · obtain ⟨armed, expects, going⟩ := expects
      exact dropOut_some s.content.board out n g x armed expects going fun j below => keeps j (first j below)
    · exact (notices' x).trans ((dropped.notices x).trans (taking_notices p x s))
    · rw [works']
      exact set_getFin_self _ _ _
    · rw [turns, rotation]
      exact set_getFin_self _ _ _
    · rw [turns, rotation] at claim
      obtain ⟨-, other⟩ := Option.filter_eq_some_iff.1 claim
      exact of_decide_eq_true other
    · rw [groups', mapTable_getFin, dropped.members, dropped.setting]
      exact ⟨rfl, rfl⟩
    · obtain ⟨state, panel⟩ := lane k
      rw [panel]
      exact removed_notResident n q w k (state.symm.trans resident)
    · rw [(lane k).2]
      exact removed_notServing n q w loaded k ((serves_sameHold (lane k)).symm.trans serves)
    · have reached : ShowReached (w.dropFrame q.link).links[q.link] d.works.links[q.link] := by
        have frameless : w.frameGone q = w.dropFrame q.link := if_pos busy
        rw [works', ← frameless, ← links]
        exact dropped.links q.link
      obtain ⟨streaming, waiting⟩ := letsFrameGo_link (dropFrame_letsGo q.link w)
      refine ⟨fun state going => ?_, fun state => ?_⟩
      · obtain ⟨state', line, abandons⟩ := streaming state going
        refine ⟨(reached.line ?_ ?_).trans line, reached.abandons.trans abandons⟩ <;> rw [state'] <;> decide
      · obtain ⟨fifo, frame, wait, abandons, state'⟩ := waiting state
        rw [reached.state]
        exact ⟨reached.fifo.trans fifo, reached.frame.trans frame, reached.wait.trans wait,
          reached.abandons.trans abandons, state'⟩
    · have left : d.works.panels[m] = ((out.dropOut s.content.board n).works.panels)[m] := by
        rw [works']
        exact set_getFin_ne _ _ other.symm
      rw [left]
      exact sameButAck_unprobed (dropped.panels m) (kept m)
  · intro i take supervisor
    refine ⟨fun other => refuses_of_supervised p i (restoreRequest n.val) s _ rfl take supervisor
      (restoreRequest_refused (d := s.taking p) other), fun q defined isolated => ?_⟩
    have passed := restoreRequest_passed (d := s.taking p) (c := s.content) defined isolated
    rw [probeAtOnce_eq] at passed
    exact replies_of_supervised p i (restoreRequest n.val) s _ _ _ rfl take supervisor passed

end Sys2Proof.Machine
end

section
/-! Which lanes a selection chooses, and what serving, passing over and preempting a panel leave (R103 to R108, R110, R114,
R115). -/

namespace Sys2Proof.Machine

/-! ## The lowest lane or pair that passes a test -/

section
variable {k : Nat} {test : Fin k → Bool} {is : Fin k → Prop} (same : ∀ n, test n = true ↔ is n)
include same

theorem find_lowest {n : Fin k} (h : is n ∧ ∀ m < n, ¬ is m) : (List.finRange k).find? test = some n :=
  find_finRange test n ((same n).2 h.1) fun m below => Bool.eq_false_iff.2 fun e => h.2 m below ((same m).1 e)

theorem find_nothing (h : ∀ n, ¬ is n) : (List.finRange k).find? test = none :=
  find_finRange_none test fun n => Bool.eq_false_iff.2 fun e => h n ((same n).1 e)

end

section
variable {test : LaneId → Bool} {is : LaneId → Prop} (same : ∀ n, test n = true ↔ is n)
include same

theorem both_iff (k : Fin 4) : (test (evenLane k) && test (oddLane k)) = true ↔ is (evenLane k) ∧ is (oddLane k) := by
  rw [Bool.and_eq_true, same, same]

theorem lowestPair_some {k : Fin 4}
    (h : (is (evenLane k) ∧ is (oddLane k)) ∧ ∀ j < k, ¬ (is (evenLane j) ∧ is (oddLane j))) :
    lowestPair test = some k := find_lowest (both_iff same) h

theorem lowestPair_none (h : ∀ k, ¬ (is (evenLane k) ∧ is (oddLane k))) : lowestPair test = none :=
  find_nothing (both_iff same) h

end

/-! ## Lane choice and pair choice (R103, R104, R114) -/

/-- The lane is RESIDENT with the panel's context. -/
def ownLane (w : Works) (p : PanelId) (n : LaneId) : Prop := (w.lanes[n]).state = .resident ∧ (w.lanes[n]).panel = some p

theorem residentFor_iff (w : Works) (p : PanelId) (n : LaneId) : (w.lanes[n]).residentFor p = true ↔ ownLane w p n :=
  decide_eq_true_iff

theorem open_iff (k : Lane) : k.open = true ↔ k.state = .free ∨ k.state = .resident := decide_eq_true_iff

section
variable {w : Works} {p : PanelId}

theorem chooseLane_own {n : LaneId} (h : ownLane w p n ∧ ∀ m < n, ¬ ownLane w p m) : w.chooseLane p = some n := by
  rw [Works.chooseLane, Works.lowestLane, find_lowest (residentFor_iff w p) h]

theorem chooseLane_free (noOwn : ∀ n, ¬ ownLane w p n) {n : LaneId}
    (h : (w.lanes[n]).state = .free ∧ ∀ m : LaneId, m < n → ¬ (w.lanes[m]).state = .free) : w.chooseLane p = some n := by
  rw [Works.chooseLane, Works.lowestLane, find_nothing (residentFor_iff w p) noOwn, Works.lowestLane,
    find_lowest (fun m => decide_eq_true_iff) h]

theorem chooseLane_resident (noOwn : ∀ n, ¬ ownLane w p n) (noFree : ∀ n : LaneId, ¬ (w.lanes[n]).state = .free) :
    w.chooseLane p = (List.finRange 8).find? (fun n => decide ((w.lanes[n]).state = .resident)) := by
  rw [Works.chooseLane, Works.lowestLane, find_nothing (residentFor_iff w p) noOwn, Works.lowestLane,
    find_nothing (fun m => decide_eq_true_iff) noFree, Works.lowestLane]

theorem choosePair_own {k : Fin 4} (h : (ownLane w p (evenLane k) ∧ ownLane w p (oddLane k)) ∧
    ∀ j < k, ¬ (ownLane w p (evenLane j) ∧ ownLane w p (oddLane j))) : w.choosePair p = some k := by
  rw [Works.choosePair, lowestPair_some (residentFor_iff w p) h]

theorem choosePair_free (noOwn : ∀ k, ¬ (ownLane w p (evenLane k) ∧ ownLane w p (oddLane k))) {k : Fin 4}
    (h : ((w.lanes[evenLane k]).state = .free ∧ (w.lanes[oddLane k]).state = .free) ∧
      ∀ j < k, ¬ ((w.lanes[evenLane j]).state = .free ∧ (w.lanes[oddLane j]).state = .free)) :
    w.choosePair p = some k := by
  rw [Works.choosePair, lowestPair_none (residentFor_iff w p) noOwn,
    lowestPair_some (is := fun n => (w.lanes[n]).state = .free) (fun n => decide_eq_true_iff) h]

theorem choosePair_open (noOwn : ∀ k, ¬ (ownLane w p (evenLane k) ∧ ownLane w p (oddLane k)))
    (noFree : ∀ k, ¬ ((w.lanes[evenLane k]).state = .free ∧ (w.lanes[oddLane k]).state = .free)) :
    w.choosePair p = lowestPair (fun n => (w.lanes[n]).open) := by
  rw [Works.choosePair, lowestPair_none (residentFor_iff w p) noOwn,
    lowestPair_none (is := fun n => (w.lanes[n]).state = .free) (fun n => decide_eq_true_iff) noFree]

theorem stateAndPlain_iff (w : Works) (st : LaneState) (n : LaneId) :
    (decide ((w.lanes[n]).state = st) && w.servesPlain n) = true ↔ (w.lanes[n]).state = st ∧ w.servesPlain n = true := by
  rw [Bool.and_eq_true, decide_eq_true_iff]

theorem usable_iff (w : Works) (n : LaneId) : ((w.lanes[n]).open || w.servesPlain n) = true ↔
    (w.lanes[n]).state = .free ∨ (w.lanes[n]).state = .resident ∨ w.servesPlain n = true := by
  rw [Bool.or_eq_true, open_iff, or_assoc]

theorem usableIdle_iff (w : Works) (n : LaneId) :
    (((w.lanes[n]).open || w.servesPlain n) && decide ((w.lanes[n]).state ≠ .working)) = true ↔
      ((w.lanes[n]).state = .free ∨ (w.lanes[n]).state = .resident ∨ w.servesPlain n = true) ∧
        ¬ (w.lanes[n]).state = .working := by
  rw [Bool.and_eq_true, usable_iff, decide_eq_true_iff]

theorem chooseLane_full (nothing : ∀ n : LaneId, ¬ (w.lanes[n]).state = .free ∧ ¬ (w.lanes[n]).state = .resident) :
    w.chooseLane p = none := by
  rw [chooseLane_resident (fun m own => (nothing m).2 own.1) (fun m => (nothing m).1)]
  exact find_nothing (fun m => decide_eq_true_iff) fun m => (nothing m).2

theorem choosePair_full (nothing : ∀ k, ¬ (((w.lanes[evenLane k]).state = .free ∨ (w.lanes[evenLane k]).state = .resident) ∧
    ((w.lanes[oddLane k]).state = .free ∨ (w.lanes[oddLane k]).state = .resident))) : w.choosePair p = none := by
  rw [choosePair_open (fun j own => nothing j ⟨.inr own.1.1, .inr own.2.1⟩)
    (fun j free => nothing j ⟨.inl free.1, .inl free.2⟩)]
  exact lowestPair_none (fun n => open_iff _) nothing

/-- The lane serves a panel that is not urgent, in the state given. -/
def plainIn (w : Works) (st : LaneState) (n : LaneId) : Prop := (w.lanes[n]).state = st ∧ w.servesPlain n = true

theorem targetLane_loading {n : LaneId} (h : plainIn w .loading n ∧ ∀ m < n, ¬ plainIn w .loading m) :
    w.targetLane = some n := by
  rw [Works.targetLane, find_lowest (stateAndPlain_iff w .loading) h]

theorem targetLane_working (noLoading : ∀ n, ¬ plainIn w .loading n) : w.targetLane =
    (List.finRange 8).find? (fun n => decide ((w.lanes[n]).state = .working) && w.servesPlain n) := by
  rw [Works.targetLane, find_nothing (stateAndPlain_iff w .loading) noLoading]

theorem targetLane_none (nothing : ∀ n, ¬ w.servesPlain n = true) : w.targetLane = none := by
  rw [targetLane_working fun n plain => nothing n plain.2]
  exact find_nothing (stateAndPlain_iff w .working) fun n plain => nothing n plain.2

/-- The lane is FREE, RESIDENT, or serves a panel that is not urgent. -/
def usableLane (w : Works) (n : LaneId) : Prop :=
  (w.lanes[n]).state = .free ∨ (w.lanes[n]).state = .resident ∨ w.servesPlain n = true

/-- The lane is usable and not WORKING. -/
def idleLane (w : Works) (n : LaneId) : Prop := usableLane w n ∧ ¬ (w.lanes[n]).state = .working

theorem targetPair_idle {k : Fin 4} (h : (idleLane w (evenLane k) ∧ idleLane w (oddLane k)) ∧
    ∀ j < k, ¬ (idleLane w (evenLane j) ∧ idleLane w (oddLane j))) : w.targetPair = some k := by
  simp only [Works.targetPair, lowestPair_some (usableIdle_iff w) h]

theorem targetPair_usable (noIdle : ∀ k, ¬ (idleLane w (evenLane k) ∧ idleLane w (oddLane k))) :
    w.targetPair = lowestPair (fun n => (w.lanes[n]).open || w.servesPlain n) := by
  simp only [Works.targetPair, lowestPair_none (usableIdle_iff w) noIdle]

theorem targetPair_none (nothing : ∀ k, ¬ (usableLane w (evenLane k) ∧ usableLane w (oddLane k))) :
    w.targetPair = none := by
  rw [targetPair_usable fun k idle => nothing k ⟨idle.1.1, idle.2.1⟩]
  exact lowestPair_none (usable_iff w) nothing

end

/-! ## Passing over (R104, R105) -/

/-- A lane that serves no urgent panel (R105). -/
theorem quietLane_iff (w : Works) (n : LaneId) : (!w.servesUrgent n) = true ↔ w.servesUrgent n = false := by
  rw [Bool.not_eq_true']

theorem placeClaim_none {w : Works} {p : PanelId}
    (none : ∀ k, ¬ (w.servesUrgent (evenLane k) = false ∧ w.servesUrgent (oddLane k) = false)) : w.placeClaim p = w := by
  simp only [Works.placeClaim, lowestPair_none (quietLane_iff w) none]

/-- A lane as a claim takes its pair (R105). -/
def Lane.beClaimed (k : Lane) : Lane := if k.open then Lane.claimed else k

theorem placeClaim_some {w : Works} {p : PanelId} {k : Fin 4}
    (h : (w.servesUrgent (evenLane k) = false ∧ w.servesUrgent (oddLane k) = false) ∧
      ∀ j < k, ¬ (w.servesUrgent (evenLane j) = false ∧ w.servesUrgent (oddLane j) = false)) :
    w.placeClaim p = (({ w with rotation := { w.rotation with claim := some ⟨p, k⟩ } } : Works).mapLane (evenLane k)
      Lane.beClaimed).mapLane (oddLane k) Lane.beClaimed := by
  simp only [Works.placeClaim, lowestPair_some (quietLane_iff w) h]
  rfl

/-- Two lanes changed, one after the other. -/
theorem mapLanes_lanes (w : Works) (e o : LaneId) (f g : Lane → Lane) (apart : e ≠ o) (n : LaneId) :
    ((w.mapLane e f).mapLane o g).lanes[n] = if n = e then f w.lanes[e] else if n = o then g w.lanes[o] else w.lanes[n] := by
  simp only [Works.mapLane, modifyAt_getFin]
  by_cases even : n = e
  · subst even
    rw [if_neg apart.symm, if_pos rfl, if_pos rfl]
  · by_cases odd : n = o
    · subst odd
      rw [if_pos rfl, if_neg apart, if_neg even, if_pos rfl]
    · rw [if_neg (Ne.symm odd), if_neg (Ne.symm even), if_neg even, if_neg odd]

theorem placeClaim_lanes {w : Works} {p : PanelId} {k : Fin 4}
    (h : (w.servesUrgent (evenLane k) = false ∧ w.servesUrgent (oddLane k) = false) ∧
      ∀ j < k, ¬ (w.servesUrgent (evenLane j) = false ∧ w.servesUrgent (oddLane j) = false)) (n : LaneId) :
    (w.placeClaim p).lanes[n] =
      if (n = evenLane k ∨ n = oddLane k) ∧ (w.lanes[n]).open = true then Lane.claimed else w.lanes[n] := by
  rw [placeClaim_some h, mapLanes_lanes _ _ _ _ _ (evenLane_ne_oddLane k)]
  by_cases even : n = evenLane k
  · rw [if_pos even, even]
    simp only [true_or, true_and]
    rfl
  · rw [if_neg even]
    by_cases odd : n = oddLane k
    · rw [if_pos odd, odd]
      simp only [or_true, true_and]
      rfl
    · rw [if_neg odd, if_neg fun taken => taken.1.elim even odd]

theorem passOver_counts {w : Works} {p : PanelId} (h : min 4 (w.rotation.passes[p] + 1) < 4 ∨ w.rotation.claim ≠ none ∨
    ∀ k, ¬ (w.servesUrgent (evenLane k) = false ∧ w.servesUrgent (oddLane k) = false)) :
    w.passOver p = w.setPasses p (min 4 (w.rotation.passes[p] + 1)) := by
  unfold Works.passOver
  simp only []
  split
  · next full =>
    obtain ⟨four, unclaimed⟩ := full
    exact placeClaim_none ((h.resolve_left fun below => absurd four (Nat.ne_of_lt below)).resolve_left
      fun claimed => claimed unclaimed)
  · rfl

theorem passOver_claims {w : Works} {p : PanelId} (four : min 4 (w.rotation.passes[p] + 1) = 4)
    (unclaimed : w.rotation.claim = none) : w.passOver p = (w.setPasses p 4).placeClaim p := by
  simp only [Works.passOver, four, Works.setPasses_rotation, unclaimed, and_self, if_true]

/-! ## Service (R86, R107, R108, R110, R162) -/

section
variable (c : Content) (gs : Vector Group 8) (w : Works) (p : PanelId) (q : Panel)

theorem serveSingle_lanes (n m : LaneId) : (w.serveSingle c gs p q n).lanes[m] = if m = n then
    serveLane p none q.wake (some (newFrame c.board.generation gs p q.wake)) ((w.lanes[n]).residentFor p) w.lanes[n]
    else w.lanes[m] := by
  rw [Works.serveSingle, Works.mapLane, modifyAt_getFin]
  simp only [eq_comm (a := n)]
  rfl

/-- The works as a pair is about to be served: the panel's claim ended, its pass count 0 (R104, R106). -/
def Works.unclaimed (w : Works) (p : PanelId) : Works := (w.endClaimOf p).setPasses p 0

theorem unclaimed_frame : (w.unclaimed p).panels = w.panels ∧ (w.unclaimed p).links = w.links ∧ (w.unclaimed p).now = w.now ∧
    (w.unclaimed p).rotation = { w.rotation with
      passes := w.rotation.passes.set p 0, claim := w.rotation.claim.filter (fun x => decide (x.panel ≠ p)) } := by
  obtain ⟨links, panels, now⟩ := endClaimOf_frame w p
  exact ⟨panels, links, now, unclaimed_rotation w p⟩

theorem unclaimed_lanes (n : LaneId) : (w.unclaimed p).lanes[n] =
    if w.rotation.claim.any (fun x => decide (x.panel = p)) = true ∧ (w.lanes[n]).state = .claimed then Lane.free
    else w.lanes[n] := endClaimOf_lanes w p n

theorem unclaimed_own (n : LaneId) : ((w.unclaimed p).lanes[n]).residentFor p = (w.lanes[n]).residentFor p := by
  rw [unclaimed_lanes]
  split
  · next ended =>
    have other : ¬ ((w.lanes[n]).state = .resident ∧ (w.lanes[n]).panel = some p) := fun own => by
      cases own.1.symm.trans ended.2
    rw [Lane.residentFor, Lane.residentFor, decide_eq_false other]
    rfl
  · rfl

theorem unclaimed_resident {n : LaneId} (own : (w.lanes[n]).state = .resident) : (w.unclaimed p).lanes[n] = w.lanes[n] := by
  rw [unclaimed_lanes, if_neg fun ended => by cases own.symm.trans ended.2]

theorem servePair_frame (k : Fin 4) :
    (w.servePair c gs p q k).panels = w.panels.set p (some { q with state := .loaded, wake := CauseSet.none }) ∧
    (w.servePair c gs p q k).links = w.links.set q.link { w.links[q.link] with
      state := .reserved, fifo := [], frame := some ⟨p, q.drop, none, [], 0, 0, false, false, false, false, false⟩ } ∧
    (w.servePair c gs p q k).now = w.now ∧
    (w.servePair c gs p q k).rotation = { w.rotation with
      passes := w.rotation.passes.set p 0, claim := w.rotation.claim.filter (fun x => decide (x.panel ≠ p)) } := by
  obtain ⟨panels, links, now, rotation⟩ := unclaimed_frame w p
  rw [← panels, ← links, ← now, ← rotation]
  exact ⟨rfl, rfl, rfl, rfl⟩

theorem servePair_lanes (k : Fin 4) (m : LaneId) : (w.servePair c gs p q k).lanes[m] =
    let resident := (w.lanes[evenLane k]).residentFor p && (w.lanes[oddLane k]).residentFor p
    if m = evenLane k then serveLane p (some (oddLane k)) q.wake (some (newFrame c.board.generation gs p q.wake)) resident
      (w.unclaimed p).lanes[evenLane k]
    else if m = oddLane k then serveLane p (some (evenLane k)) CauseSet.none none resident (w.unclaimed p).lanes[oddLane k]
    else (w.unclaimed p).lanes[m] := by
  have same : ((w.lanes[evenLane k]).residentFor p && (w.lanes[oddLane k]).residentFor p) =
      (((w.unclaimed p).lanes[evenLane k]).residentFor p &&
      ((w.unclaimed p).lanes[oddLane k]).residentFor p) := by rw [unclaimed_own, unclaimed_own]
  simp only [same]
  exact mapLanes_lanes _ _ _ _ _ (evenLane_ne_oddLane k) m

/-- Both lanes of the pair WORKING with the context that they hold (R108). -/
theorem servePair_resident {k : Fin 4} (even : ownLane w p (evenLane k)) (odd : ownLane w p (oddLane k)) :
    (w.servePair c gs p q k).lanes[evenLane k] = serveLane p (some (oddLane k)) q.wake
      (some (newFrame c.board.generation gs p q.wake)) true w.lanes[evenLane k] ∧
    (w.servePair c gs p q k).lanes[oddLane k] =
      serveLane p (some (evenLane k)) CauseSet.none none true w.lanes[oddLane k] := by
  have both : ((w.lanes[evenLane k]).residentFor p && (w.lanes[oddLane k]).residentFor p) = true :=
    (both_iff (residentFor_iff w p) k).2 ⟨even, odd⟩
  rw [servePair_lanes, servePair_lanes, if_pos rfl, if_neg (evenLane_ne_oddLane k).symm, if_pos rfl, both,
    unclaimed_resident w p even.1, unclaimed_resident w p odd.1]
  exact ⟨rfl, rfl⟩

/-- Both lanes of the pair LOADING, without a context (R107). -/
theorem servePair_fresh {k : Fin 4} (fresh : ¬ (ownLane w p (evenLane k) ∧ ownLane w p (oddLane k))) :
    (w.servePair c gs p q k).lanes[evenLane k] = { Lane.free with
      state := .loading, panel := some p, partner := some (oddLane k), work := q.wake } ∧
    (w.servePair c gs p q k).lanes[oddLane k] = { Lane.free with
      state := .loading, panel := some p, partner := some (evenLane k), work := CauseSet.none } := by
  have both : ((w.lanes[evenLane k]).residentFor p && (w.lanes[oddLane k]).residentFor p) = false :=
    Bool.eq_false_iff.2 (mt (both_iff (residentFor_iff w p) k).1 fresh)
  rw [servePair_lanes, servePair_lanes, if_pos rfl, if_neg (evenLane_ne_oddLane k).symm, if_pos rfl, both]
  exact ⟨rfl, rfl⟩

end

/-! ## Preemption (R86, R115) -/

section
variable {w : Works} {m : PanelId} {q : Panel} (defined : w.panels[m] = some q)
include defined

theorem preempt_eq : w.preempt m = (w.lanesServing m).foldl Works.freeLane
    ((w.dropFrame q.link).setPanel m { q with state := .ready, wake := q.wake.union (w.workOf m) }) := by
  simp only [Works.preempt, defined]
  rfl

theorem preempt_keeps : (w.preempt m).links = (w.dropFrame q.link).links ∧
    (w.preempt m).panels =
      (w.dropFrame q.link).panels.set m (some { q with state := .ready, wake := q.wake.union (w.workOf m) }) ∧
    (w.preempt m).rotation = w.rotation ∧ (w.preempt m).now = w.now := by
  have dropped := probesOnly_dropFrame (probesOnly_refl q.link w)
  rw [preempt_eq defined, ← dropped.rotation, ← dropped.now]
  exact freeLanes_frame _ _

theorem preempt_lanes (n : LaneId) : (w.preempt m).lanes[n] = if n ∈ w.lanesServing m
    then (if w.inClaimedPair n then Lane.claimed else Lane.free) else w.lanes[n] := by
  have dropped := probesOnly_dropFrame (probesOnly_refl q.link w)
  rw [preempt_eq defined, freeLanes_lanes, vacated_eq, Works.setPanel_rotation, dropped.rotation, Works.setPanel_lanes,
    dropped.lanes]

end

end Sys2Proof.Machine
end

section
/-! The walk of the rotation step, flat (R101, R102, R104). -/

namespace Sys2Proof.Machine

/-! ## One position of the walk -/

section
variable {c : Content} {gs : Vector Group 8} {w : Works} {p : PanelId} {q : Panel}

theorem rotates_undefined (h : w.panels[p] = none) : rotates c gs w p = false := by
  simp only [rotates, eligible, h, Bool.false_and]

theorem rotates_defined (h : w.panels[p] = some q) :
    rotates c gs w p = !(!eligible c gs w p || q.wake.has .urgent) := by
  simp only [rotates, Works.urgent, h, Bool.not_or, Bool.not_not]

theorem hasLanes_wide (h : w.panels[p] = some q) (wide : q.cls = .wide) : hasLanes w p = (w.choosePair p).isSome := by
  simp only [hasLanes, h, wide, if_true]

theorem hasLanes_single (h : w.panels[p] = some q) (single : q.cls ≠ .wide) : hasLanes w p = (w.chooseLane p).isSome := by
  simp only [hasLanes, h, single, if_false]

theorem visit_unable (h : rotates c gs w p = false) : visitPanel c gs w p = .skipped := by
  cases defined : w.panels[p] with
  | none => simp only [visitPanel, defined]
  | some q =>
    rw [rotates_defined defined, Bool.not_eq_false'] at h
    simp only [visitPanel, defined, h, if_true]

section
variable (able : rotates c gs w p = true) (defined : w.panels[p] = some q)
include able defined

theorem visit_holder (holds : w.holdsClaim p = true) : visitPanel c gs w p = .passed w := by
  rw [rotates_defined defined, Bool.not_eq_true'] at able
  simp only [visitPanel, defined, able, holds, Bool.false_eq_true, if_false, if_true]

variable (other : w.holdsClaim p = false)
include other

theorem visit_pair (wide : q.cls = .wide) {k : Fin 4} (pair : w.choosePair p = some k) :
    visitPanel c gs w p = .served (w.servePair c gs p q k) := by
  rw [rotates_defined defined, Bool.not_eq_true'] at able
  simp only [visitPanel, defined, able, other, wide, pair, Bool.false_eq_true, if_false]

theorem visit_noPair (wide : q.cls = .wide) (nopair : w.choosePair p = none) :
    visitPanel c gs w p = .passed (w.passOver p) := by
  rw [rotates_defined defined, Bool.not_eq_true'] at able
  simp only [visitPanel, defined, able, other, wide, nopair, Bool.false_eq_true, if_false]

theorem visit_lane (single : q.cls ≠ .wide) {n : LaneId} (lane : w.chooseLane p = some n) :
    visitPanel c gs w p = .served (w.serveSingle c gs p q n) := by
  rw [rotates_defined defined, Bool.not_eq_true'] at able
  cases cls : q.cls with
  | wide => exact absurd cls single
  | line => simp only [visitPanel, defined, able, other, cls, lane, Bool.false_eq_true, if_false]
  | rows => simp only [visitPanel, defined, able, other, cls, lane, Bool.false_eq_true, if_false]

theorem visit_noLane (single : q.cls ≠ .wide) (nolane : w.chooseLane p = none) : visitPanel c gs w p = .skipped := by
  rw [rotates_defined defined, Bool.not_eq_true'] at able
  cases cls : q.cls with
  | wide => exact absurd cls single
  | line => simp only [visitPanel, defined, able, other, cls, nolane, Bool.false_eq_true, if_false]
  | rows => simp only [visitPanel, defined, able, other, cls, nolane, Bool.false_eq_true, if_false]

end

theorem servedHere_iff : servedHere c gs w p = true ↔
    rotates c gs w p = true ∧ w.holdsClaim p = false ∧ hasLanes w p = true := by
  rw [servedHere, Bool.and_eq_true, Bool.and_eq_true, Bool.not_eq_true', and_assoc]

/-- Where the walk serves no panel it keeps the panel's place or goes past it. -/
theorem visit_unserved (h : servedHere c gs w p = false) (y : FirstPointer) : visitPanel c gs w p =
    if keepsPlace c gs w p then .passed (goPast c gs w (y, p)) else .skipped := by
  by_cases able : rotates c gs w p = true
  · cases defined : w.panels[p] with
    | none => exact absurd (able.symm.trans (rotates_undefined defined)) Bool.noConfusion
    | some q =>
      by_cases holds : w.holdsClaim p = true
      · have keeps : keepsPlace c gs w p = true := by rw [keepsPlace, able, holds]; rfl
        have past : goPast c gs w (y, p) = w := by simp only [goPast, keeps, holds]; rfl
        rw [visit_holder able defined holds, keeps, past]
        rfl
      · have other : w.holdsClaim p = false := Bool.eq_false_iff.2 holds
        have nolanes : hasLanes w p = false :=
          Bool.eq_false_iff.2 fun has => Bool.false_ne_true (h.symm.trans (servedHere_iff.2 ⟨able, other, has⟩))
        have keeps : keepsPlace c gs w p = decide (q.cls = .wide) := by
          rw [keepsPlace, able, other, nolanes, defined]
          simp
        by_cases wide : q.cls = .wide
        · have nopair : w.choosePair p = none := by
            rwa [hasLanes_wide defined wide, Option.isSome_eq_false_iff, Option.isNone_iff_eq_none] at nolanes
          rw [visit_noPair able defined other wide nopair, keeps, decide_eq_true wide]
          simp only [goPast, keeps, wide, other]
          rfl
        · have nolane : w.chooseLane p = none := by
            rwa [hasLanes_single defined wide, Option.isSome_eq_false_iff, Option.isNone_iff_eq_none] at nolanes
          rw [visit_noLane able defined other wide nolane, keeps, decide_eq_false wide]
          rfl
  · have unable : rotates c gs w p = false := Bool.eq_false_iff.2 able
    rw [visit_unable unable, keepsPlace, unable]
    rfl

theorem goPast_skips {x : FirstPointer × PanelId} (h : keepsPlace c gs w x.2 = false) : goPast c gs w x = w := by
  simp only [goPast, h]
  rfl

/-- Where the walk serves a panel it finds the lane or the pair for it. -/
theorem visit_serves (h : servedHere c gs w p = true) : ∃ q, w.panels[p] = some q ∧
    ((q.cls ≠ .wide ∧ ∃ n, w.chooseLane p = some n ∧ visitPanel c gs w p = .served (w.serveSingle c gs p q n)) ∨
      (q.cls = .wide ∧ ∃ k, w.choosePair p = some k ∧ visitPanel c gs w p = .served (w.servePair c gs p q k))) := by
  obtain ⟨able, other, has⟩ := servedHere_iff.1 h
  cases defined : w.panels[p] with
  | none => exact absurd (able.symm.trans (rotates_undefined defined)) Bool.noConfusion
  | some q =>
    refine ⟨q, rfl, ?_⟩
    by_cases wide : q.cls = .wide
    · rw [hasLanes_wide defined wide] at has
      obtain ⟨k, pair⟩ := Option.isSome_iff_exists.1 has
      exact .inr ⟨wide, k, pair, visit_pair able defined other wide pair⟩
    · rw [hasLanes_single defined wide] at has
      obtain ⟨n, lane⟩ := Option.isSome_iff_exists.1 has
      exact .inl ⟨wide, n, lane, visit_lane able defined other wide lane⟩

end

/-! ## What the walk leaves alone as it goes past panels -/

/-- `v` differs from `w` at most in passes, the claim, and lanes that a claim took. -/
structure WentPast (w v : Works) : Prop where
  panels : v.panels = w.panels
  links : v.links = w.links
  now : v.now = w.now
  first : v.rotation.first = w.rotation.first
  second : v.rotation.second = w.rotation.second
  lanes : ∀ n : LaneId, v.lanes[n] = w.lanes[n] ∨ ((w.lanes[n]).open = true ∧ v.lanes[n] = Lane.claimed)

theorem wentPast_refl (w : Works) : WentPast w w := ⟨rfl, rfl, rfl, rfl, rfl, fun _ => .inl rfl⟩

theorem wentPast_trans {u v w : Works} (h : WentPast u v) (k : WentPast v w) : WentPast u w := by
  refine ⟨k.panels.trans h.panels, k.links.trans h.links, k.now.trans h.now, k.first.trans h.first,
    k.second.trans h.second, fun n => ?_⟩
  rcases k.lanes n with same | ⟨opened, claimed⟩
  · rw [same]
    exact h.lanes n
  · rcases h.lanes n with same | ⟨opened', claimed'⟩
    · exact .inr ⟨same ▸ opened, claimed⟩
    · exact .inr ⟨opened', claimed⟩

theorem beClaimed_past (k : Lane) : k.beClaimed = k ∨ (k.open = true ∧ k.beClaimed = Lane.claimed) := by
  by_cases opened : k.open = true
  · exact .inr ⟨opened, if_pos opened⟩
  · exact .inl (if_neg opened)

theorem wentPast_placeClaim (w : Works) (p : PanelId) : WentPast w (w.placeClaim p) := by
  unfold Works.placeClaim
  split
  · exact wentPast_refl w
  · next k _ =>
    refine { wentPast_refl w with lanes := fun n => ?_ }
    have lanes := mapLanes_lanes ({ w with rotation := { w.rotation with claim := some ⟨p, k⟩ } } : Works) (evenLane k)
      (oddLane k) Lane.beClaimed Lane.beClaimed (evenLane_ne_oddLane k) n
    refine lanes.symm ▸ ?_
    split
    · next e => exact e ▸ beClaimed_past _
    · split
      · next e => exact e ▸ beClaimed_past _
      · exact .inl rfl

theorem wentPast_passOver (w : Works) (p : PanelId) : WentPast w (w.passOver p) := by
  have counted : WentPast w (w.setPasses p (min 4 (w.rotation.passes[p] + 1))) := { wentPast_refl w with }
  unfold Works.passOver
  simp only []
  split
  · exact wentPast_trans counted (wentPast_placeClaim _ p)
  · exact counted

theorem wentPast_goPast (c : Content) (gs : Vector Group 8) (w : Works) (x : FirstPointer × PanelId) :
    WentPast w (goPast c gs w x) := by
  unfold goPast
  split
  · exact wentPast_passOver w x.2
  · exact wentPast_refl w

theorem wentPast_fold (c : Content) (gs : Vector Group 8) (xs : List (FirstPointer × PanelId)) (w : Works) :
    WentPast w (xs.foldl (goPast c gs) w) :=
  foldl_keeps (WentPast w) _ (fun v x h => wentPast_trans h (wentPast_goPast c gs v x)) xs w (wentPast_refl w)

end Sys2Proof.Machine
end

section
/-! The walk of the rotation step as one walk over the positions of `walkOrder` (R101, R102). -/

namespace Sys2Proof.Machine

/-- The walk over positions: `first` and `second` are the first positions of each level at which a panel kept its place. -/
def walkFlat (c : Content) (gs : Vector Group 8) : List (FirstPointer × PanelId) → Option FirstPointer → Option PanelId →
    Works → Works × Bool
  | [], first, second, w => (w.keepPlace first second, false)
  | x :: xs, first, second, w =>
    match visitPanel c gs w x.2 with
    | .skipped => walkFlat c gs xs first second w
    | .passed v => walkFlat c gs xs (first.or (some x.1)) (second.or (if x.1 = .slot then some x.2 else none)) v
    | .served v => ((v.movePointers x.2 (if x.1 = .slot then 2 else 1)).keepPlace first second, true)

/-! ## The two walks are one -/

section
variable (c : Content) (gs : Vector Group 8)

theorem orElse_eq_or {α : Type} (a b : Option α) : a.orElse (fun _ => b) = a.or b := by cases a <;> rfl

/-- The walk over the level-2 panels at the slot, as a part of the flat walk. -/
theorem walkFlat_slot (rest : List (FirstPointer × PanelId)) (first : Option FirstPointer) : ∀ (ps : List PanelId)
    (met : Option PanelId) (w : Works),
    walkFlat c gs (ps.map (fun p => (FirstPointer.slot, p)) ++ rest) (first.or (met.map (fun _ => .slot))) met w =
      match (walkSecond c gs ps met w).served with
      | some p => (((walkSecond c gs ps met w).works.movePointers p 2).keepPlace
          (first.or ((walkSecond c gs ps met w).met.map (fun _ => .slot))) (walkSecond c gs ps met w).met, true)
      | none => walkFlat c gs rest (first.or ((walkSecond c gs ps met w).met.map (fun _ => .slot)))
          (walkSecond c gs ps met w).met (walkSecond c gs ps met w).works
  | [], met, w => rfl
  | p :: ps, met, w => by
    rw [List.map_cons, List.cons_append, walkFlat, walkSecond]
    cases visitPanel c gs w p with
    | skipped => exact walkFlat_slot rest first ps met w
    | passed v =>
      have step := walkFlat_slot rest first ps (met.orElse (fun _ => some p)) v
      have pointer : first.or ((met.orElse (fun _ => some p)).map (fun _ => FirstPointer.slot)) =
          (first.or (met.map (fun _ => .slot))).or (some .slot) := by cases first <;> cases met <;> rfl
      rw [pointer, orElse_eq_or] at step
      simp only [if_true, orElse_eq_or]
      exact step
    | served v => rfl

/-- The positions of level-1 panels. -/
def panelPlaces (ps : List PanelId) : List (FirstPointer × PanelId) := ps.map (fun p => (FirstPointer.panel p, p))

theorem walkFirst_panels : ∀ (ps : List PanelId) (first : Option FirstPointer) (second : Option PanelId) (w : Works),
    walkFirst c gs (ps.map .panel) first second w = walkFlat c gs (panelPlaces ps) first second w
  | [], _, _, _ => rfl
  | p :: ps, first, second, w => by
    rw [List.map_cons, walkFirst, panelPlaces, List.map_cons, walkFlat]
    cases visitPanel c gs w p with
    | skipped => exact walkFirst_panels ps first second w
    | passed v =>
      simp only [reduceCtorEq, if_false, Option.or_none, orElse_eq_or]
      exact walkFirst_panels ps _ _ v
    | served v => rfl

theorem walkFirst_slot (ps : List PanelId) (first : Option FirstPointer) (w : Works) :
    walkFirst c gs (.slot :: ps.map .panel) first none w =
      walkFlat c gs (w.secondCycle.map (fun p => (FirstPointer.slot, p)) ++ panelPlaces ps) first none w := by
  have slot := walkFlat_slot c gs (panelPlaces ps) first w.secondCycle none w
  rw [Option.map_none, Option.or_none] at slot
  rw [slot, walkFirst]
  simp only [orElse_eq_or, Option.none_or]
  cases (walkSecond c gs w.secondCycle none w).served with
  | some p => rfl
  | none => exact walkFirst_panels c gs ps _ _ _

/-- The panels of a level, and their order, are as they were while the panels keep their levels. -/
theorem ofLevel_of_kept {v w : Works} (same : v.kept = w.kept) (level : Nat) : v.ofLevel level = w.ofLevel level := by
  obtain ⟨-, panels⟩ := (kept_iff v w).1 same
  unfold Works.ofLevel
  rw [panelList_map_filter v (fun q => decide (q.level = level)), panelList_map_filter w (fun q => decide (q.level = level))]
  refine List.filter_congr fun p _ => ?_
  have levels := congrArg (Option.map Panel.level) (panels p)
  rw [Option.map_map, Option.map_map] at levels
  have test (o : Option Panel) : o.any (fun q => decide (q.level = level)) =
      (o.map Panel.level).any (fun l => decide (l = level)) := by cases o <;> rfl
  rw [test, test]
  exact congrArg (Option.any _) levels

theorem secondCycle_past {v w : Works} (h : WentPast w v) : v.secondCycle = w.secondCycle := by
  simp only [Works.secondCycle, ofLevel_of_kept (kept_of_same h.now h.panels), h.second]

theorem visit_passed {w v : Works} {p : PanelId} (h : visitPanel c gs w p = .passed v) : WentPast w v := by
  cases served : servedHere c gs w p with
  | false =>
    rw [visit_unserved served .slot] at h
    split at h
    · cases h
      exact wentPast_goPast c gs w _
    · cases h
  | true =>
    obtain ⟨q, -, ⟨-, n, -, visit⟩ | ⟨-, k, -, visit⟩⟩ := visit_serves served
    · cases h.symm.trans visit
    · cases h.symm.trans visit

theorem walkFirst_cycle (after : List PanelId) : ∀ (before : List PanelId) (first : Option FirstPointer) (w : Works),
    walkFirst c gs (before.map .panel ++ .slot :: after.map .panel) first none w = walkFlat c gs (panelPlaces before ++
      (w.secondCycle.map (fun p => (FirstPointer.slot, p)) ++ panelPlaces after)) first none w
  | [], first, w => walkFirst_slot c gs after first w
  | p :: ps, first, w => by
    rw [List.map_cons, List.cons_append, walkFirst, panelPlaces, List.map_cons, List.cons_append, walkFlat]
    cases visit : visitPanel c gs w p with
    | skipped => exact walkFirst_cycle after ps first w
    | passed v =>
      simp only [reduceCtorEq, if_false, Option.or_none, orElse_eq_or]
      rw [← secondCycle_past (visit_passed c gs visit)]
      exact walkFirst_cycle after ps _ v
    | served v => rfl

/-- The first-level cycle holds its slot once. -/
theorem firstCycle_eq (w : Works) : ∃ before after : List PanelId,
    w.firstCycle = before.map .panel ++ .slot :: after.map .panel := by
  unfold Works.firstCycle
  simp only []
  split
  · exact ⟨[], _, rfl⟩
  · exact ⟨_, _, rfl⟩

theorem walkFirst_eq (w : Works) : walkFirst c gs w.firstCycle none none w = walkFlat c gs (walkOrder w) none none w := by
  obtain ⟨before, after, cycle⟩ := firstCycle_eq w
  have order : walkOrder w =
      panelPlaces before ++ (w.secondCycle.map (fun p => (FirstPointer.slot, p)) ++ panelPlaces after) := by
    rw [walkOrder, cycle, List.flatMap_append, List.flatMap_cons, List.flatMap_map, List.flatMap_map]
    simp only [← List.map_eq_flatMap]
    rfl
  rw [order, cycle, walkFirst_cycle]

/-! ## The flat walk past panels that it does not serve -/

/-- The walk serves none of the positions. -/
def Unserved (xs : List (FirstPointer × PanelId)) (w : Works) : Prop :=
  ∀ b y a, xs = b ++ y :: a → servedHere c gs (b.foldl (goPast c gs) w) y.2 = false

variable {c gs}

theorem unserved_cons {x : FirstPointer × PanelId} {xs : List (FirstPointer × PanelId)} {w : Works} :
    Unserved c gs (x :: xs) w ↔ servedHere c gs w x.2 = false ∧ Unserved c gs xs (goPast c gs w x) := by
  refine ⟨fun h => ⟨h [] x xs rfl, fun b y a e => h (x :: b) y a (congrArg (x :: ·) e)⟩, fun ⟨head, tail⟩ b y a e => ?_⟩
  cases b with
  | nil =>
    obtain ⟨rfl, -⟩ := List.cons.inj e
    exact head
  | cons z b =>
    obtain ⟨rfl, later⟩ := List.cons.inj e
    exact tail b y a later

theorem unserved_or : ∀ (xs : List (FirstPointer × PanelId)) (w : Works), Unserved c gs xs w ∨
    ∃ before x after, xs = before ++ x :: after ∧ Unserved c gs before w ∧
      servedHere c gs (before.foldl (goPast c gs) w) x.2 = true
  | [], w => .inl fun b y a e => by simp at e
  | x :: xs, w => by
    cases here : servedHere c gs w x.2 with
    | true => exact .inr ⟨[], x, xs, rfl, fun b y a e => by simp at e, here⟩
    | false =>
      rcases unserved_or xs (goPast c gs w x) with none | ⟨before, y, after, e, unserved, served⟩
      · exact .inl (unserved_cons.2 ⟨here, none⟩)
      · exact .inr ⟨x :: before, y, after, congrArg (x :: ·) e, unserved_cons.2 ⟨here, unserved⟩, served⟩

/-- The first position of `kept`. -/
def keptFirst (kept : List (FirstPointer × PanelId)) : Option FirstPointer := kept.head?.map (fun y => y.1)

/-- The first level-2 panel of `kept`. -/
def keptSecond (kept : List (FirstPointer × PanelId)) : Option PanelId :=
  (kept.find? (fun y => decide (y.1 = .slot))).map (fun y => y.2)

theorem keptSecond_cons (x : FirstPointer × PanelId) (kept : List (FirstPointer × PanelId)) :
    keptSecond (x :: kept) = (if x.1 = .slot then some x.2 else none).or (keptSecond kept) := by
  by_cases slot : x.1 = .slot <;> simp [keptSecond, slot]

theorem walkFlat_past (rest : List (FirstPointer × PanelId)) : ∀ (xs : List (FirstPointer × PanelId)) (w : Works)
    (first : Option FirstPointer) (second : Option PanelId), Unserved c gs xs w →
    walkFlat c gs (xs ++ rest) first second w = walkFlat c gs rest (first.or (keptFirst (keptPlaces c gs xs w)))
      (second.or (keptSecond (keptPlaces c gs xs w))) (xs.foldl (goPast c gs) w)
  | [], w, first, second, _ => by
    simp only [keptPlaces, keptFirst, keptSecond, List.nil_append, List.head?_nil, List.find?_nil, Option.map_none,
      Option.or_none, List.foldl_nil]
  | x :: xs, w, first, second, h => by
    obtain ⟨here, later⟩ := unserved_cons.1 h
    have ih := walkFlat_past rest xs (goPast c gs w x)
    rw [List.cons_append, walkFlat, visit_unserved here x.1, List.foldl_cons, keptPlaces]
    cases keeps : keepsPlace c gs w x.2 with
    | true =>
      simp only [if_true, List.cons_append, List.nil_append]
      rw [ih _ _ later, keptSecond_cons, Option.or_assoc, Option.or_assoc]
      rfl
    | false =>
      have next := ih first second later
      rw [goPast_skips keeps] at next ⊢
      simpa only [Bool.false_eq_true, if_false, List.nil_append] using next

/-! ## The rotation step (R101, R102) -/

variable {w : Works}

theorem any_open_iff : w.lanes.toList.any Lane.open = true ↔ ∃ n : LaneId, (w.lanes[n]).open = true := by
  simp only [List.any_eq_true, Vector.mem_toList_iff, Vector.mem_iff_getElem]
  exact ⟨fun ⟨_, ⟨i, below, e⟩, opened⟩ => ⟨⟨i, below⟩, e ▸ opened⟩, fun ⟨n, opened⟩ => ⟨_, ⟨n.val, n.isLt, rfl⟩, opened⟩⟩

theorem rotationStep_closed (closed : ∀ n : LaneId, (w.lanes[n]).open = false) : w.rotationStep c gs = (w, false) :=
  if_neg fun some_open => by
    obtain ⟨n, opened⟩ := any_open_iff.1 some_open
    exact Bool.false_ne_true ((closed n).symm.trans opened)

theorem rotationStep_walks (opened : ∃ n : LaneId, (w.lanes[n]).open = true) :
    w.rotationStep c gs = walkFlat c gs (walkOrder w) none none w :=
  (if_pos (any_open_iff.2 opened)).trans (walkFirst_eq c gs w)

theorem walkFlat_unserved (h : Unserved c gs (walkOrder w) w) : walkFlat c gs (walkOrder w) none none w =
    let v := (walkOrder w).foldl (goPast c gs) w
    let kept := keptPlaces c gs (walkOrder w) w
    ({ v with rotation := { v.rotation with
      first := (keptFirst kept).getD w.rotation.first, second := (keptSecond kept).getD w.rotation.second } }, false) := by
  have past := walkFlat_past [] (walkOrder w) w none none h
  have went := wentPast_fold c gs (walkOrder w) w
  rw [List.append_nil, Option.none_or, Option.none_or, walkFlat, Works.keepPlace, went.first, went.second] at past
  exact past

/-- The pointers as the walk serves a panel at a position (R102). -/
theorem keepPlace_movePointers {u : Works} (same : u.kept = w.kept) (second' : u.rotation.second = w.rotation.second)
    (x : FirstPointer × PanelId) (first : Option FirstPointer) (second : Option PanelId) :
    (u.movePointers x.2 (if x.1 = .slot then 2 else 1)).keepPlace first second = { u with rotation := { u.rotation with
      first := first.getD (if x.1 = .slot then w.afterSlot else w.afterPanel x.2)
      second := second.getD (if x.1 = .slot then w.afterSecond x.2 else w.rotation.second) } } := by
  have level := ofLevel_of_kept same
  by_cases slot : x.1 = .slot
  · simp only [slot, if_true, if_false, Works.movePointers, Works.keepPlace, Works.afterSlot, Works.afterSecond, level,
      Nat.reduceEqDiff]
  · simp only [slot, if_true, if_false, Works.movePointers, Works.keepPlace, Works.afterPanel, level, second']

theorem walkFlat_served {before after : List (FirstPointer × PanelId)} {x : FirstPointer × PanelId} {u : Works}
    (order : walkOrder w = before ++ x :: after) (unserved : Unserved c gs before w)
    (serves : visitPanel c gs (before.foldl (goPast c gs) w) x.2 = .served u)
    (second : u.rotation.second = w.rotation.second) : walkFlat c gs (walkOrder w) none none w =
      let kept := keptPlaces c gs before w
      ({ u with rotation := { u.rotation with
        first := (keptFirst kept).getD (if x.1 = .slot then w.afterSlot else w.afterPanel x.2)
        second := (keptSecond kept).getD (if x.1 = .slot then w.afterSecond x.2 else w.rotation.second) } }, true) := by
  have went := wentPast_fold c gs before w
  have same : u.kept = w.kept :=
    (visitPanel_kept c gs x.2 u _ (.inr serves)).trans (kept_of_same went.now went.panels)
  rw [order, walkFlat_past (x :: after) before w none none unserved, Option.none_or, Option.none_or, walkFlat, serves]
  simp only [keepPlace_movePointers same second]

end

end Sys2Proof.Machine
end

section
/-! The claim step and the urgent step, and what a selection serves (R98 to R100, R106, R107, R114). -/

namespace Sys2Proof.Machine

/-! ## Eligibility (R98, R174) -/

/-- A panel that a selection may take: READY without a holdoff on an IDLE link, and neither frozen nor deferred unless its
wake set holds URGENT. -/
def Selectable (c : Content) (gs : Vector Group 8) (w : Works) (p : PanelId) (q : Panel) : Prop :=
  w.panels[p] = some q ∧ q.state = .ready ∧ q.holdoff = none ∧ (w.links[q.link]).state = .idle ∧
    (q.wake.has .urgent = true ∨ (c.frozen q = false ∧
      (q.wake.has .stage = true ∨ ∀ g : GroupId, (gs[g]).swap ≠ none → p ∉ (gs[g]).members)))

theorem deferred_false {gs : Vector Group 8} {p : PanelId} {q : Panel} (h : deferred gs p q = false) :
    q.wake.has .stage = true ∨ ∀ g : GroupId, (gs[g]).swap ≠ none → p ∉ (gs[g]).members := by
  rw [deferred, Bool.and_eq_false_iff, Bool.not_eq_false'] at h
  refine h.symm.imp_right fun none_armed g armed member => ?_
  have mem : gs[g] ∈ gs.toList := Vector.mem_toList_iff.2 (Vector.mem_iff_getElem.2 ⟨g.val, g.isLt, rfl⟩)
  have test := List.any_eq_false.1 none_armed _ mem
  exact test (by rw [Option.isSome_iff_ne_none.2 armed, decide_eq_true member]; rfl)

section
variable {c : Content} {gs : Vector Group 8} {w : Works} {p : PanelId} {q : Panel}

theorem eligible_selectable (h : eligible c gs w p = true) : ∃ q, Selectable c gs w p q := by
  cases defined : w.panels[p] with
  | none => simp only [eligible, defined, Bool.false_eq_true] at h
  | some q =>
    simp only [eligible, defined, Bool.and_eq_true, Bool.or_eq_true, decide_eq_true_iff, Option.isNone_iff_eq_none,
      Works.linkOpen, Bool.not_eq_true'] at h
    obtain ⟨⟨⟨ready, holdoff⟩, idle, -⟩, free⟩ := h
    exact ⟨q, defined, ready, holdoff, idle, free.imp_right fun ⟨thawed, undeferred⟩ => ⟨thawed, deferred_false undeferred⟩⟩

/-! ## What serving a panel leaves (R86, R107, R162) -/

/-- The panel LOADED, its link reserved for it, and its wake set the work causes of a lane that serves it, of a pair
where `paired` asks for one. -/
def TakesPanel (paired single : Prop) (p : PanelId) (q : Panel) (v : Works) : Prop :=
  v.panels[p] = some { q with state := .loaded, wake := CauseSet.none } ∧ (v.links[q.link]).state = .reserved ∧
    (v.links[q.link]).fifo = [] ∧
    (v.links[q.link]).frame = some ⟨p, q.drop, none, [], 0, 0, false, false, false, false, false⟩ ∧
    ∃ n : LaneId, (v.lanes[n]).panel = some p ∧ (v.lanes[n]).work = q.wake ∧ (v.lanes[n]).serves = true ∧
      (paired → (v.lanes[n]).partner.isSome = true) ∧ (single → (v.lanes[n]).partner = none)

theorem serveLane_holds (partner : Option LaneId) (work : CauseSet) (frame : Option FrameBuild) (resident : Bool)
    (k : Lane) :
    (serveLane p partner work frame resident k).panel = some p ∧
    (serveLane p partner work frame resident k).work = work ∧
    (serveLane p partner work frame resident k).serves = true ∧
    (serveLane p partner work frame resident k).partner = partner := by
  cases resident <;> exact ⟨rfl, rfl, rfl, rfl⟩

theorem serveSingle_takes {paired single : Prop} (h : ¬ paired) (n : LaneId) :
    TakesPanel paired single p q (w.serveSingle c gs p q n) := by
  have lane : (w.serveSingle c gs p q n).lanes[n] = _ := (serveSingle_lanes c gs w p q n n).trans (if_pos rfl)
  obtain ⟨panel, work, serves, partner⟩ := serveLane_holds (p := p) none q.wake
    (some (newFrame c.board.generation gs p q.wake)) ((w.lanes[n]).residentFor p) w.lanes[n]
  have link : (w.serveSingle c gs p q n).links[q.link] = (w.links[q.link]).reserve p q := set_getFin_self _ _ _
  refine ⟨set_getFin_self _ _ _, ?_, ?_, ?_, n, ?_⟩
  · rw [link]
    rfl
  · rw [link]
    rfl
  · rw [link]
    rfl
  · rw [lane]
    exact ⟨panel, work, serves, fun wants => absurd wants h, fun _ => partner⟩

theorem servePair_takes {paired single : Prop} (h : ¬ single) (k : Fin 4) :
    TakesPanel paired single p q (w.servePair c gs p q k) := by
  obtain ⟨panels, links, -⟩ := servePair_frame c gs w p q k
  have lane : (w.servePair c gs p q k).lanes[evenLane k] = _ :=
    (servePair_lanes c gs w p q k (evenLane k)).trans (if_pos rfl)
  obtain ⟨panel, work, serves, partner⟩ := serveLane_holds (p := p) (some (oddLane k)) q.wake
    (some (newFrame c.board.generation gs p q.wake))
    ((w.lanes[evenLane k]).residentFor p && (w.lanes[oddLane k]).residentFor p) (w.unclaimed p).lanes[evenLane k]
  rw [TakesPanel, panels, links, set_getFin_self, set_getFin_self]
  refine ⟨rfl, rfl, rfl, rfl, evenLane k, ?_⟩
  rw [lane]
  exact ⟨panel, work, serves, fun _ => by rw [partner]; rfl, fun wants => absurd wants h⟩

/-! ## The claim step (R106) -/

/-- Both lanes of the claimed pair are CLAIMED and the claim's panel is eligible. -/
def ClaimReady (c : Content) (gs : Vector Group 8) (w : Works) (x : Claim) : Prop :=
  (w.lanes[evenLane x.pair]).state = .claimed ∧ (w.lanes[oddLane x.pair]).state = .claimed ∧
    eligible c gs w x.panel = true

theorem claimStep_some {x : Claim} (claim : w.rotation.claim = some x) (ready : ClaimReady c gs w x)
    (defined : w.panels[x.panel] = some q) :
    w.claimStep c gs = some ((w.servePair c gs x.panel q x.pair).moveClaimPointer x.panel q.level) := by
  have able : _ ∧ _ ∧ _ := ready
  simp only [Works.claimStep, claim, defined]
  exact if_pos able

theorem claimStep_none (unready : ¬ ∃ x, w.rotation.claim = some x ∧ ClaimReady c gs w x) : w.claimStep c gs = none := by
  cases claim : w.rotation.claim with
  | none => simp only [Works.claimStep, claim]
  | some x =>
    cases defined : w.panels[x.panel] with
    | none => simp only [Works.claimStep, claim, defined]
    | some q =>
      simp only [Works.claimStep, claim, defined]
      exact if_neg fun ready => unready ⟨x, claim, ready⟩

/-! ## The urgent step (R100, R114) -/

theorem serveUrgent_pair (defined : w.panels[p] = some q) (wide : q.cls = .wide) {k : Fin 4}
    (pair : w.choosePair p = some k) : w.serveUrgent c gs p = some (w.servePair c gs p q k) := by
  simp only [Works.serveUrgent, defined, wide, pair]

theorem serveUrgent_noPair (defined : w.panels[p] = some q) (wide : q.cls = .wide) (nopair : w.choosePair p = none) :
    w.serveUrgent c gs p = (w.targetPair).map (fun k =>
      ((w.preemptLane (evenLane k)).preemptLane (oddLane k)).servePair c gs p q k) := by
  simp only [Works.serveUrgent, defined, wide, nopair]

theorem serveUrgent_lane (defined : w.panels[p] = some q) (single : q.cls ≠ .wide) {n : LaneId}
    (lane : w.chooseLane p = some n) : w.serveUrgent c gs p = some (w.serveSingle c gs p q n) := by
  cases cls : q.cls with
  | wide => exact absurd cls single
  | line => simp only [Works.serveUrgent, defined, cls, lane]
  | rows => simp only [Works.serveUrgent, defined, cls, lane]

theorem serveUrgent_noLane (defined : w.panels[p] = some q) (single : q.cls ≠ .wide) (nolane : w.chooseLane p = none) :
    w.serveUrgent c gs p = (w.targetLane).map (fun n => (w.preemptLane n).serveSingle c gs p q n) := by
  cases cls : q.cls with
  | wide => exact absurd cls single
  | line => simp only [Works.serveUrgent, defined, cls, nolane]
  | rows => simp only [Works.serveUrgent, defined, cls, nolane]

/-- An urgent panel served has its lane or pair, directly or by preemption. -/
theorem serveUrgent_serves {u : Works} (h : w.serveUrgent c gs p = some u) : ∃ q, w.panels[p] = some q ∧
    ((q.cls ≠ .wide ∧ ∃ (v : Works) (n : LaneId), u = v.serveSingle c gs p q n) ∨
      (q.cls = .wide ∧ ∃ (v : Works) (k : Fin 4), u = v.servePair c gs p q k)) := by
  cases defined : w.panels[p] with
  | none => simp only [Works.serveUrgent, defined, reduceCtorEq] at h
  | some q =>
    refine ⟨q, rfl, ?_⟩
    by_cases wide : q.cls = .wide
    · refine .inr ⟨wide, ?_⟩
      cases pair : w.choosePair p with
      | some k => exact ⟨w, k, Option.some.inj (h.symm.trans (serveUrgent_pair defined wide pair))⟩
      | none =>
        rw [serveUrgent_noPair defined wide pair] at h
        obtain ⟨k, -, e⟩ := Option.map_eq_some_iff.1 h
        exact ⟨_, k, e.symm⟩
    · refine .inl ⟨wide, ?_⟩
      cases lane : w.chooseLane p with
      | some n => exact ⟨w, n, Option.some.inj (h.symm.trans (serveUrgent_lane defined wide lane))⟩
      | none =>
        rw [serveUrgent_noLane defined wide lane] at h
        obtain ⟨n, -, e⟩ := Option.map_eq_some_iff.1 h
        exact ⟨_, n, e.symm⟩

theorem preemptLane_target {n : LaneId} {m : PanelId} (target : w.targetLane = some n)
    (panel : (w.lanes[n]).panel = some m) : w.preemptLane n = w.preempt m := by
  have plain : w.servesPlain n = true := by
    unfold Works.targetLane at target
    split at target
    · next found =>
      cases target
      have holds := List.find?_some found
      exact ((stateAndPlain_iff w .loading n).1 holds).2
    · have holds := List.find?_some target
      exact ((stateAndPlain_iff w .working n).1 holds).2
  obtain ⟨serves, -⟩ := Bool.and_eq_true_iff.1 plain
  simp only [Works.preemptLane, serves, panel, if_true]

/-- The panel obtains a lane or a pair, directly or by preemption. -/
def Obtains (w : Works) (p : PanelId) : Prop := ∃ q, w.panels[p] = some q ∧
  (hasLanes w p = true ∨ (q.cls = .wide ∧ w.targetPair ≠ none) ∨ (q.cls ≠ .wide ∧ w.targetLane ≠ none))

theorem serveUrgent_none (h : ¬ Obtains w p) : w.serveUrgent c gs p = none := by
  cases defined : w.panels[p] with
  | none => simp only [Works.serveUrgent, defined]
  | some q =>
    have lanes : hasLanes w p = false := Bool.eq_false_iff.2 fun has => h ⟨q, defined, .inl has⟩
    by_cases wide : q.cls = .wide
    · rw [hasLanes_wide defined wide, Option.isSome_eq_false_iff, Option.isNone_iff_eq_none] at lanes
      have target : w.targetPair = none := by_contra fun some_target => h ⟨q, defined, .inr (.inl ⟨wide, some_target⟩)⟩
      rw [serveUrgent_noPair defined wide lanes, target, Option.map_none]
    · rw [hasLanes_single defined wide, Option.isSome_eq_false_iff, Option.isNone_iff_eq_none] at lanes
      have target : w.targetLane = none := by_contra fun some_target => h ⟨q, defined, .inr (.inr ⟨wide, some_target⟩)⟩
      rw [serveUrgent_noLane defined wide lanes, target, Option.map_none]

/-- The urgent step at one panel. -/
def urgentAt (c : Content) (gs : Vector Group 8) (w : Works) (p : PanelId) : Option Works :=
  if w.urgent p && eligible c gs w p then
    (w.serveUrgent c gs p).map (fun v => { v with rotation := { v.rotation with urgent := p } })
  else none

theorem urgentStep_eq : w.urgentStep c gs = (cycleFrom 64 (w.rotation.urgent.val + 1)).findSome? (urgentAt c gs w) := rfl

theorem urgentAt_none (h : ¬ (w.urgent p = true ∧ eligible c gs w p = true ∧ Obtains w p)) : urgentAt c gs w p = none := by
  unfold urgentAt
  split
  · next able =>
    obtain ⟨urgent, eligible⟩ := Bool.and_eq_true_iff.1 able
    rw [serveUrgent_none fun obtains => h ⟨urgent, eligible, obtains⟩, Option.map_none]
  · rfl

theorem urgentAt_some {u : Works} (urgent : w.urgent p = true) (able : eligible c gs w p = true)
    (served : w.serveUrgent c gs p = some u) :
    urgentAt c gs w p = some { u with rotation := { u.rotation with urgent := p } } := by
  rw [urgentAt, urgent, able, served]
  rfl

theorem urgentStep_none (h : ∀ p, ¬ (w.urgent p = true ∧ eligible c gs w p = true ∧ Obtains w p)) :
    w.urgentStep c gs = none := List.findSome?_eq_none_iff.2 fun p _ => urgentAt_none (h p)

theorem urgentStep_first {before after : List PanelId} {u : Works}
    (cycle : cycleFrom 64 (w.rotation.urgent.val + 1) = before ++ p :: after)
    (passed : ∀ m ∈ before, ¬ (w.urgent m = true ∧ eligible c gs w m = true ∧ Obtains w m)) (urgent : w.urgent p = true)
    (able : eligible c gs w p = true) (served : w.serveUrgent c gs p = some u) :
    w.urgentStep c gs = some { u with rotation := { u.rotation with urgent := p } } := by
  have none_before : before.findSome? (urgentAt c gs w) = none :=
    List.findSome?_eq_none_iff.2 fun m mem => urgentAt_none (passed m mem)
  rw [urgentStep_eq, cycle, List.findSome?_append, none_before, Option.none_or, List.findSome?_cons,
    urgentAt_some urgent able served]

/-- A selection is one step (R99). -/
theorem selection_claim {u : Works} (h : w.claimStep c gs = some u) : w.selection c gs = (u, true) := by
  simp only [Works.selection, h]

theorem selection_urgent {u : Works} (unclaimed : w.claimStep c gs = none) (h : w.urgentStep c gs = some u) :
    w.selection c gs = (u, true) := by
  simp only [Works.selection, unclaimed, h]

theorem selection_rotation (unclaimed : w.claimStep c gs = none) (none_urgent : w.urgentStep c gs = none) :
    w.selection c gs = w.rotationStep c gs := by
  simp only [Works.selection, unclaimed, none_urgent]

/-! ## What a selection serves, and what it leaves if it serves nothing -/

/-- A panel that may be selected takes a lane, or a pair, as `w` becomes `v`. -/
def Selects (c : Content) (gs : Vector Group 8) (w v : Works) : Prop := ∃ p q, Selectable c gs w p q ∧
  TakesPanel (q.cls = .wide) (q.cls ≠ .wide ∧ ∀ x, w.rotation.claim = some x → x.panel ≠ p) p q v

theorem claimStep_selects {v : Works} (h : w.claimStep c gs = some v) : Selects c gs w v := by
  have ready : ∃ x, w.rotation.claim = some x ∧ ClaimReady c gs w x := by_contra fun unready =>
    Option.some_ne_none v (h.symm.trans (claimStep_none unready))
  obtain ⟨x, claim, ready⟩ := ready
  obtain ⟨q, selectable⟩ := eligible_selectable ready.2.2
  obtain ⟨defined, -⟩ := id selectable
  cases h.symm.trans (claimStep_some claim ready defined)
  refine ⟨x.panel, q, selectable, ?_⟩
  have takes := servePair_takes (c := c) (gs := gs) (w := w) (p := x.panel) (q := q) (paired := q.cls = .wide)
    (single := q.cls ≠ .wide ∧ ∀ y, w.rotation.claim = some y → y.panel ≠ x.panel)
    (fun single => single.2 x claim rfl) x.pair
  unfold Works.moveClaimPointer
  split <;> exact takes

theorem urgentStep_selects {v : Works} (h : w.urgentStep c gs = some v) : Selects c gs w v := by
  obtain ⟨p, -, at_p⟩ := List.exists_of_findSome?_eq_some (urgentStep_eq.symm.trans h)
  unfold urgentAt at at_p
  split at at_p
  · next able =>
    obtain ⟨urgent, able⟩ := Bool.and_eq_true_iff.1 able
    obtain ⟨u, served, rfl⟩ := Option.map_eq_some_iff.1 at_p
    obtain ⟨q, selectable⟩ := eligible_selectable able
    obtain ⟨defined, -⟩ := id selectable
    obtain ⟨q', defined', ⟨single, u', n, rfl⟩ | ⟨wide, u', k, rfl⟩⟩ := serveUrgent_serves served
    · cases defined.symm.trans defined'
      exact ⟨p, q, selectable, serveSingle_takes single n⟩
    · cases defined.symm.trans defined'
      exact ⟨p, q, selectable, servePair_takes (fun single => single.1 wide) k⟩
  · cases at_p

theorem rotationStep_selects {v : Works} (h : w.rotationStep c gs = (v, true)) : Selects c gs w v := by
  by_cases opened : ∃ n : LaneId, (w.lanes[n]).open = true
  · rw [rotationStep_walks opened] at h
    rcases unserved_or (c := c) (gs := gs) (walkOrder w) w with unserved | ⟨before, x, after, order, unserved, served⟩
    · cases h.symm.trans (walkFlat_unserved unserved)
    · have went := wentPast_fold c gs before w
      obtain ⟨able, -⟩ := servedHere_iff.1 served
      obtain ⟨able, -⟩ := Bool.and_eq_true_iff.1 able
      obtain ⟨q, selectable⟩ := eligible_selectable able
      obtain ⟨q', defined', takes⟩ := visit_serves served
      have selectable' : Selectable c gs w x.2 q := by
        rwa [Selectable, went.panels, went.links] at selectable
      obtain ⟨defined, -⟩ := id selectable
      cases defined.symm.trans defined'
      refine ⟨x.2, q, selectable', ?_⟩
      rcases takes with ⟨single, n, -, visit⟩ | ⟨wide, k, -, visit⟩
      · cases h.symm.trans (walkFlat_served order unserved visit went.second)
        exact serveSingle_takes single n
      · have second := (congrArg Rotation.second (servePair_frame c gs _ x.2 q k).2.2.2).trans went.second
        cases h.symm.trans (walkFlat_served order unserved visit second)
        exact servePair_takes (fun single => single.1 wide) k
  · have closed (n : LaneId) : (w.lanes[n]).open = false := Bool.eq_false_iff.2 fun e => opened ⟨n, e⟩
    cases h.symm.trans (rotationStep_closed closed)

theorem rotationStep_serves_none {v : Works} (h : w.rotationStep c gs = (v, false)) : v.panels = w.panels ∧
    v.links = w.links ∧ v.now = w.now ∧
    ∀ n : LaneId, v.lanes[n] = w.lanes[n] ∨ ((w.lanes[n]).open = true ∧ v.lanes[n] = Lane.claimed) := by
  by_cases opened : ∃ n : LaneId, (w.lanes[n]).open = true
  · rw [rotationStep_walks opened] at h
    rcases unserved_or (c := c) (gs := gs) (walkOrder w) w with unserved | ⟨before, x, after, order, unserved, served⟩
    · have went := wentPast_fold c gs (walkOrder w) w
      cases h.symm.trans (walkFlat_unserved unserved)
      exact ⟨went.panels, went.links, went.now, went.lanes⟩
    · have went := wentPast_fold c gs before w
      obtain ⟨q, -, ⟨-, n, -, visit⟩ | ⟨-, k, -, visit⟩⟩ := visit_serves served
      · cases h.symm.trans (walkFlat_served order unserved visit went.second)
      · have second := (congrArg Rotation.second (servePair_frame c gs _ x.2 q k).2.2.2).trans went.second
        cases h.symm.trans (walkFlat_served order unserved visit second)
  · have closed (n : LaneId) : (w.lanes[n]).open = false := Bool.eq_false_iff.2 fun e => opened ⟨n, e⟩
    cases h.symm.trans (rotationStep_closed closed)
    exact ⟨rfl, rfl, rfl, fun _ => .inl rfl⟩

theorem selection_selects {v : Works} (h : w.selection c gs = (v, true)) : Selects c gs w v := by
  cases claimed : w.claimStep c gs with
  | some u =>
    cases h.symm.trans (selection_claim claimed)
    exact claimStep_selects claimed
  | none =>
    cases urged : w.urgentStep c gs with
    | some u =>
      cases h.symm.trans (selection_urgent claimed urged)
      exact urgentStep_selects urged
    | none => exact rotationStep_selects ((selection_rotation claimed urged).symm.trans h)

theorem selection_serves_none {v : Works} (h : w.selection c gs = (v, false)) : v.panels = w.panels ∧
    v.links = w.links ∧ v.now = w.now ∧
    ∀ n : LaneId, v.lanes[n] = w.lanes[n] ∨ ((w.lanes[n]).open = true ∧ v.lanes[n] = Lane.claimed) := by
  cases claimed : w.claimStep c gs with
  | some u => cases h.symm.trans (selection_claim claimed)
  | none =>
    cases urged : w.urgentStep c gs with
    | some u => cases h.symm.trans (selection_urgent claimed urged)
    | none => exact rotationStep_serves_none ((selection_rotation claimed urged).symm.trans h)

/-- The claim's panel served: its claim gone, its passes 0, the pointer of its level moved (R106). -/
theorem claimServed_eq {x : Claim} (claim : w.rotation.claim = some x) (level : Nat) :
    let v := w.servePair c gs x.panel q x.pair
    v.moveClaimPointer x.panel level = { v with rotation := { w.rotation with
      claim := none
      passes := w.rotation.passes.set x.panel 0
      first := if level = 1 then v.afterPanel x.panel else w.rotation.first
      second := if level = 1 then w.rotation.second else v.afterSecond x.panel } } := by
  obtain ⟨-, -, -, rotation⟩ := servePair_frame c gs w x.panel q x.pair
  have gone : w.rotation.claim.filter (fun y => decide (y.panel ≠ x.panel)) = none := by simp [claim]
  rw [gone] at rotation
  unfold Works.moveClaimPointer
  by_cases first : level = 1 <;> simp only [first, if_true, if_false, rotation]

end

end Sys2Proof.Machine
end

section
/-! Selections settled (R98 to R107, R114, R115). -/

namespace Sys2Proof.Machine

/-- Settles O52: what is served by `selection_selects`, the lane or pair by `find_lowest` and `lowestPair_some`, the claim
step by `claimServed_eq`, the urgent step by `urgentStep_first`, the rotation by `walkFlat_served` and `walkFlat_unserved`,
what serving, passing over and preempting leave by `servePair_lanes`, `placeClaim_lanes` and `preempt_lanes`. -/
theorem selectionServesOneReadyPanel : Obligations.SelectionServesOneReadyPanel := by
  unfold Obligations.SelectionServesOneReadyPanel
  refine ⟨fun c gs w w' => ⟨?_, ?_⟩, ?_, ?_, ?_, ?_, ?_⟩
  · intro served
    obtain ⟨p, q, ⟨defined, ready, holdoff, idle, may⟩, takes⟩ := selection_selects served
    obtain ⟨loaded, reserved, fifo, frame, n, panel, work, serves, pair, single⟩ := takes
    exact ⟨p, q, defined, ready, holdoff, idle, may, loaded, reserved, fifo, frame, n, panel, work, serves, pair,
      fun notWide unclaimed => single ⟨notWide, unclaimed⟩⟩
  · exact selection_serves_none
  · intro w p is own plain lowest both lowestBoth
    refine ⟨fun n h => chooseLane_own h, fun noOwn n h => chooseLane_free noOwn h, fun none n h => ?_, chooseLane_full,
      fun k h => choosePair_own h, fun noOwn k h => choosePair_free noOwn h, fun none k h => ?_, choosePair_full,
      fun n h => targetLane_loading h, fun noLoading n h => ?_, targetLane_none, fun k h => targetPair_idle h,
      fun noIdle k h => ?_, targetPair_none⟩
    · rw [chooseLane_resident (fun m => (none m).1) (fun m => (none m).2)]
      exact find_lowest (fun m => decide_eq_true_iff) h
    · rw [choosePair_open (fun j => (none j).1) (fun j => (none j).2)]
      exact lowestPair_some (fun n => open_iff _) h
    · rw [targetLane_working noLoading]
      exact find_lowest (stateAndPlain_iff w .working) h
    · rw [targetPair_usable noIdle]
      exact lowestPair_some (usable_iff w) h
  · intro c gs w claimReady obtains urgent
    refine ⟨fun x q claim ready defined => ?_, fun unready before p after cycle passed urgentPanel q defined => ?_,
      fun unready noneUrgent => ?_⟩
    · obtain ⟨y, claim', ready⟩ := ready
      cases claim.symm.trans claim'
      exact (selection_claim (claimStep_some claim ready defined)).trans (congrArg (·, true) (claimServed_eq claim q.level))
    · intro serves
      obtain ⟨wakes, able, -⟩ := urgentPanel
      have steps {u : Works} (served : w.serveUrgent c gs p = some u) : serves u :=
        selection_urgent (claimStep_none unready) (urgentStep_first cycle passed wakes able served)
      refine ⟨fun single n lane => steps (serveUrgent_lane defined single lane),
        fun wide k pair => steps (serveUrgent_pair defined wide pair), fun single nolane n m target panel => ?_,
        fun wide nopair k target => ?_⟩
      · refine steps ((serveUrgent_noLane defined single nolane).trans ?_)
        rw [target, Option.map_some, preemptLane_target target panel]
      · refine steps ((serveUrgent_noPair defined wide nopair).trans ?_)
        rw [target, Option.map_some]
    · have rotates := selection_rotation (claimStep_none unready) (urgentStep_none noneUrgent)
      refine ⟨fun closed => rotates.trans (rotationStep_closed closed),
        fun before x after order opened unserved => ?_, fun opened unserved => ?_⟩
      · intro v kept served q defined moved
        have walks := rotates.trans (rotationStep_walks opened)
        have went := wentPast_fold c gs before w
        have defined' : v.panels[x.2] = some q := by rw [went.panels]; exact defined
        obtain ⟨able, other, -⟩ := servedHere_iff.1 served
        refine ⟨fun single n lane => walks.trans ?_, fun wide k pair => walks.trans ?_⟩
        · exact walkFlat_served order unserved (visit_lane able defined' other single lane) went.second
        · have second := (congrArg Rotation.second (servePair_frame c gs v x.2 q k).2.2.2).trans went.second
          exact walkFlat_served order unserved (visit_pair able defined' other wide pair) second
      · exact (rotates.trans (rotationStep_walks opened)).trans (walkFlat_unserved unserved)
  · intro w p v counted quiet
    refine ⟨passOver_counts, fun four unclaimed k quietPair first => ?_⟩
    have lanes := placeClaim_lanes (w := w.setPasses p 4) (p := p) ⟨quietPair, first⟩
    intro u
    rw [show u = (w.setPasses p 4).placeClaim p from passOver_claims four unclaimed]
    have past := wentPast_placeClaim (w.setPasses p 4) p
    refine ⟨past.panels, past.links, past.now, ?_, lanes⟩
    rw [placeClaim_some (w := w.setPasses p 4) ⟨quietPair, first⟩, ← four]
    rfl
  · intro c gs w p q own frame working loading table
    refine ⟨fun n => ⟨⟨rfl, rfl, rfl⟩, rfl, fun m other => ?_, fun resident => ?_, fun fresh => ?_⟩, fun k => ?_⟩
    · rw [serveSingle_lanes, if_neg other]
    · rw [serveSingle_lanes, if_pos rfl, (residentFor_iff w p n).2 resident]
      rfl
    · rw [serveSingle_lanes, if_pos rfl, Bool.eq_false_iff.2 (mt (residentFor_iff w p n).1 fresh)]
      rfl
    · intro v e o ended
      obtain ⟨panels, links, now, rotation⟩ := servePair_frame c gs w p q k
      refine ⟨⟨panels, links, now⟩, rotation, fun m notEven notOdd => ?_,
        fun ⟨even, odd⟩ => servePair_resident c gs w p q even odd, servePair_fresh c gs w p q⟩
      rw [servePair_lanes, if_neg notEven, if_neg notOdd]
      exact unclaimed_lanes w p m
  · intro w m q defined
    obtain ⟨links, panels, rotation, now⟩ := preempt_keeps defined
    exact ⟨_, _, takesBack_workOf w m q.wake, dropFrame_letsGo q.link w, links, panels, rotation, now,
      preempt_lanes defined⟩

end Sys2Proof.Machine
end

section
/-! CONTEXT_COPY_COMPLETE settled (R108 to R110, R149). -/

namespace Sys2Proof.Machine

theorem set_overwritten {α : Type} {v : Vector α 8} {i j : LaneId} (apart : i ≠ j) (a b c : α) :
    ((v.set i a).set j b).set i c = (v.set j b).set i c := by
  rw [set_set_set apart, Vector.set_comm _ _ (fun same => apart (Fin.ext same))]

/-- Both lanes of a pair changed. -/
theorem mapLane_pair (w : Works) (j : Fin 4) (f g : Lane → Lane) : (w.mapLane (evenLane j) f).mapLane (oddLane j) g =
    { w with
      lanes := (w.lanes.set (evenLane j) (f w.lanes[evenLane j])).set (oddLane j) (g w.lanes[oddLane j]) } := by
  have kept : (w.mapLane (evenLane j) f).lanes[oddLane j] = w.lanes[oddLane j] :=
    modifyAt_getFin_ne f w.lanes (evenLane_ne_oddLane j)
  rw [← kept]
  rfl

/-! ## A copy of the context (R109) -/

/-- The lane of a loading panel takes its copy, and the lanes start once every one of them holds it. -/
theorem copyComplete_eq {n : LaneId} {p : PanelId} {q : Panel} {d : Delivery}
    (loading : (d.works.lanes[n]).state = .loading) (panel : (d.works.lanes[n]).panel = some p)
    (defined : d.works.panels[p] = some q) (c : Content) : copyComplete n c d =
      { d with works := if (d.works.copyContext n p q).copiesDone p then
          (d.works.copyContext n p q).startLanes c d.groups p else d.works.copyContext n p q } := by
  simp only [copyComplete, loading, panel, defined, ne_eq, not_true_eq_false, if_false]
  rfl

theorem copyContext_lanes (n : LaneId) (p : PanelId) (q : Panel) (w : Works) : (w.copyContext n p q).lanes =
    w.lanes.set n { w.lanes[n] with context := some (q.context p) } := rfl

theorem copyContext_serving (n : LaneId) (p : PanelId) (q : Panel) (w : Works) (m : PanelId) :
    (w.copyContext n p q).lanesServing m = w.lanesServing m :=
  lanesServing_congr (sameHold_set (k := { w.lanes[n] with context := some (q.context p) }) ⟨rfl, rfl⟩) m

theorem copyContext_partner (n : LaneId) (p : PanelId) (q : Panel) (w : Works) (m : LaneId) :
    ((w.copyContext n p q).lanes[m]).partner = (w.lanes[m]).partner := by
  rw [copyContext_lanes, set_getFin]
  split
  · next e => rw [← e]
  · rfl

/-- The lanes of a panel may start when each, but for the one that has just taken its copy, holds its context already. -/
theorem copiesDone_iff (n : LaneId) (p : PanelId) (q : Panel) (w : Works) : (w.copyContext n p q).copiesDone p = true ↔
    ∀ m ∈ w.lanesServing p, m ≠ n → (w.lanes[m]).context.isSome = true := by
  rw [Works.copiesDone, copyContext_serving, List.all_eq_true]
  refine forall₂_congr fun m _ => ?_
  rw [copyContext_lanes, set_getFin]
  by_cases same : n = m
  · rw [if_pos same]
    exact iff_of_true rfl (fun other => absurd same.symm other)
  · rw [if_neg same]
    exact ⟨fun held _ => held, fun held => held (Ne.symm same)⟩

/-! ## The lanes of a panel start (R110, R149) -/

section
variable {w : Works} {p : PanelId} (c : Content) (gs : Vector Group 8)

theorem startLanes_single {n : LaneId} (partner : (w.lanes[n]).partner = none) (serving : w.lanesServing p = [n]) :
    w.startLanes c gs p = { w with
      lanes := w.lanes.set n
        ((w.lanes[n]).startWorking (some (newFrame c.board.generation gs p (w.lanes[n]).work))) } := by
  simp only [Works.startLanes, serving, List.foldl_cons, List.foldl_nil, holder_single partner, if_true]
  rfl

/-- Of a pair the even lane takes the frame (R149). -/
theorem startLanes_pair {j : Fin 4} (even : (w.lanes[evenLane j]).partner = some (oddLane j))
    (odd : (w.lanes[oddLane j]).partner = some (evenLane j)) (serving : w.lanesServing p = [evenLane j, oddLane j]) :
    w.startLanes c gs p = { w with
      lanes := (w.lanes.set (evenLane j)
        ((w.lanes[evenLane j]).startWorking (some (newFrame c.board.generation gs p (w.lanes[evenLane j]).work)))).set
          (oddLane j) ((w.lanes[oddLane j]).startWorking none) } := by
  have apart := evenLane_ne_oddLane j
  have evenHolds : w.holder (evenLane j) = evenLane j := by rw [holder_paired even, pairOf_even]
  have oddKept (f : Lane → Lane) : (w.mapLane (evenLane j) f).lanes[oddLane j] = w.lanes[oddLane j] :=
    modifyAt_getFin_ne f w.lanes apart
  have evenHoldsOdd (f : Lane → Lane) : (w.mapLane (evenLane j) f).holder (oddLane j) = evenLane j := by
    rw [holder_paired ((congrArg Lane.partner (oddKept f)).trans odd), pairOf_odd]
  simp only [Works.startLanes, serving, List.foldl_cons, List.foldl_nil, evenHolds, evenHoldsOdd, apart, if_true,
    if_false, mapLane_pair]

end

/-- Settles O47: which copies the lanes still wait for by `copiesDone_iff`, and how they start by `startLanes_single` and
`startLanes_pair`. -/
theorem contextCopyStartsTheLane : Obligations.ContextCopyStartsTheLane := by
  unfold Obligations.ContextCopyStartsTheLane
  intro n p q s w k copy copied fresh started loading panel defined
  have completes := copyComplete_eq loading panel defined s.content
  have starts {v : Works} (held : ∀ m ∈ w.lanesServing p, m ≠ n → (w.lanes[m]).context.isSome = true)
      (h : (w.copyContext n p q).startLanes s.content s.delivery.groups p = v) :
      LeavesWorks (.contextCopyComplete n) s v :=
    leavesWorks_of_event (copyComplete n) rfl (by rw [completes, if_pos ((copiesDone_iff n p q w).2 held), h])
  have waits {m : LaneId} (serves : m ∈ w.lanesServing p) (other : m ≠ n) (none : (w.lanes[m]).context = none) :
      LeavesWorks (.contextCopyComplete n) s { w with lanes := w.lanes.set n copied } := by
    refine leavesWorks_of_event (copyComplete n) rfl (completes.trans ?_)
    rw [if_neg (fun done => ?_)]
    · rfl
    · have held := (copiesDone_iff n p q w).1 done m serves other
      rw [none] at held
      cases held
  refine ⟨fun partner serving => ?_, ?_⟩
  · refine starts ?_ ((startLanes_single (n := n) _ _ ?_ ?_).trans ?_)
    · rw [serving]
      exact fun m mem other => absurd (List.mem_singleton.1 mem) other
    · rw [copyContext_partner]
      exact partner
    · rw [copyContext_serving, serving]
    · simp only [copyContext_lanes, set_getFin_self, Vector.set_set]
      rfl
  · intro j e o serving even odd
    have apart : e ≠ o := evenLane_ne_oddLane j
    have pair := startLanes_pair (w := w.copyContext n p q) (p := p) (j := j) s.content s.delivery.groups
      ((copyContext_partner n p q w e).trans even) ((copyContext_partner n p q w o).trans odd)
      ((copyContext_serving n p q w p).trans serving)
    have serves (m : LaneId) : m ∈ w.lanesServing p ↔ m = e ∨ m = o := by rw [serving, List.mem_pair]
    have bothHeld {m : LaneId} (held : (w.lanes[m]).context.isSome = true)
        (rest : ∀ i, i = e ∨ i = o → i ≠ n → i = m) :
        ∀ i ∈ w.lanesServing p, i ≠ n → (w.lanes[i]).context.isSome = true :=
      fun i mem other => rest i ((serves i).1 mem) other ▸ held
    refine ⟨?_, ?_, ?_, ?_⟩
    · exact fun first none => waits ((serves o).2 (.inr rfl)) (first ▸ apart.symm) none
    · exact fun second none => waits ((serves e).2 (.inl rfl)) (second ▸ apart) none
    · rintro rfl held
      refine starts (bothHeld held fun i which other => which.resolve_left other) (pair.trans ?_)
      simp only [copyContext_lanes, e, o, set_getFin_self, set_getFin_ne _ _ apart, Vector.set_set]
      rfl
    · rintro rfl held
      refine starts (bothHeld held fun i which other => which.resolve_right other) (pair.trans ?_)
      simp only [copyContext_lanes, e, o, set_getFin_self, set_getFin_ne _ _ apart.symm,
        set_overwritten apart.symm]
      rfl

end Sys2Proof.Machine
end

section
/-! The drawing of a strip: what a run, a placard and the board leave at a pixel (R119, R122, R125 to R134). -/

namespace Sys2Proof.Machine

/-! ## Drawn glyphs (R119, R122) -/

theorem drawn_present {f : Font} {g : Nat} {slot : GlyphSlot} (h : f.glyph? g = some slot) : f.drawn g = some slot := by
  simp only [Font.drawn, h]

theorem drawn_absent {f : Font} {g : Nat} (h : f.glyph? g = none) : f.drawn g = f.glyph? 0 := by
  simp only [Font.drawn, h]

theorem drawnWidth_of_drawn {f : Font} {g : Nat} {slot : GlyphSlot} (h : f.drawn g = some slot) :
    f.drawnWidth g = slot.width := by
  simp only [Font.drawnWidth, h]

theorem drawnWidth_undrawn {f : Font} {g : Nat} (h : f.drawn g = none) : f.drawnWidth g = 0 := by
  simp only [Font.drawnWidth, h]

theorem bit_of_region {f : Font} {slot : GlyphSlot} {column row : Nat} {x : Byte}
    (h : f.region[slot.place + column * (f.height / 8) + row / 8]? = some x) :
    f.bit slot column row = x.getLsbD (row % 8) := by
  simp only [Font.bit, h]

/-! ## Runs of characters (R128) -/

/-- The advances of the characters that stand before another (R122). -/
def advances (f : Font) (before : List Nat) : Nat := (before.map (fun x => f.drawnWidth x + 1)).sum

/-- Right of the start of a run by `k` columns stands column `j` of a glyph: of a character of the run, past the advances
of those before it (R122). -/
theorem columnAt_iff (f : Font) (slot : GlyphSlot) (j : Nat) (chars : List Nat) (k : Int) :
    f.columnAt chars k = some (slot, j) ↔ ∃ before g after, chars = before ++ g :: after ∧ f.drawn g = some slot ∧
      k = (advances f before : Int) + j ∧ j < slot.width := by
  induction chars generalizing k with
  | nil => simp [Font.columnAt]
  | cons c cs ih =>
    unfold Font.columnAt
    by_cases leftOf : k < 0
    · rw [if_pos leftOf]
      refine iff_of_false nofun ?_
      rintro ⟨before, g, after, -, -, place, -⟩
      omega
    rw [if_neg leftOf]
    by_cases within : k < f.drawnWidth c
    · rw [if_pos within, Option.map_eq_some_iff]
      constructor
      · rintro ⟨x, drawn, same⟩
        obtain ⟨rfl, rfl⟩ := Prod.mk.inj same
        rw [drawnWidth_of_drawn drawn] at within
        refine ⟨[], c, cs, rfl, drawn, ?_, by omega⟩
        rw [advances, List.map_nil, List.sum_nil]
        omega
      · rintro ⟨before, g, after, split, drawn, rfl, inside⟩
        cases before with
        | nil =>
          obtain ⟨rfl, rfl⟩ := List.cons.inj split
          exact ⟨slot, drawn, by simp [advances]⟩
        | cons b before =>
          obtain ⟨rfl, -⟩ := List.cons.inj split
          simp only [advances, List.map_cons, List.sum_cons] at within
          omega
    · rw [if_neg within, ih]
      constructor
      · rintro ⟨before, g, after, rfl, drawn, place, inside⟩
        refine ⟨c :: before, g, after, rfl, drawn, ?_, inside⟩
        simp only [advances, List.map_cons, List.sum_cons, Font.advance] at place ⊢
        omega
      · rintro ⟨before, g, after, split, drawn, place, inside⟩
        cases before with
        | nil =>
          obtain ⟨rfl, rfl⟩ := List.cons.inj split
          rw [advances, List.map_nil, List.sum_nil] at place
          rw [drawnWidth_of_drawn drawn] at within
          omega
        | cons b before =>
          obtain ⟨rfl, rfl⟩ := List.cons.inj split
          refine ⟨before, g, after, rfl, drawn, ?_, inside⟩
          simp only [advances, List.map_cons, List.sum_cons, Font.advance] at place ⊢
          omega

/-- A run paints where it has a glyph pixel, within its own limits (R119, R122, R128). -/
theorem paints_iff (r : Run) (column row : Int) : r.paints column row = true ↔
    (r.left ≤ column ∧ column < r.right) ∧ row < r.bottom ∧ inked r.font r.chars r.start r.top column row := by
  unfold Run.paints inked
  constructor
  · intro h
    split at h
    · next limits =>
      obtain ⟨left, right, top, bottom, height⟩ := limits
      split at h
      · next slot j at_column =>
        obtain ⟨before, g, after, chars, drawn, place, inside⟩ := (columnAt_iff _ _ _ _ _).1 at_column
        have column_eq : column - r.start - (advances r.font before : Int) = j := by omega
        rw [advances] at column_eq
        refine ⟨⟨left, right⟩, bottom, before, g, after, slot, chars, drawn, ?_⟩
        simp only [column_eq]
        exact ⟨by omega, by omega, by omega, height, h⟩
      · cases h
    · cases h
  · rintro ⟨⟨left, right⟩, bottom, before, g, after, slot, chars, drawn, nonneg, inside, top, height, ink⟩
    have at_column : r.font.columnAt r.chars (column - r.start) =
        some (slot, (column - r.start - (advances r.font before : Int)).toNat) := by
      refine (columnAt_iff _ _ _ _ _).2 ⟨before, g, after, chars, drawn, ?_, ?_⟩
      · rw [← advances] at nonneg
        omega
      · rw [← advances] at inside nonneg
        omega
    rw [if_pos ⟨left, right, by omega, bottom, height⟩, at_column]
    exact ink

/-- A run as wide and as high as its font and its placard let it be. -/
theorem wholeRun_paints {f : Font} {chars : List Nat} {start top left right column row : Int}
    (within : left ≤ column ∧ column < right) :
    (wholeRun f chars start top left right).paints column row = true ↔ inked f chars start top column row := by
  rw [paints_iff]
  refine ⟨fun ⟨_, _, ink⟩ => ink, fun ink => ⟨within, ?_, ink⟩⟩
  obtain ⟨_, _, _, _, _, _, _, _, _, height, _⟩ := ink
  show row < top + f.height
  omega

/-! ## What each kind draws (R129 to R134) -/

theorem figureText_eq (tokens : Vector (List Nat) 4) (x : Figure) : figureText tokens x = figureWords tokens x := by
  cases x with
  | minutes m =>
    simp only [figureText, figureWords, plainDigits, twoDigits, List.isEmpty_iff, List.singleton_append]
  | due => rfl
  | clock hh mm => rfl
  | atPlatform => rfl
  | cancelled => rfl

theorem clockText_clockForm (second : Nat) : clockText (clockForm second).1 (clockForm second).2 =
    [48 + second / 3600 % 24 / 10, 48 + second / 3600 % 24 % 10, 58, 48 + second % 3600 / 60 / 10,
      48 + second % 3600 / 60 % 10] := by
  have hours : second / 3600 % 24 / 10 % 10 = second / 3600 % 24 / 10 := by omega
  have minutes : second % 3600 / 60 / 10 % 10 = second % 3600 / 60 / 10 := by omega
  simp only [clockText, clockForm, twoDigits, hours, minutes]
  rfl

theorem face_eq (k : Clock) : k.face = if k.state = .unset then [45, 45, 58, 45, 45] else
    [48 + k.value / 100 / 3600 % 24 / 10, 48 + k.value / 100 / 3600 % 24 % 10, 58, 48 + k.value / 100 % 3600 / 60 / 10,
      48 + k.value / 100 % 3600 / 60 % 10] := by
  unfold Clock.face
  split
  · next unset => rw [if_pos unset]
  all_goals
    next set =>
      rw [if_neg (by rw [set]; exact nofun)]
      exact clockText_clockForm k.second

/-- A departure row paints where its badge, its name or its figure has a glyph pixel (R130, R131). -/
theorem rowRuns_paint {c : Content} {rowFont badgeFont : Font} {x w top : Nat} {e : Entry} {column row : Int}
    (within : (x : Int) ≤ column ∧ column < (x : Int) + w) :
    (rowRuns c rowFont badgeFont x w top e).any (fun r => r.paints column row) = true ↔
      let figure := figureWords c.typeStore.tokens e.figure
      let width := widthOf rowFont figure
      row < (top + rowFont.height : Nat) ∧ (inked badgeFont [e.line] x top column row ∨
        (column < (x + w : Nat) - (width : Int) - 1 ∧ inked rowFont ((c.destinations[e.destination]?).getD [])
          (x + badgeFont.drawnWidth e.line + 2 : Nat) top column row) ∨
        inked rowFont figure ((x + w : Nat) - (width : Int)) top column row) := by
  have width_eq : ∀ chars, rowFont.runWidth chars = widthOf rowFont chars := fun _ => rfl
  simp only [rowRuns, figureText_eq, width_eq, List.any_cons, List.any_nil, Bool.or_false, Bool.or_eq_true, paints_iff,
    within.1, within.2, true_and, Nat.cast_add, Nat.cast_ofNat]
  tauto

/-- The runs of a placard paint its content pixels, within its columns (R129 to R134). -/
theorem placardRuns_paint {c : Content} {pl : Placard} {column row : Int}
    (within : (pl.x : Int) ≤ column ∧ column < (pl.x : Int) + pl.w) :
    (placardRuns c pl).any (fun r => r.paints column row) = true ↔ contentAt c pl column row := by
  unfold placardRuns contentAt
  cases pl.content with
  | text chars font align =>
    simp only [List.any_cons, List.any_nil, Bool.or_false]
    exact wholeRun_paints within
  | departures list firstRow rowCount rowFont badgeFont =>
    simp only [List.any_flatMap, List.any_eq_true (l := List.range rowCount), List.mem_range]
    refine exists_congr fun i => ?_
    by_cases shown : firstRow + i < 12
    · rw [if_pos shown]
      cases (c.lists[list])[firstRow + i]? with
      | none => simp
      | some e => simp only [rowRuns_paint within, shown, true_and, Option.some.injEq, exists_and_left, exists_eq_left']
    · simp [shown]
  | ticker t =>
    cases running : (c.tickers[t]).state with
    | running =>
      simp only [running, List.any_cons, List.any_nil, Bool.or_false, true_and]
      exact wholeRun_paints within
    | undefined | idle | dry => simp only [running, List.any_nil, Bool.false_eq_true, reduceCtorEq, false_and]
  | clock font =>
    simp only [List.any_cons, List.any_nil, Bool.or_false, face_eq]
    exact wholeRun_paints within
  | glyph font g =>
    simp only [List.any_cons, List.any_nil, Bool.or_false]
    exact wholeRun_paints within

/-! ## Painting (R125 to R127) -/

/-- What the brush of a placard leaves at a pixel of the placard's clipped rectangle (R127). -/
theorem brush_level (c : Content) (q : Panel) (pl : Placard) (column row level : Nat) (isContent : Bool)
    (painted : (placardRuns c pl).any (fun r => r.paints column row) = isContent) :
    (if (c.brush q pl).runs.any (fun r => r.paints column row) then (c.brush q pl).level
      else (c.brush q pl).fill.getD level) = (pl.paintsLevel isContent).getD level := by
  simp only [Content.brush, painted, Placard.fillLevel, Placard.contentLevel, Placard.paintsLevel]
  cases pl.invert <;> cases isContent <;> rfl

/-- A placard covers a pixel when it is drawn for the panel now and the pixel lies in its clipped rectangle (R46,
R126). -/
theorem coversNow_iff (c : Content) (q : Panel) (pl : Placard) (column row : Nat) : coversNow c q pl column row = true ↔
    c.showsNow q pl = true ∧ (pl.x ≤ column ∧ column < min (pl.x + pl.w) q.width ∧
      pl.y ≤ row ∧ row < min (pl.y + pl.h) q.height) := by
  simp only [coversNow, Content.showsNow, Placard.drawnOn, Placard.inside, Clock.phaseOn, Bool.and_eq_true,
    decide_eq_true_eq]
  constructor
  · rintro ⟨⟨⟨live, isMatch⟩, blink⟩, rect⟩
    exact ⟨⟨⟨⟨isMatch, live⟩, by omega⟩, blink⟩, by omega⟩
  · rintro ⟨⟨⟨⟨isMatch, live⟩, -⟩, blink⟩, rect⟩
    exact ⟨⟨⟨live, isMatch⟩, blink⟩, by omega⟩

/-- What a placard of the draw order leaves at a pixel (R126, R127). -/
theorem paint_eq {c : Content} {q : Panel} {pl : Placard} {column row : Nat} (isContent : Bool)
    (content : isContent = true ↔ contentAt c pl (column : Int) (row : Int)) (level : Nat) :
    (if c.showsNow q pl then (c.brush q pl).paint column row level else level) =
      if coversNow c q pl column row then (pl.paintsLevel isContent).getD level else level := by
  by_cases covers : coversNow c q pl column row = true
  · obtain ⟨shows, rect⟩ := (coversNow_iff c q pl column row).1 covers
    have painted : (placardRuns c pl).any (fun r => r.paints column row) = isContent := by
      rw [Bool.eq_iff_iff, content]
      exact placardRuns_paint (by omega)
    rw [if_pos shows, if_pos covers, Brush.paint, ← brush_level c q pl column row level isContent painted]
    exact if_pos rect
  · rw [if_neg covers]
    split
    · next shows => exact if_neg (fun rect => covers ((coversNow_iff c q pl column row).2 ⟨shows, rect⟩))
    · rfl

/-- The brushes of the board paint a pixel placard by placard, in draw order (R126). -/
theorem brushes_foldl {c : Content} {q : Panel} {column row : Nat} {isContent : Placard → Bool}
    (content : ∀ pl, isContent pl = true ↔ contentAt c pl (column : Int) (row : Int)) :
    (c.brushes q).foldl (fun level k => k.paint column row level) 0 =
      (c.board.drawOrder.filterMap (fun n => c.board.placards[n])).foldl (fun level pl =>
        if coversNow c q pl column row then (pl.paintsLevel (isContent pl)).getD level else level) 0 := by
  rw [Content.brushes, List.foldl_map, List.foldl_filter]
  simp only [paint_eq _ (content _)]
  rfl

theorem composeColumns_length (c : Content) (q : Panel) (strip left count : Nat) :
    (composeColumns c q strip left count).length = count := by
  rw [composeColumns, List.length_map, List.length_range]

theorem composeColumns_height {c : Content} {q : Panel} {strip left count : Nat} {column : List Nat}
    (h : column ∈ composeColumns c q strip left count) : column.length = 8 := by
  obtain ⟨i, -, rfl⟩ := List.mem_map.1 h
  rw [stripColumn, List.length_map, List.length_range]

/-- The level at a row of a column of a strip (R125). -/
theorem composeColumns_pixel {c : Content} {q : Panel} {strip left count k r : Nat} (inStrip : k < count)
    (inColumn : r < 8) :
    ((composeColumns c q strip left count)[k]?).bind (fun column => column[r]?) =
      some ((c.brushes q).foldl (fun level b => b.paint (left + k) (8 * strip + r) level) 0) := by
  simp only [composeColumns, stripColumn, List.getElem?_map, List.getElem?_range inStrip, List.getElem?_range inColumn,
    Option.map_some, Option.bind_some]

end Sys2Proof.Machine
end

section
/-! A strip decided and written, on one lane and on a pair (R110, R111, R147, R150, R151, R153). -/

namespace Sys2Proof.Machine

/-! ## The KEEP decision and the code of a strip (R150, R151) -/

theorem wouldKeepStrip_iff (x : Context) (work : CauseSet) (strip : Nat) (d : Digest) :
    wouldKeepStrip x work strip d = true ↔
      x.fullDemand = false ∧ work.has .refresh = false ∧ ∃ r, x.ack = some r ∧ r.strips[strip]? = some d := by
  unfold wouldKeepStrip
  cases x.ack with
  | none => simp
  | some r => simp [and_assoc]

/-- The conditions of R150 but for the staged candidate mark, given as a test. -/
theorem wouldKeepStrip_eq {x : Context} {work : CauseSet} {strip : Nat} {d : Digest} {would : Bool} (h : would = true ↔
    x.fullDemand = false ∧ work.has .refresh = false ∧ ∃ r, x.ack = some r ∧ r.strips[strip]? = some d) :
    wouldKeepStrip x work strip d = would := by
  rw [Bool.eq_iff_iff, wouldKeepStrip_iff, h]

/-- What the lane that opens a strip block writes, by whether the strip is kept (R151). -/
theorem openingCode_eq (cls : PanelClass) (strip : Nat) (kept : Bool) (bytes : List Byte) :
    openingCode cls strip (if kept then .keep else .coded) bytes =
      if kept then [BitVec.ofNat 8 strip] else BitVec.ofNat 8 (128 + strip) :: laneCode cls bytes := by
  cases kept <;> rfl

theorem closingCode_eq (cls : PanelClass) (kept : Bool) (bytes : List Byte) :
    closingCode cls (if kept then .keep else .coded) bytes = if kept then [] else laneCode cls bytes := by
  cases kept <;> rfl

theorem laneCode_wide (bytes : List Byte) : laneCode .wide bytes = segmentCode bytes := List.append_nil _

/-! ## A lane that is ready for its next strip (R110, R111) -/

theorem waitsForRoom_iff (w : Works) (p : PanelId) : w.waitsForRoom p = true ↔
    ∃ m ∈ w.lanesServing p, (w.lanes[m]).unwritten ≠ [] := by
  simp only [Works.waitsForRoom, List.any_eq_true, Bool.not_eq_true', List.isEmpty_eq_false_iff]

theorem readyFor_iff (w : Works) (f : FrameBuild) (x : Context) (k : Lane) : w.readyFor f x k = true ↔
    (k.state = .working ∧ k.composed = false ∧ k.nextStrip = f.kinds.length ∧ k.nextStrip < x.strips) ∧
      ∀ m ∈ w.lanesServing x.panel, (w.lanes[m]).unwritten = [] := by
  have written : w.waitsForRoom x.panel = false ↔ ∀ m ∈ w.lanesServing x.panel, (w.lanes[m]).unwritten = [] := by
    rw [← Bool.not_eq_true, waitsForRoom_iff]
    push Not
    rfl
  rw [Works.readyFor, Bool.and_eq_true, decide_eq_true_eq, Bool.not_eq_true', written]

section
variable {w : Works} {n first : LaneId} {x : Context} {f : FrameBuild} {q : Panel} (c : Content)
  (context : (w.lanes[n]).context = some x) (holder : w.holder n = first) (frame : (w.lanes[first]).frame = some f)
  (opening : (w.lanes[first]).context = some x) (defined : w.panels[x.panel] = some q)

/-- The works once a lane has composed its next strip, or its half of it (R110, R111). -/
def Works.composing (w : Works) (n first : LaneId) (c : Content) (q : Panel) (x : Context) : Works :=
  w.mapLane n (Lane.fill (composeFor c q x (decide (first ≠ n)) (w.lanes[n]).nextStrip))

include context holder frame opening defined

theorem stripStep_waits (waits : ¬ w.readyFor f x w.lanes[n] = true) : stripStep n c w = w := by
  simp only [stripStep, context, holder, frame, opening, defined, if_neg waits]

variable (ready : w.readyFor f x w.lanes[n] = true)
include ready

theorem stripStep_single (partner : (w.lanes[n]).partner = none) : stripStep n c w =
    (w.composing n first c q x).decideStrip n none x f (w.lanes[first]).work (w.lanes[n]).nextStrip := by
  simp only [stripStep, context, holder, frame, opening, defined, if_pos ready, partner]
  rfl

theorem stripStep_firstHalf {m : LaneId} (partner : (w.lanes[n]).partner = some m)
    (other : (w.lanes[m]).composed = false) :
    stripStep n c w = w.composing n first c q x := by
  simp only [stripStep, context, holder, frame, opening, defined, if_pos ready, partner, other, Bool.false_eq_true,
    if_false]
  rfl

theorem stripStep_secondHalf {m : LaneId} (partner : (w.lanes[n]).partner = some m)
    (other : (w.lanes[m]).composed = true) :
    stripStep n c w = (w.composing n first c q x).decideStrip first (some (if first = n then m else n)) x f
      (w.lanes[first]).work (w.lanes[n]).nextStrip := by
  simp only [stripStep, context, holder, frame, opening, defined, if_pos ready, partner, other, if_true]
  rfl

end

/-! ## A strip decided (R110, R111, R147, R150, R153) -/

/-- A lane with the code of its strip, or of its half of it, to write. -/
def Lane.decided (code : List Byte) (k : Lane) : Lane := { k with composed := false, unwritten := code }

/-- The lane that opens a strip block, with the frame under construction as the decision leaves it. -/
def Lane.opening (code : List Byte) (g : FrameBuild) (k : Lane) : Lane := { k.decided code with frame := some g }

section
variable {w : Works} {x : Context} {g : FrameBuild}

/-- A lane whose record has changed, but for its panel and its state, goes on writing. -/
theorem resume_changed {n : LaneId} {k : Lane} (partner : k.partner = none) (context : k.context = some x)
    (frame : k.frame = some g) (same : sameHold k w.lanes[n]) (serving : w.lanesServing x.panel = [n]) :
    Works.resume x.panel { w with lanes := w.lanes.set n k } =
      let link := w.links[x.link]
      let room := 1024 - link.fifo.length
      let h := g.atRoom (decide (room < k.unwritten.length))
      { w with
        links := w.links.set x.link { link with
          fifo := link.fifo ++ k.unwritten.take room
          frame := link.frame.map (fun r => { r with committed := h.committed }) }
        lanes := w.lanes.set n { k.wrote room g.kinds.length x.strips with frame := some h } } := by
  have own : (w.lanes.set n k)[n] = k := set_getFin_self _ _ _
  refine (resume_single (w := { w with lanes := w.lanes.set n k }) (n := n) (f := g) (own.symm ▸ partner)
    (own.symm ▸ context) (own.symm ▸ frame) ?_).trans ?_
  · exact (lanesServing_congr (sameHold_set same) _).trans serving
  · simp only [own, Vector.set_set]

/-- A pair whose records have changed, but for panel and state, goes on writing. -/
theorem resumePair_changed {j : Fin 4} {ke ko : Lane} (even : ke.partner = some (oddLane j))
    (odd : ko.partner = some (evenLane j)) (evenContext : ke.context = some x) (oddContext : ko.context = some x)
    (frame : ke.frame = some g) (sameEven : sameHold ke w.lanes[evenLane j]) (sameOdd : sameHold ko w.lanes[oddLane j])
    (serving : w.lanesServing x.panel = [evenLane j, oddLane j]) :
    Works.resume x.panel { w with lanes := (w.lanes.set (evenLane j) ke).set (oddLane j) ko } =
      let link := w.links[x.link]
      let room := 1024 - link.fifo.length
      let h := g.atRoom (decide (room < (ke.unwritten ++ ko.unwritten).length))
      { w with
        links := w.links.set x.link { link with
          fifo := link.fifo ++ (ke.unwritten ++ ko.unwritten).take room
          frame := link.frame.map (fun r => { r with committed := h.committed }) }
        lanes := (w.lanes.set (evenLane j) { ke.wrote room g.kinds.length x.strips with frame := some h }).set (oddLane j)
          (Lane.wroteAfter room g.kinds.length x.strips ko ke) } := by
  have apart := evenLane_ne_oddLane j
  have first : ((w.lanes.set (evenLane j) ke).set (oddLane j) ko)[evenLane j] = ke := by
    rw [set_getFin_ne _ _ apart.symm, set_getFin_self]
  have second : ((w.lanes.set (evenLane j) ke).set (oddLane j) ko)[oddLane j] = ko := set_getFin_self _ _ _
  refine (resume_pair (w := { w with lanes := (w.lanes.set (evenLane j) ke).set (oddLane j) ko }) (f := g) apart
    ((holder_paired (first.symm ▸ even)).trans ?_) ((holder_paired (second.symm ▸ odd)).trans ?_)
    (first.symm ▸ evenContext) (second.symm ▸ oddContext) (first.symm ▸ frame) ?_).trans ?_
  · rw [pairOf_even]
  · rw [pairOf_odd]
  · refine (lanesServing_congr (fun m => ?_) _).trans serving
    exact sameHold_trans (sameHold_set ((set_getFin_ne w.lanes ke apart).symm ▸ sameOdd) m) (sameHold_set sameEven m)
  · simp only [first, second, Vector.set_set, set_set_set apart]

end

section
variable {w : Works} {x : Context} {f : FrameBuild} {work : CauseSet} {strip : Nat} {d : Digest}

theorem decideStrip_single {n : LaneId} {bytes code : List Byte} (bytes_eq : stripBytes x.cls (w.lanes[n]).buffer = bytes)
    (digest_eq : digest bytes = d)
    (code_eq : openingCode x.cls strip (stripKind x work f.stagedCandidate strip d) bytes = code)
    (partner : (w.lanes[n]).partner = none) (context : (w.lanes[n]).context = some x)
    (serving : w.lanesServing x.panel = [n]) : w.decideStrip n none x f work strip =
      let link := w.links[x.link]
      let room := 1024 - link.fifo.length
      let g := f.decideStrip x work strip d
      let h := g.atRoom (decide (room < code.length))
      { w with
        links := w.links.set x.link { link with
          fifo := link.fifo ++ code.take room
          frame := link.frame.map (fun r => { r with committed := h.committed }) }
        lanes := w.lanes.set n
          { ((w.lanes[n]).opening code g).wrote room g.kinds.length x.strips with frame := some h } } := by
  have decides : w.decideStrip n none x f work strip =
      (w.mapLane n (Lane.opening code (f.decideStrip x work strip d))).resume x.panel := by
    subst bytes_eq digest_eq code_eq
    simp only [Works.decideStrip, List.append_nil]
    rfl
  rw [decides]
  exact resume_changed (k := (w.lanes[n]).opening code _) partner context rfl ⟨rfl, rfl⟩ serving

theorem decideStrip_pair {j : Fin 4} {a b codeA codeB : List Byte}
    (a_eq : stripBytes x.cls (w.lanes[evenLane j]).buffer = a) (b_eq : stripBytes x.cls (w.lanes[oddLane j]).buffer = b)
    (digest_eq : digest (a ++ b) = d)
    (codeA_eq : openingCode x.cls strip (stripKind x work f.stagedCandidate strip d) a = codeA)
    (codeB_eq : closingCode x.cls (stripKind x work f.stagedCandidate strip d) b = codeB)
    (even : (w.lanes[evenLane j]).partner = some (oddLane j)) (odd : (w.lanes[oddLane j]).partner = some (evenLane j))
    (evenContext : (w.lanes[evenLane j]).context = some x) (oddContext : (w.lanes[oddLane j]).context = some x)
    (serving : w.lanesServing x.panel = [evenLane j, oddLane j]) :
    w.decideStrip (evenLane j) (some (oddLane j)) x f work strip =
      let ke := w.lanes[evenLane j]
      let ko := w.lanes[oddLane j]
      let link := w.links[x.link]
      let room := 1024 - link.fifo.length
      let g := f.decideStrip x work strip d
      let h := g.atRoom (decide (room < (codeA ++ codeB).length))
      { w with
        links := w.links.set x.link { link with
          fifo := link.fifo ++ (codeA ++ codeB).take room
          frame := link.frame.map (fun r => { r with committed := h.committed }) }
        lanes := (w.lanes.set (evenLane j)
            { (ke.opening codeA g).wrote room g.kinds.length x.strips with frame := some h }).set (oddLane j)
          (Lane.wroteAfter room g.kinds.length x.strips (ko.decided codeB) (ke.opening codeA g)) } := by
  have decides : w.decideStrip (evenLane j) (some (oddLane j)) x f work strip =
      ((w.mapLane (evenLane j) (Lane.opening codeA (f.decideStrip x work strip d))).mapLane (oddLane j)
        (Lane.decided codeB)).resume x.panel := by
    subst a_eq b_eq digest_eq codeA_eq codeB_eq
    rfl
  rw [decides, mapLane_pair]
  exact resumePair_changed (ke := (w.lanes[evenLane j]).opening codeA _) (ko := (w.lanes[oddLane j]).decided codeB) even odd
    evenContext oddContext rfl ⟨rfl, rfl⟩ ⟨rfl, rfl⟩ serving

end

end Sys2Proof.Machine
end

section
/-! STRIP settled, on one lane and on a pair (R110, R111, R125, R135, R147, R150, R151, R153). -/

namespace Sys2Proof.Machine

theorem strip_leaves {n : LaneId} {s : State} {w : Works} (h : stripStep n s.content s.delivery.works = w) :
    LeavesWorks (.strip n) s w := leavesWorks_of_works (fun c => stripStep n c) rfl h

/-! ## A lane composes (R110, R111, R125) -/

section
variable {w : Works} {n first : LaneId} {c : Content} {q : Panel} {x : Context}

theorem composing_lanes : (w.composing n first c q x).lanes =
    w.lanes.set n ((w.lanes[n]).fill (composeFor c q x (decide (first ≠ n)) (w.lanes[n]).nextStrip)) := rfl

theorem composing_serving (p : PanelId) : (w.composing n first c q x).lanesServing p = w.lanesServing p :=
  lanesServing_congr (sameHold_set (k := (w.lanes[n]).fill _) ⟨rfl, rfl⟩) p

theorem composeFor_whole (strip : Nat) : composeFor c q x (decide (n ≠ n)) strip =
    composeColumns c q strip 0 (if x.cls = .wide then x.width / 2 else x.width) := by
  unfold composeFor
  cases x.cls <;> simp

theorem composeFor_half (wide : x.cls = .wide) (odd : Bool) (strip : Nat) :
    composeFor c q x odd strip = composeColumns c q strip (if odd then x.width / 2 else 0) (x.width / 2) := by
  simp only [composeFor, wide]

end

/-! ## The frame and the strip field of a lane once a strip is decided (R110, R150, R153) -/

theorem decideStrip_atRoom {x : Context} {work : CauseSet} {strip : Nat} {d : Digest} {f : FrameBuild} {would : Bool}
    (h : wouldKeepStrip x work strip d = would) (full : Bool) : (f.decideStrip x work strip d).atRoom full =
      let commits := f.committed || !would
      let late := f.stagedCandidate && !commits && full
      { f with
        committed := commits || late
        digests := f.digests ++ [d]
        kinds := f.kinds ++ [if would && !f.stagedCandidate then .keep else .coded]
        wouldKeep := f.wouldKeep && (would || !f.stagedCandidate) && !late } := by
  subst h
  rfl

/-- The next strip field of a lane that writes the strip just decided (R110). -/
theorem nextStrip_decided {f : FrameBuild} {n : Nat} (own : n = f.kinds.length) (x : Context) (work : CauseSet)
    (strip : Nat) (d : Digest) (fits : Prop) [Decidable fits] (strips : Nat) :
    (if fits then nextStripAfter (f.decideStrip x work strip d).kinds.length strips n else n) =
      if fits ∧ n + 1 < strips then n + 1 else n := by
  have next : n < (f.decideStrip x work strip d).kinds.length := by
    rw [FrameBuild.decideStrip, List.length_append, own]
    exact Nat.lt_succ_self _
  rw [nextStrip_wrote]
  simp only [next, true_and]

section
variable {w : Works} {c : Content} {x : Context} {f : FrameBuild} {q : Panel} {would : Bool} {d : Digest}
  (defined : w.panels[x.panel] = some q)
include defined

/-- A single lane composes, decides and writes its next strip (R110, R150, R153). -/
theorem stripStep_writes {n : LaneId} {columns : List (List Nat)} {bytes code : List Byte} {room : Nat}
    (working : (w.lanes[n]).state = .working) (partner : (w.lanes[n]).partner = none)
    (context : (w.lanes[n]).context = some x) (frame : (w.lanes[n]).frame = some f)
    (serving : w.lanesServing x.panel = [n]) (uncomposed : (w.lanes[n]).composed = false)
    (written : (w.lanes[n]).unwritten = []) (own : (w.lanes[n]).nextStrip = f.kinds.length)
    (last : (w.lanes[n]).nextStrip < x.strips)
    (columns_eq : composeColumns c q (w.lanes[n]).nextStrip 0 (if x.cls = .wide then x.width / 2 else x.width) = columns)
    (bytes_eq : stripBytes x.cls columns = bytes) (digest_eq : digest bytes = d)
    (decided : wouldKeepStrip x (w.lanes[n]).work (w.lanes[n]).nextStrip d = would)
    (code_eq : (if would && !f.stagedCandidate then [BitVec.ofNat 8 (w.lanes[n]).nextStrip]
      else BitVec.ofNat 8 (128 + (w.lanes[n]).nextStrip) :: laneCode x.cls bytes) = code)
    (room_eq : 1024 - (w.links[x.link]).fifo.length = room) :
    stripStep n c w =
      let k := w.lanes[n]
      let link := w.links[x.link]
      let commits := f.committed || !would
      let late := f.stagedCandidate && !commits && decide (room < code.length)
      { w with
        links := w.links.set x.link { link with
          fifo := link.fifo ++ code.take room
          frame := link.frame.map (fun r => { r with committed := commits || late }) }
        lanes := w.lanes.set n { k with
          nextStrip := if code.length ≤ room ∧ k.nextStrip + 1 < x.strips then k.nextStrip + 1 else k.nextStrip
          frame := some { f with
            committed := commits || late
            digests := f.digests ++ [d]
            kinds := f.kinds ++ [if would && !f.stagedCandidate then .keep else .coded]
            wouldKeep := f.wouldKeep && (would || !f.stagedCandidate) && !late }
          buffer := columns
          unwritten := code.drop room } } := by
  have holder : w.holder n = n := holder_single partner
  have ready : w.readyFor f x w.lanes[n] = true := by
    refine (readyFor_iff w f x _).2 ⟨⟨working, uncomposed, own, last⟩, ?_⟩
    rw [serving]
    exact fun m mem => List.mem_singleton.1 mem ▸ written
  have lanes : (w.composing n n c q x).lanes = w.lanes.set n ((w.lanes[n]).fill columns) := by
    rw [composing_lanes, composeFor_whole, columns_eq]
  have links : (w.composing n n c q x).links = w.links := rfl
  have written_code : openingCode x.cls (w.lanes[n]).nextStrip
      (stripKind x (w.lanes[n]).work f.stagedCandidate (w.lanes[n]).nextStrip d) bytes = code := by
    rw [stripKind, decided, openingCode_eq, code_eq]
  refine ((stripStep_single c context holder frame context defined ready partner).trans
    (decideStrip_single (bytes := bytes) (d := d) ?_ digest_eq written_code ?_ ?_ ?_)).trans ?_
  · rw [lanes, set_getFin_self]
    exact bytes_eq
  · rw [lanes, set_getFin_self]
    exact partner
  · rw [lanes, set_getFin_self]
    exact context
  · rw [composing_serving, serving]
  · simp only [lanes, links, set_getFin_self, Vector.set_set, room_eq, decideStrip_atRoom decided, Lane.wrote, Lane.opening,
      Lane.decided, Lane.fill_nextStrip, nextStrip_decided own, uncomposed]
    rfl

end

/-- Settles O48: what is drawn by `brushes_foldl`, which rests on `placardRuns_paint`; how a single lane decides and writes
its strip by `stripStep_writes`. -/
theorem stripIsComposedDecidedAndWritten : Obligations.StripIsComposedDecidedAndWritten := by
  unfold Obligations.StripIsComposedDecidedAndWritten
  refine ⟨fun f g => ?_, fun c q strip left count => ?_, ?_⟩
  · exact ⟨fun _ => drawn_present, drawn_absent, fun _ => drawnWidth_of_drawn, drawnWidth_undrawn,
      fun _ _ _ _ => bit_of_region⟩
  · refine ⟨composeColumns_length c q strip left count, fun _ => composeColumns_height, ?_⟩
    intro k r isContent inStrip inColumn content
    exact (composeColumns_pixel inStrip inColumn).trans (congrArg some (brushes_foldl content))
  · intro n x f q would s w k strip columns bytes d kept code link room commits late working partner context frame defined
      serving uncomposed written own last test
    exact strip_leaves (stripStep_writes defined working partner context frame serving uncomposed written own last rfl
      rfl rfl (wouldKeepStrip_eq test) rfl rfl)

end Sys2Proof.Machine
end

section
/-! STRIP settled on a pair (R111, R125, R135, R147, R150, R151). -/

namespace Sys2Proof.Machine

/-- The works of a pair that serves a panel of its context, the even lane with the frame (R97, R149). -/
structure PairServes (j : Fin 4) (x : Context) (f : FrameBuild) (q : Panel) (w : Works) : Prop where
  even : (w.lanes[evenLane j]).partner = some (oddLane j)
  odd : (w.lanes[oddLane j]).partner = some (evenLane j)
  evenContext : (w.lanes[evenLane j]).context = some x
  oddContext : (w.lanes[oddLane j]).context = some x
  frame : (w.lanes[evenLane j]).frame = some f
  defined : w.panels[x.panel] = some q
  serving : w.lanesServing x.panel = [evenLane j, oddLane j]

namespace PairServes

variable {j : Fin 4} {x : Context} {f : FrameBuild} {q : Panel} {w : Works} (pair : PairServes j x f q w)
include pair

theorem holder_eq {n : LaneId} (which : n = evenLane j ∨ n = oddLane j) : w.holder n = evenLane j := by
  rcases which with rfl | rfl
  · rw [holder_paired pair.even, pairOf_even]
  · rw [holder_paired pair.odd, pairOf_odd]

theorem context_eq {n : LaneId} (which : n = evenLane j ∨ n = oddLane j) : (w.lanes[n]).context = some x := by
  rcases which with rfl | rfl
  · exact pair.evenContext
  · exact pair.oddContext

/-- A lane of the pair is ready for a strip once both have written their code (R111). -/
theorem ready_iff (k : Lane) : w.readyFor f x k = true ↔
    (k.state = .working ∧ k.composed = false ∧ k.nextStrip = f.kinds.length ∧ k.nextStrip < x.strips) ∧
      (w.lanes[evenLane j]).unwritten = [] ∧ (w.lanes[oddLane j]).unwritten = [] := by
  rw [readyFor_iff, pair.serving]
  simp only [List.mem_pair, forall_eq_or_imp, forall_eq]

theorem waits {n : LaneId} (which : n = evenLane j ∨ n = oddLane j) (c : Content)
    (notReady : ¬ w.readyFor f x w.lanes[n] = true) : stripStep n c w = w :=
  stripStep_waits c (pair.context_eq which) (pair.holder_eq which) pair.frame pair.evenContext pair.defined notReady

/-- The first half is composed into its lane's own buffer (R111, R125, R135). -/
theorem composesFirst {n m : LaneId} (which : n = evenLane j ∨ n = oddLane j) (c : Content)
    (ready : w.readyFor f x w.lanes[n] = true) (partner : (w.lanes[n]).partner = some m)
    (other : (w.lanes[m]).composed = false) : stripStep n c w = w.composing n (evenLane j) c q x :=
  stripStep_firstHalf c (pair.context_eq which) (pair.holder_eq which) pair.frame pair.evenContext pair.defined ready
    partner other

/-- The second half decides the strip for both lanes (R111, R150). -/
theorem decidesSecond {n m : LaneId} (which : n = evenLane j ∧ m = oddLane j ∨ n = oddLane j ∧ m = evenLane j)
    (c : Content) (ready : w.readyFor f x w.lanes[n] = true) (other : (w.lanes[m]).composed = true) : stripStep n c w =
      (w.composing n (evenLane j) c q x).decideStrip (evenLane j) (some (oddLane j)) x f (w.lanes[evenLane j]).work
        (w.lanes[n]).nextStrip := by
  have either : n = evenLane j ∨ n = oddLane j := which.imp And.left And.left
  have partner : (w.lanes[n]).partner = some m := by
    rcases which with ⟨rfl, rfl⟩ | ⟨rfl, rfl⟩
    · exact pair.even
    · exact pair.odd
  have second : (if evenLane j = n then m else n) = oddLane j := by
    rcases which with ⟨rfl, rfl⟩ | ⟨rfl, rfl⟩
    · exact if_pos rfl
    · exact if_neg (evenLane_ne_oddLane j)
  have decides := stripStep_secondHalf c (pair.context_eq either) (pair.holder_eq either) pair.frame pair.evenContext
    pair.defined ready partner other
  rw [second] at decides
  exact decides

end PairServes

/-! ## Both halves composed (R111, R125, R135) -/

/-- The works with both halves of a strip in the buffers of the pair. -/
def Works.halves (w : Works) (j : Fin 4) (ca cb : List (List Nat)) : Works := { w with
  lanes := (w.lanes.set (evenLane j) ((w.lanes[evenLane j]).fill ca)).set (oddLane j) ((w.lanes[oddLane j]).fill cb) }

theorem fill_own {k : Lane} (composed : k.composed = true) : k.fill k.buffer = k := by
  rw [Lane.fill, ← composed]

section
variable {w : Works} {j : Fin 4} {x : Context} {strip : Nat} (c : Content) (q : Panel) (wide : x.cls = .wide)
include wide

theorem composing_even (own : (w.lanes[evenLane j]).nextStrip = strip) : w.composing (evenLane j) (evenLane j) c q x =
    { w with
      lanes := w.lanes.set (evenLane j)
        ((w.lanes[evenLane j]).fill (composeColumns c q strip 0 (x.width / 2))) } := by
  rw [Works.composing, composeFor_half wide, decide_eq_false (not_not_intro rfl), own]
  rfl

theorem composing_odd (own : (w.lanes[oddLane j]).nextStrip = strip) : w.composing (oddLane j) (evenLane j) c q x =
    { w with
      lanes := w.lanes.set (oddLane j)
        ((w.lanes[oddLane j]).fill (composeColumns c q strip (x.width / 2) (x.width / 2))) } := by
  rw [Works.composing, composeFor_half wide, decide_eq_true (evenLane_ne_oddLane j), own]
  rfl

theorem composing_even_halves (own : (w.lanes[evenLane j]).nextStrip = strip)
    (composed : (w.lanes[oddLane j]).composed = true) : w.composing (evenLane j) (evenLane j) c q x =
      w.halves j (composeColumns c q strip 0 (x.width / 2)) (w.lanes[oddLane j]).buffer := by
  have same (k : Lane) :
      (w.lanes.set (evenLane j) k).set (oddLane j) w.lanes[oddLane j] = w.lanes.set (evenLane j) k := by
    rw [← set_getFin_ne w.lanes k (evenLane_ne_oddLane j), set_self]
  rw [composing_even c q wide own, Works.halves, fill_own composed, same]

theorem composing_odd_halves (own : (w.lanes[oddLane j]).nextStrip = strip)
    (composed : (w.lanes[evenLane j]).composed = true) : w.composing (oddLane j) (evenLane j) c q x =
      w.halves j (w.lanes[evenLane j]).buffer (composeColumns c q strip (x.width / 2) (x.width / 2)) := by
  rw [composing_odd c q wide own, Works.halves, fill_own composed, set_self]

end

/-- The strip of a pair is decided over both halves, and the left half's code goes before the right half's (R111, R147,
R150, R151). -/
theorem PairServes.decides {j : Fin 4} {x : Context} {f : FrameBuild} {q : Panel} {w : Works}
    (pair : PairServes j x f q w) (wide : x.cls = .wide) {ca cb : List (List Nat)} {a b codeA codeB : List Byte}
    {d : Digest} {would : Bool} {room : Nat}
    (a_eq : stripBytes .wide ca = a) (b_eq : stripBytes .wide cb = b) (digest_eq : digest (a ++ b) = d)
    (decided : wouldKeepStrip x (w.lanes[evenLane j]).work f.kinds.length d = would)
    (codeA_eq : (if would && !f.stagedCandidate then [BitVec.ofNat 8 f.kinds.length]
      else BitVec.ofNat 8 (128 + f.kinds.length) :: segmentCode a) = codeA)
    (codeB_eq : (if would && !f.stagedCandidate then [] else segmentCode b) = codeB)
    (room_eq : 1024 - (w.links[x.link]).fifo.length = room)
    (ownEven : (w.lanes[evenLane j]).nextStrip = f.kinds.length)
    (ownOdd : (w.lanes[oddLane j]).nextStrip = f.kinds.length) :
    (w.halves j ca cb).decideStrip (evenLane j) (some (oddLane j)) x f (w.lanes[evenLane j]).work f.kinds.length =
      let ke := w.lanes[evenLane j]
      let ko := w.lanes[oddLane j]
      let strip := f.kinds.length
      let link := w.links[x.link]
      let commits := f.committed || !would
      let late := f.stagedCandidate && !commits && decide (room < codeA.length + codeB.length)
      { w with
        links := w.links.set x.link { link with
          fifo := link.fifo ++ (codeA ++ codeB).take room
          frame := link.frame.map (fun r => { r with committed := commits || late }) }
        lanes := (w.lanes.set (evenLane j) { ke with
          nextStrip := if codeA.length ≤ room ∧ strip + 1 < x.strips then strip + 1 else strip
          frame := some { f with
            committed := commits || late
            digests := f.digests ++ [d]
            kinds := f.kinds ++ [if would && !f.stagedCandidate then .keep else .coded]
            wouldKeep := f.wouldKeep && (would || !f.stagedCandidate) && !late }
          buffer := ca
          composed := false
          unwritten := codeA.drop room }).set (oddLane j) { ko with
          nextStrip := if codeA.length + codeB.length ≤ room ∧ strip + 1 < x.strips then strip + 1 else strip
          buffer := cb
          composed := false
          unwritten := codeB.drop (room - codeA.length) } } := by
  have apart := evenLane_ne_oddLane j
  have first : ((w.lanes.set (evenLane j) ((w.lanes[evenLane j]).fill ca)).set (oddLane j)
      ((w.lanes[oddLane j]).fill cb))[evenLane j] = (w.lanes[evenLane j]).fill ca := by
    rw [set_getFin_ne _ _ apart.symm, set_getFin_self]
  have opens : openingCode x.cls f.kinds.length
      (stripKind x (w.lanes[evenLane j]).work f.stagedCandidate f.kinds.length d) a = codeA := by
    rw [stripKind, decided, openingCode_eq, wide, laneCode_wide, codeA_eq]
  have closes : closingCode x.cls
      (stripKind x (w.lanes[evenLane j]).work f.stagedCandidate f.kinds.length d) b = codeB := by
    rw [stripKind, decided, closingCode_eq, wide, laneCode_wide, codeB_eq]
  rw [Works.halves]
  refine (decideStrip_pair (a := a) (b := b) (d := d) ?_ ?_ digest_eq opens closes (first.symm ▸ pair.even) ?_
    (first.symm ▸ pair.evenContext) ?_ ?_).trans ?_
  · rw [first, wide]
    exact a_eq
  · rw [set_getFin_self, wide]
    exact b_eq
  · rw [set_getFin_self]
    exact pair.odd
  · rw [set_getFin_self]
    exact pair.oddContext
  · refine (lanesServing_congr (fun m => ?_) _).trans pair.serving
    refine sameHold_trans (sameHold_set ?_ m) (sameHold_set (k := (w.lanes[evenLane j]).fill ca) ⟨rfl, rfl⟩ m)
    rw [set_getFin_ne _ _ apart]
    exact ⟨rfl, rfl⟩
  · simp only [first, set_getFin_self, Lane.fill_nextStrip, room_eq, decideStrip_atRoom decided, List.length_append,
      Lane.wrote, Lane.wroteAfter, Lane.opening, Lane.decided, ownEven, ownOdd, nextStrip_decided rfl, Vector.set_set,
      set_set_set apart]
    rfl

/-- Settles O49: a lane that waits by `PairServes.waits`, the first half by `PairServes.composesFirst`, the second, which
decides the strip, by `PairServes.decidesSecond` and `PairServes.decides`. -/
theorem pairStripWaitsForBothHalves : Obligations.PairStripWaitsForBothHalves := by
  unfold Obligations.PairStripWaitsForBothHalves
  intro j x f q would s w e o ke ko strip workingEven workingOdd even odd evenContext oddContext frame defined serving
    wide left right
  have pair : PairServes j x f q w := ⟨even, odd, evenContext, oddContext, frame, defined, serving⟩
  have waits (n : LaneId) (which : n = e ∨ n = o) (notReady : ¬ w.readyFor f x w.lanes[n] = true) :
      LeavesWorks (.strip n) s w := strip_leaves (pair.waits which s.content notReady)
  refine ⟨fun code => ?_, fun composed => waits e (.inl rfl) ?_, fun composed => waits o (.inr rfl) ?_, ?_⟩
  · have unready (k : Lane) : ¬ w.readyFor f x k = true := fun ready => by
      obtain ⟨-, writtenEven, writtenOdd⟩ := (pair.ready_iff k).1 ready
      exact code.elim (· writtenEven) (· writtenOdd)
    exact ⟨waits e (.inl rfl) (unready _), waits o (.inr rfl) (unready _)⟩
  · exact fun ready => by
      obtain ⟨⟨-, uncomposed, -⟩, -⟩ := (pair.ready_iff ke).1 ready
      cases composed.symm.trans uncomposed
  · exact fun ready => by
      obtain ⟨⟨-, uncomposed, -⟩, -⟩ := (pair.ready_iff ko).1 ready
      cases composed.symm.trans uncomposed
  · intro writtenEven writtenOdd ownEven ownOdd last
    have readyEven (fresh : ke.composed = false) : w.readyFor f x ke = true :=
      (pair.ready_iff ke).2 ⟨⟨workingEven, fresh, ownEven, ownEven ▸ last⟩, writtenEven, writtenOdd⟩
    have readyOdd (fresh : ko.composed = false) : w.readyFor f x ko = true :=
      (pair.ready_iff ko).2 ⟨⟨workingOdd, fresh, ownOdd, ownOdd ▸ last⟩, writtenEven, writtenOdd⟩
    refine ⟨fun freshEven freshOdd => ⟨strip_leaves ?_, strip_leaves ?_⟩, ?_⟩
    · exact (pair.composesFirst (.inl rfl) s.content (readyEven freshEven) even freshOdd).trans
        (composing_even s.content q wide ownEven)
    · exact (pair.composesFirst (.inr rfl) s.content (readyOdd freshOdd) odd freshEven).trans
        (composing_odd s.content q wide ownOdd)
    · intro n ca cb second a b d kept codeA codeB link room commits late test
      have writes := pair.decides wide (ca := ca) (cb := cb) rfl rfl rfl (wouldKeepStrip_eq test) rfl rfl rfl ownEven
        ownOdd
      refine strip_leaves (Eq.trans ?_ writes)
      rcases second with ⟨rfl, composed, fresh, ca_eq, cb_eq⟩ | ⟨rfl, fresh, composed, ca_eq, cb_eq⟩
      · rw [pair.decidesSecond (.inr ⟨rfl, rfl⟩) s.content (readyOdd fresh) composed,
          composing_odd_halves s.content q wide ownOdd composed, ca_eq, cb_eq, ownOdd]
      · rw [pair.decidesSecond (.inl ⟨rfl, rfl⟩) s.content (readyEven fresh) composed,
          composing_even_halves s.content q wide ownEven composed, ca_eq, cb_eq, ownEven]

end Sys2Proof.Machine
end

section
/-! One ms on an empty queue settled (R110, R158, R163). -/

namespace Sys2Proof.Machine

/-! ## What the passing of a ms leaves as it was -/

/-- The works `w` differ from `v` in what lanes have written and links have sent alone: panels, rotation and time base are
the same, lanes are in the same states, links in the same states with the same lines and probe pointers. -/
structure OnlySends (v w : Works) : Prop where
  panels : w.panels = v.panels
  rotation : w.rotation = v.rotation
  now : w.now = v.now
  lane : ∀ n : LaneId, (w.lanes[n]).state = (v.lanes[n]).state
  link : ∀ l : LinkId, (w.links[l]).state = (v.links[l]).state ∧ (w.links[l]).line = (v.links[l]).line ∧
    (w.links[l]).probePointer = (v.links[l]).probePointer

theorem onlySends_refl (v : Works) : OnlySends v v := ⟨rfl, rfl, rfl, fun _ => rfl, fun _ => ⟨rfl, rfl, rfl⟩⟩

section
variable {v w : Works} (h : OnlySends v w)
include h

theorem onlySends_mapLane {f : Lane → Lane} (state : ∀ k, (f k).state = k.state) (n : LaneId) :
    OnlySends v (w.mapLane n f) := by
  obtain ⟨panels, rotation, now, lane, link⟩ := h
  refine ⟨panels, rotation, now, fun m => ?_, link⟩
  rw [Works.mapLane_lanes, modifyAt_getFin]
  split
  · next e => rw [state, e, lane]
  · exact lane m

theorem onlySends_setLink {l : LinkId} {k : Link} (state : k.state = (w.links[l]).state)
    (line : k.line = (w.links[l]).line) (pointer : k.probePointer = (w.links[l]).probePointer) : OnlySends v (w.setLink l k) := by
  obtain ⟨panels, rotation, now, lane, link⟩ := h
  refine ⟨panels, rotation, now, lane, fun m => ?_⟩
  rw [Works.setLink_links, set_getFin]
  split
  · next e =>
    rw [state, line, pointer, e]
    exact link m
  · exact link m

theorem writeLane_onlySends (n : LaneId) : OnlySends v (w.writeLane n) := by
  unfold Works.writeLane
  simp only []
  split
  · exact h
  · refine onlySends_mapLane (onlySends_setLink h ?_ ?_ ?_) (fun _ => ?_) n <;> rfl

theorem writeInOrder_onlySends (ns : List LaneId) : OnlySends v (writeInOrder ns w) := by
  induction ns generalizing w with
  | nil => exact h
  | cons n ns ih =>
    unfold writeInOrder
    split
    · exact ih (writeLane_onlySends h n)
    · exact writeLane_onlySends h n

theorem commitWaiting_onlySends (p : PanelId) : OnlySends v (w.commitWaiting p) := by
  unfold Works.commitWaiting
  split
  · exact h
  · split
    · refine onlySends_setLink (onlySends_mapLane h (fun _ => ?_) _) ?_ ?_ ?_ <;> rfl
    · exact h

theorem sendBytes_onlySends (l : LinkId) (n : Nat) : OnlySends v (w.sendBytes l n) := by
  have sent : OnlySends v (w.setLink l { w.links[l] with
      fifo := (w.links[l]).fifo.drop n, sent := (w.links[l]).sent ++ (w.links[l]).fifo.take n }) :=
    onlySends_setLink h rfl rfl rfl
  unfold Works.sendBytes
  simp only []
  split
  · split
    · exact sent
    · exact commitWaiting_onlySends (writeInOrder_onlySends sent _) _
  · exact h

theorem linkMs_onlySends (l : LinkId) : OnlySends v (w.linkMs l) := by
  unfold Works.linkMs
  simp only []
  split
  · refine sendBytes_onlySends (onlySends_setLink h ?_ ?_ ?_) l _ <;> rfl
  · exact h

end

theorem passMs_onlySends (w : Works) : OnlySends { w with now := w.now + 1 } w.passMs :=
  foldl_keeps (OnlySends { w with now := w.now + 1 }) Works.linkMs (fun _ l h => linkMs_onlySends h l) _ _
    (onlySends_refl _)

/-! ## No selection follows (R99) -/

section
variable {v w : Works} (panels : w.panels = v.panels) (later : v.now ≤ w.now)
include panels later

/-- A probe that is due stays due as time passes (R167). -/
theorem dueProbe_stays {l : LinkId} (pointer : (w.links[l]).probePointer = (v.links[l]).probePointer)
    (undue : w.dueProbe l = none) : v.dueProbe l = none := by
  have places : w.panelAt l = v.panelAt l := funext fun drop => by simp only [Works.panelAt, Works.panelList, panels]
  rw [dueProbe_eq, List.findSome?_eq_none_iff] at undue ⊢
  intro i mem
  have found := undue i mem
  rw [pointer, places, Option.filter_eq_none_iff] at found
  refine Option.filter_eq_none_iff.2 fun x at_drop due => found x at_drop ?_
  obtain ⟨offline, u, moment, reached⟩ := (probeIsDue_iff _ _).1 due
  exact (probeIsDue_iff _ _).2 ⟨offline, u, moment, reached.trans later⟩

/-- Time that passes makes no panel eligible (R98, R167). -/
theorem eligible_before (link : ∀ l : LinkId, (w.links[l]).state = (v.links[l]).state ∧
      (w.links[l]).line = (v.links[l]).line ∧ (w.links[l]).probePointer = (v.links[l]).probePointer)
    {c : Content} {gs : Vector Group 8} {p : PanelId} (able : eligible c gs w p = true) : eligible c gs v p = true := by
  obtain ⟨q, defined, ready, holdoff, opened, may⟩ := (eligible_iff c gs w p).1 able
  refine (eligible_iff c gs v p).2 ⟨q, panels ▸ defined, ready, holdoff, ?_, may⟩
  obtain ⟨idle, undue⟩ := (linkOpen_iff w q.link).1 opened
  obtain ⟨state, line, pointer⟩ := link q.link
  exact (linkOpen_iff v q.link).2 ⟨state.symm.trans idle, fun shows =>
    dueProbe_stays panels later pointer (undue (line.trans shows))⟩

end

theorem laneTriggers_passMs (w : Works) : laneTriggers w w.passMs = 0 := by
  obtain ⟨-, -, -, lane, -⟩ := passMs_onlySends w
  rw [laneTriggers_eq, List.length_eq_zero_iff, List.filter_eq_nil_iff]
  intro n _ triggers
  exact (of_decide_eq_true triggers).1 (lane n)

theorem panelTriggers_passMs (c : Content) (gs : Vector Group 8) (w : Works) :
    panelTriggers c c gs gs w w.passMs = 0 := by
  obtain ⟨panels, -, now, -, link⟩ := passMs_onlySends w
  have later : w.now ≤ w.passMs.now := by rw [now]; exact Nat.le_succ w.now
  rw [panelTriggers_eq, List.length_eq_zero_iff, List.filter_eq_nil_iff]
  intro p _ triggers
  obtain ⟨able, unable | ⟨urgent, calm⟩⟩ := of_decide_eq_true triggers
  · exact Bool.false_ne_true (unable.symm.trans (eligible_before (v := w) panels later link able))
  · rw [panels] at urgent
    exact Bool.false_ne_true (calm.symm.trans urgent)

theorem claimTriggers_passMs (w : Works) : claimTriggers w w.passMs = 0 := by
  obtain ⟨-, rotation, -⟩ := passMs_onlySends w
  rw [claimTriggers_eq, rotation]
  exact if_neg fun ⟨⟨claimed, unclaimed⟩, _⟩ => claimed unclaimed

/-- What a step on an empty queue answers: no selection follows the ms. -/
theorem tick_eq (s : State) :
    tick s = .next { s with delivery := { s.delivery with works := s.delivery.works.passMs } } := by
  rw [tick, event]
  have settled : settleDelivery s.content s.delivery s.content (s.delivery.mapWorks Works.passMs) =
      { s.delivery with works := s.delivery.works.passMs } := by
    unfold settleDelivery
    simp only [Delivery.mapWorks, laneTriggers_passMs, panelTriggers_passMs, claimTriggers_passMs, Nat.add_zero,
      runSelections_none]
  rw [settled]

/-! ## The bytes of a ms (R158) -/

/-- The bytes whose turn comes within a ms, as a quotient rounded up. -/
theorem bytesInMs_eq (k : Link) : k.bytesInMs =
    let bytes := if k.divider = 0 then 0 else (5000 - k.busy + k.divider - 1) / k.divider
    (bytes, if k.divider = 0 then 0 else k.busy + bytes * k.divider - 5000) := by
  unfold Link.bytesInMs unitsPerMs
  by_cases stopped : k.divider = 0
  · simp only [stopped, if_true]
  · by_cases busy : 5000 ≤ k.busy
    · have none : (5000 - k.busy + k.divider - 1) / k.divider = 0 := Nat.div_eq_of_lt (by omega)
      simp only [stopped, busy, none, if_true, if_false, Nat.zero_mul, Nat.add_zero]
    · simp only [stopped, busy, if_false]

/-- That many bytes, and no fewer, fill the ms from the line time left to the next byte. -/
theorem bytes_fill_ms {busy n : Nat} (positive : n ≠ 0) : 5000 ≤ busy + (5000 - busy + n - 1) / n * n ∧
    ∀ m < (5000 - busy + n - 1) / n, busy + m * n < 5000 := by
  have pos : 0 < n := Nat.pos_of_ne_zero positive
  constructor
  · have whole := Nat.div_add_mod (5000 - busy + n - 1) n
    have rest := Nat.mod_lt (5000 - busy + n - 1) pos
    rw [Nat.mul_comm] at whole
    omega
  · intro m below
    have reach := (Nat.le_div_iff_mul_le pos).1 (Nat.succ_le_of_lt below)
    rw [Nat.succ_mul] at reach
    omega

/-- The link of a frame after a ms, before the lanes of its panel go on writing (R110, R163). -/
def Link.afterMs (k : Link) : Link := { k with
  fifo := k.fifo.drop k.bytesInMs.1
  sent := k.sent ++ k.fifo.take k.bytesInMs.1
  busy := k.bytesInMs.2 }

/-- A link that transmits no frame sends nothing (R163). -/
theorem linkMs_silent {w : Works} {l : LinkId}
    (silent : ¬((w.links[l]).state = .streaming ∧ (w.links[l]).line = .frame)) : w.linkMs l = w := if_neg silent

section
variable {w : Works} {l : LinkId} (state : (w.links[l]).state = .streaming) (line : (w.links[l]).line = .frame)
include state line

theorem linkMs_unframed (frame : (w.links[l]).frame = none) : w.linkMs l = w.setLink l (w.links[l]).afterMs := by
  simp only [Works.linkMs, Works.sendBytes, setLink_same, setLink_setLink, Link.afterMs, state, line, frame, and_self,
    if_true]

theorem linkMs_framed {r : FrameRecord} (frame : (w.links[l]).frame = some r) :
    w.linkMs l = (w.setLink l (w.links[l]).afterMs).resume r.panel := by
  simp only [Works.linkMs, Works.sendBytes, setLink_same, setLink_setLink, Link.afterMs, state, line, frame, and_self,
    if_true]

end

/-- Settles O2: the bytes of a ms by `bytesInMs_eq` and `bytes_fill_ms`; that no selection follows by `tick_eq`, and what
stays as it was by `passMs_onlySends`. -/
theorem emptyQueueLetsOneMillisecondPass : Obligations.EmptyQueueLetsOneMillisecondPass := by
  unfold Obligations.EmptyQueueLetsOneMillisecondPass
  intro bytes sends
  have sends_eq (w : Works) (l : LinkId) : w.linkMs l = sends w l := by
    have link_eq (k : Link) : k.afterMs = { k with
        fifo := k.fifo.drop (bytes k)
        sent := k.sent ++ k.fifo.take (bytes k)
        busy := if k.divider = 0 then 0 else k.busy + bytes k * k.divider - 5000 } := by
      rw [Link.afterMs, bytesInMs_eq]
    simp only [sends, ← link_eq]
    split
    · next transmits =>
      obtain ⟨state, line⟩ := transmits
      split
      · next unframed => exact linkMs_unframed state line unframed
      · next r framed => exact linkMs_framed state line framed
    · next silent => exact linkMs_silent silent
  refine ⟨fun k positive => ?_, ?_⟩
  · simp only [bytes, if_neg positive]
    exact bytes_fill_ms positive
  · intro s empty w
    have passes : s.delivery.works.passMs = w := by
      rw [Works.passMs, funext fun w => funext (sends_eq w)]
    obtain ⟨panels, rotation, now, -⟩ := passMs_onlySends s.delivery.works
    rw [← passes]
    refine ⟨?_, now, panels, rotation⟩
    have ticks : step s = tick s := by simp only [step, empty]
    exact ticks.trans (tick_eq s)

end Sys2Proof.Machine
end

section
/-! The commands of the other blocks leave the type store and the tickers alone. -/

namespace Sys2Proof.Machine

/-- The type store and the tickers of `c'` are those of `c`. -/
def Content.sameType (c c' : Content) : Prop := c'.typeStore = c.typeStore ∧ c'.tickers = c.tickers

theorem Content.sameType_refl (c : Content) : c.sameType c := ⟨rfl, rfl⟩

theorem sameType_of_keepsRest {c c' : Content} (h : keepsRest c c') : c.sameType c' := by
  obtain ⟨-, -, store, tickers, -⟩ := h
  exact ⟨store, tickers⟩

/-! ## Departure lists and parameters -/

theorem insertEntry_sameType (l : ListId) (e : Entry) (c : Content) (d : Delivery) :
    c.sameType (insertEntry l e c d).1 := by
  unfold insertEntry
  dsimp only
  repeat' split
  all_goals exact ⟨rfl, rfl⟩

theorem putTrip_sameType (p : PortId) (trip line destination scheduled : Nat) (l : ListId) (c : Content) (d : Delivery) :
    c.sameType (putTrip p trip line destination scheduled l c d).1 := by
  unfold putTrip
  split
  · exact insertEntry_sameType ..
  · exact ⟨rfl, rfl⟩

theorem predictTrip_sameType (p : PortId) (predicted : Nat) (l : ListId) (e : Entry) (c : Content) (d : Delivery) :
    c.sameType (predictTrip p predicted l e c d).1 := by
  unfold predictTrip
  split <;> exact ⟨rfl, rfl⟩

theorem listRequest_sameType (list trip : Nat) (valid : Bool)
    (f : ListId → Content → Delivery → Content × Delivery × Reply) (c : Content) (d : Delivery)
    (h : ∀ l, c.sameType (f l c d).1) : c.sameType (listRequest list trip valid f c d).1 := by
  rcases listRequest_content list trip valid f c d with e | ⟨l, e⟩ <;> rw [e]
  · exact c.sameType_refl
  · exact h l

theorem entryRequest_sameType (list trip : Nat)
    (f : ListId → Entry → Content → Delivery → Content × Delivery × Reply) (c : Content) (d : Delivery)
    (h : ∀ l e, c.sameType (f l e c d).1) : c.sameType (entryRequest list trip f c d).1 := by
  rcases entryRequest_content list trip f c d with e | ⟨l, x, -, e⟩ <;> rw [e]
  · exact c.sameType_refl
  · exact h l x

theorem setDestination_sameType (index : Nat) (text : List Nat) (c : Content) (d : Delivery) :
    c.sameType (setDestination index text c d).1 := by
  unfold setDestination
  repeat' split
  all_goals exact ⟨rfl, rfl⟩

theorem refigureAll_sameType (c : Content) (d : Delivery) : c.sameType (refigureAll c d).1 :=
  foldl_keeps (fun cd : Content × Delivery => c.sameType cd.1) refigureList (fun _ _ h => h) _ _ c.sameType_refl

theorem changeSettings_sameType (pairs : List (Nat × Nat)) (c : Content) (d : Delivery) :
    c.sameType (changeSettings pairs c d).1 := by
  rcases changeSettings_content pairs c d with e | ⟨x, stored, -, e | e⟩ <;> rw [e]
  · exact c.sameType_refl
  · exact ⟨rfl, rfl⟩
  · exact refigureAll_sameType { c with settings := x } d

/-! ## The board -/

theorem postPlacard_sameType (p : PortId) (f : PostReq) (c : Content) (d : Delivery) :
    c.sameType (postPlacard p f c d).1 := by
  unfold postPlacard
  repeat' split
  all_goals exact ⟨rfl, rfl⟩

theorem amendPlacard_sameType (p : PortId) (f : AmendReq) (n : PlacardId) (old : Placard) (c : Content) (d : Delivery) :
    c.sameType (amendPlacard p f n old c d).1 := by
  unfold amendPlacard
  repeat' split
  all_goals exact ⟨rfl, rfl⟩

theorem setText_sameType (p : PortId) (text : List Nat) (n : PlacardId) (old : Placard) (c : Content) (d : Delivery) :
    c.sameType (setText p text n old c d).1 := by
  unfold setText
  dsimp only
  repeat' split
  all_goals exact ⟨rfl, rfl⟩

theorem withdrawPlacard_sameType (p : PortId) (n : PlacardId) (old : Placard) (c : Content) (d : Delivery) :
    c.sameType (withdrawPlacard p n old c d).1 := by
  unfold withdrawPlacard
  dsimp only
  repeat' split
  all_goals exact ⟨rfl, rfl⟩

theorem placardRequest_sameType (number : Nat) (valid : Bool)
    (f : PlacardId → Placard → Content → Delivery → Content × Delivery × Reply) (c : Content) (d : Delivery)
    (h : ∀ n pl, c.sameType (f n pl c d).1) : c.sameType (placardRequest number valid f c d).1 := by
  rcases placardRequest_content number valid f c d with e | ⟨n, pl, -, e⟩ <;> rw [e]
  · exact c.sameType_refl
  · exact h n pl

/-! ## Holds and split requests -/

theorem queueTake_sameType (p : PortId) (h : HoldId) (owner : PortId) (wait : Option (Tag × Nat)) (c : Content)
    (d : Delivery) : c.sameType (queueTake p h owner wait c d).1 := by
  unfold queueTake
  dsimp only
  repeat' split
  all_goals exact ⟨rfl, rfl⟩

theorem takeHold_sameType (p : PortId) (hold : Nat) (wait : Option (Tag × Nat)) (c : Content) (d : Delivery) :
    c.sameType (takeHold p hold wait c d).1 := by
  unfold takeHold
  split
  · exact c.sameType_refl
  · split
    · exact ⟨rfl, rfl⟩
    · split
      · exact c.sameType_refl
      · exact queueTake_sameType ..
    · split
      · exact c.sameType_refl
      · split
        · exact ⟨rfl, rfl⟩
        · exact queueTake_sameType ..

theorem takeRequest_sameType (p : PortId) (tag hold wait : Nat) (c : Content) (d : Delivery) :
    c.sameType (takeRequest p tag hold wait c d).1 := by
  unfold takeRequest
  split
  · exact takeHold_sameType ..
  · rcases taggedRequest_content p tag (fun t => takeHold p hold (some (t, min 60 wait))) c d with e | ⟨t, e⟩ <;> rw [e]
    · exact c.sameType_refl
    · exact takeHold_sameType ..

theorem releaseHold_sameType (h : HoldId) (c : Content) (d : Delivery) : c.sameType (releaseHold h c d).1 := by
  unfold releaseHold
  dsimp only
  split <;> exact ⟨rfl, rfl⟩

theorem releaseRequest_sameType (p : PortId) (hold : Nat) (c : Content) (d : Delivery) :
    c.sameType (releaseRequest p hold c d).1 := by
  unfold releaseRequest
  split
  · exact c.sameType_refl
  · split
    · exact c.sameType_refl
    · exact releaseHold_sameType ..

theorem handHold_sameType (p : PortId) (h : HoldId) (heir : PortId) (c : Content) (d : Delivery) :
    c.sameType (handHold p h heir c d).1 := by
  unfold handHold
  dsimp only
  split <;> exact ⟨rfl, rfl⟩

theorem handoverRequest_sameType (p : PortId) (hold heir : Nat) (c : Content) (d : Delivery) :
    c.sameType (handoverRequest p hold heir c d).1 := by
  unfold handoverRequest
  split
  · split
    · exact c.sameType_refl
    · split
      · exact c.sameType_refl
      · exact handHold_sameType ..
  · exact c.sameType_refl

theorem setupHold_sameType (hold limit group : Nat) (c : Content) (d : Delivery) :
    c.sameType (setupHold hold limit group c d).1 := by
  unfold setupHold
  repeat' split
  all_goals exact ⟨rfl, rfl⟩

theorem expireHold_sameType (h : HoldId) (c : Content) (d : Delivery) : c.sameType (expireHold h c d).1 := by
  unfold expireHold
  split
  · exact releaseHold_sameType ..
  · exact c.sameType_refl

theorem endWait_sameType (h : HoldId) (x : Waiter) (o : CompletionOutcome) (body : List Byte) (c : Content)
    (d : Delivery) : c.sameType (endWait h x o body c d).1 := ⟨rfl, rfl⟩

theorem cancelSplit_sameType (p : PortId) (tag : Nat) (c : Content) (d : Delivery) :
    c.sameType (cancelSplit p tag c d).1 := by
  unfold cancelSplit cancelWait
  repeat' split
  all_goals exact ⟨rfl, rfl⟩

/-! ## The requests of the type store and of the tickers -/

theorem setToken_fonts (token : Nat) (text : List Nat) (c : Content) (d : Delivery) :
    (setToken token text c d).1.typeStore.fonts = c.typeStore.fonts := by
  unfold setToken
  repeat' split
  all_goals rfl

theorem setupTicker_typeStore (ticker font window period columns lowWater : Nat) (c : Content) (d : Delivery) :
    (setupTicker ticker font window period columns lowWater c d).1.typeStore = c.typeStore := by
  unfold setupTicker
  split <;> rfl

theorem feedTicker_typeStore (p : PortId) (ticker : Nat) (chars : List Nat) (c : Content) (d : Delivery) :
    (feedTicker p ticker chars c d).1.typeStore = c.typeStore := by
  unfold feedTicker
  dsimp only
  repeat' split
  all_goals rfl

theorem flushTicker_typeStore (ticker : Nat) (c : Content) (d : Delivery) :
    (flushTicker ticker c d).1.typeStore = c.typeStore := by
  unfold flushTicker
  dsimp only
  repeat' split
  all_goals rfl

theorem scrollTicker_typeStore (t : TickerId) (c : Content) (d : Delivery) :
    (scrollTicker t c d).1.typeStore = c.typeStore := by
  unfold scrollTicker
  dsimp only
  split <;> rfl

/-! ## Every command -/

/-- The commands whose effect is on the type store or the tickers. -/
def movesType : Instr → Bool
  | .resetn _ _ _ _ => true
  | .fontSetup _ _ _ => true
  | .glyphLoad _ _ _ => true
  | .tokenSet _ _ _ => true
  | .tickerSetup _ _ _ _ _ _ _ => true
  | .tickerFeed _ _ _ => true
  | .tickerFlush _ _ => true
  | .scrollStep _ => true
  | .boardClear _ => true
  | _ => false

/-- No other command touches a font, a token or a ticker. -/
theorem effect_sameType (i : Instr) (c : Content) (d : Delivery) (h : movesType i = false) : c.sameType (effect i c d) := by
  cases i with
  | depPut => exact listRequest_sameType _ _ _ _ c d (fun l => putTrip_sameType _ _ _ _ _ l c d)
  | depPredict => exact entryRequest_sameType _ _ _ c d (fun l e => predictTrip_sameType _ _ l e c d)
  | depArrive => exact entryRequest_sameType _ _ _ c d (fun _ _ => ⟨rfl, rfl⟩)
  | depDepart => exact entryRequest_sameType _ _ _ c d (fun _ _ => ⟨rfl, rfl⟩)
  | depCancel => exact entryRequest_sameType _ _ _ c d (fun _ _ => ⟨rfl, rfl⟩)
  | destSet => exact setDestination_sameType _ _ c d
  | clockSet p t => exact sameType_of_keepsRest (setClock_keepsRest t c d)
  | newDay p t => exact sameType_of_keepsRest (newDay_keepsRest t c d)
  | countInterval => exact sameType_of_keepsRest (countClock_keepsRest c d)
  | settings => exact changeSettings_sameType _ c d
  | post => exact postPlacard_sameType _ _ c d
  | amend => exact placardRequest_sameType _ _ _ c d (fun n pl => amendPlacard_sameType _ _ n pl c d)
  | textSet => exact placardRequest_sameType _ _ _ c d (fun n pl => setText_sameType _ _ n pl c d)
  | withdraw => exact placardRequest_sameType _ _ _ c d (fun n pl => withdrawPlacard_sameType _ n pl c d)
  | take => exact takeRequest_sameType _ _ _ _ c d
  | release => exact releaseRequest_sameType _ _ c d
  | handover => exact handoverRequest_sameType _ _ _ c d
  | holdSetup => exact setupHold_sameType _ _ _ c d
  | holdExpiry => exact expireHold_sameType _ c d
  | waitTimeout =>
    simp only [effect]
    split
    · exact c.sameType_refl
    · exact endWait_sameType ..
  | cancelSplit => exact cancelSplit_sameType _ _ c d
  | resetn | fontSetup | glyphLoad | tokenSet | tickerSetup | tickerFeed | tickerFlush | scrollStep | boardClear => cases h
  | _ => exact c.sameType_refl

end Sys2Proof.Machine
end

section
/-! Font regions: what loading a glyph makes of a directory and of the glyphs it names (R119, R121). -/

namespace Sys2Proof.Machine

/-! ## A directory entry written -/

theorem mem_putSlot {g : Nat} {s : GlyphSlot} {x : Nat × GlyphSlot} :
    ∀ {xs : List (Nat × GlyphSlot)}, x ∈ putSlot g s xs → x = (g, s) ∨ x ∈ xs
  | [], h => .inl (List.mem_singleton.1 h)
  | y :: ys, h => by
    unfold putSlot at h
    split at h
    · exact List.mem_cons.1 h
    · split at h
      · exact (List.mem_cons.1 h).imp_right (List.mem_cons_of_mem y)
      · rcases List.mem_cons.1 h with rfl | later
        · exact .inr List.mem_cons_self
        · exact (mem_putSlot later).imp_right (List.mem_cons_of_mem y)

/-- A directory keeps its rising order: the entry is put before the first higher index, or in the place of its own. -/
theorem putSlot_sorted (g : Nat) (s : GlyphSlot) : ∀ {xs : List (Nat × GlyphSlot)},
    xs.Pairwise (fun a b => a.1 < b.1) → (putSlot g s xs).Pairwise (fun a b => a.1 < b.1)
  | [], _ => List.pairwise_singleton ..
  | x :: xs, h => by
    obtain ⟨below, rest⟩ := List.pairwise_cons.1 h
    unfold putSlot
    split
    · next first =>
      refine List.pairwise_cons.2 ⟨fun y m => ?_, h⟩
      rcases List.mem_cons.1 m with rfl | later
      · exact first
      · exact first.trans (below y later)
    · next notFirst =>
      split
      · next own => exact List.pairwise_cons.2 ⟨fun y m => own ▸ below y m, rest⟩
      · next other =>
        refine List.pairwise_cons.2 ⟨fun y m => ?_, putSlot_sorted g s rest⟩
        rcases mem_putSlot m with rfl | later
        · exact Nat.lt_of_le_of_ne (Nat.not_lt.1 notFirst) (Ne.symm other)
        · exact below y later

theorem find_putSlot_same (g : Nat) (s : GlyphSlot) : ∀ xs : List (Nat × GlyphSlot),
    (putSlot g s xs).find? (fun x => decide (x.1 = g)) = some (g, s)
  | [] => by simp [putSlot]
  | x :: xs => by
    unfold putSlot
    split
    · simp
    · split
      · simp
      · next other =>
        rw [List.find?_cons_of_neg (by simpa using Ne.symm other)]
        exact find_putSlot_same g s xs

theorem find_putSlot_other {g k : Nat} (apart : g ≠ k) (s : GlyphSlot) : ∀ xs : List (Nat × GlyphSlot),
    (putSlot g s xs).find? (fun x => decide (x.1 = k)) = xs.find? (fun x => decide (x.1 = k))
  | [] => by simp [putSlot, apart]
  | x :: xs => by
    unfold putSlot
    split
    · rw [List.find?_cons_of_neg (by simpa using apart)]
    · split
      · next own =>
        rw [List.find?_cons_of_neg (by simpa using apart), List.find?_cons_of_neg (by simpa [← own] using apart)]
      · rw [List.find?_cons, List.find?_cons, find_putSlot_other apart s xs]

/-! ## One entry loaded -/

@[simp] theorem Font.load_height (f : Font) (e : GlyphEntry) : (f.load e).height = f.height := rfl

@[simp] theorem Font.load_region (f : Font) (e : GlyphEntry) : (f.load e).region = f.region ++ e.bitmap := rfl

theorem Font.load_glyph?_same (f : Font) (e : GlyphEntry) : (f.load e).glyph? e.glyph =
    if e.width = 0 then none else some ⟨e.width, f.region.length⟩ := by
  unfold Font.load Font.glyph?
  by_cases absent : e.width = 0
  · simp [absent]
  · simp only [if_neg absent, find_putSlot_same, Option.map_some]

theorem Font.load_glyph?_other (f : Font) {e : GlyphEntry} {g : Nat} (apart : e.glyph ≠ g) :
    (f.load e).glyph? g = f.glyph? g := by
  unfold Font.load Font.glyph?
  by_cases absent : e.width = 0
  · have named (x : Nat × GlyphSlot) :
        (decide (x.1 ≠ e.glyph) = true ∧ decide (x.1 = g) = true) ↔ x.1 = g := by
      simp only [decide_eq_true_eq, and_iff_right_iff_imp]
      exact fun own other => apart (other.symm.trans own)
    simp only [if_pos absent, List.find?_filter, named]
  · simp only [if_neg absent, find_putSlot_other apart]

theorem glyphValid_iff (height : Nat) (e : GlyphEntry) : glyphValid height e = true ↔
    e.glyph ≤ 511 ∧ e.width ≤ 16 ∧ e.bitmap.length = e.width * height / 8 := by
  simp [glyphValid, Nat.lt_succ_iff]

/-- A valid entry that finds room keeps the region within its bytes and every present glyph within the region. -/
theorem fontOk_load {f : Font} {e : GlyphEntry} (ok : fontOk f) (valid : glyphValid f.height e = true)
    (room : e.bitmap.length ≤ f.remaining) : fontOk (f.load e) := by
  obtain ⟨height, used, sorted, within⟩ := ok
  obtain ⟨glyph, width, bytes⟩ := (glyphValid_iff _ _).1 valid
  have longer : (f.load e).region.length = f.region.length + e.bitmap.length := List.length_append
  unfold Font.remaining at room
  have kept : ∀ x ∈ f.directory, x.1 < 512 ∧ 1 ≤ x.2.width ∧ x.2.width ≤ 16 ∧
      x.2.place + x.2.width * f.height / 8 ≤ (f.load e).region.length := fun x m => by
    obtain ⟨index, least, most, place⟩ := within x m
    exact ⟨index, least, most, by omega⟩
  by_cases absent : e.width = 0
  · have directory : (f.load e).directory = f.directory.filter (fun x => decide (x.1 ≠ e.glyph)) := if_pos absent
    refine ⟨height, by omega, ?_, ?_⟩ <;> rw [directory]
    · exact sorted.filter _
    · exact fun x m => kept x (List.mem_filter.1 m).1
  · have directory : (f.load e).directory = putSlot e.glyph ⟨e.width, f.region.length⟩ f.directory := if_neg absent
    refine ⟨height, by omega, ?_, ?_⟩ <;> rw [directory]
    · exact putSlot_sorted _ _ sorted
    · intro x m
      rcases mem_putSlot m with rfl | old
      · exact ⟨by omega, Nat.one_le_iff_ne_zero.2 absent, width, by rw [longer, bytes]; exact Nat.le_refl _⟩
      · exact kept x old

/-! ## Entries loaded in order -/

theorem Font.loadAll_fits {f : Font} {e : GlyphEntry} (room : e.bitmap.length ≤ f.remaining) (es : List GlyphEntry) :
    Font.loadAll (e :: es) f = ((Font.loadAll es (f.load e)).1, (Font.loadAll es (f.load e)).2 + 1) := if_pos room

theorem Font.loadAll_full {f : Font} {e : GlyphEntry} (full : ¬ e.bitmap.length ≤ f.remaining) (es : List GlyphEntry) :
    Font.loadAll (e :: es) f = (f, 0) := if_neg full

theorem fontOk_loadAll : ∀ {es : List GlyphEntry} {f : Font}, fontOk f → (∀ e ∈ es, glyphValid f.height e = true) →
    fontOk (Font.loadAll es f).1
  | [], _, ok, _ => ok
  | e :: es, f, ok, valid => by
    obtain ⟨first, rest⟩ := List.forall_mem_cons.1 valid
    by_cases room : e.bitmap.length ≤ f.remaining
    · rw [Font.loadAll_fits room]
      exact fontOk_loadAll (fontOk_load ok first room) rest
    · rw [Font.loadAll_full room]
      exact ok

/-- The bytes of the bitmaps of entries. -/
def bitmapBytes (es : List GlyphEntry) : Nat := (es.map (fun e => e.bitmap.length)).sum

@[simp] theorem bitmapBytes_cons (e : GlyphEntry) (es : List GlyphEntry) :
    bitmapBytes (e :: es) = e.bitmap.length + bitmapBytes es := rfl

/-- Entries that fit are loaded, and the first that finds no room ends the loading (R121). -/
theorem Font.loadAll_append {skipped : List GlyphEntry} : ∀ {loaded : List GlyphEntry} {f : Font},
    f.region.length + bitmapBytes loaded ≤ 16384 →
    (∀ e es, skipped = e :: es → 16384 < f.region.length + bitmapBytes loaded + e.bitmap.length) →
    Font.loadAll (loaded ++ skipped) f = (loaded.foldl Font.load f, loaded.length)
  | [], f, _, full => by
    cases skipped with
    | nil => rfl
    | cons e es =>
      have more : 16384 < f.region.length + 0 + e.bitmap.length := full e es rfl
      exact Font.loadAll_full (by unfold Font.remaining; omega) es
  | e :: loaded, f, room, full => by
    rw [bitmapBytes_cons] at room
    have longer : (f.load e).region.length = f.region.length + e.bitmap.length := List.length_append
    have rest := Font.loadAll_append (skipped := skipped) (loaded := loaded) (f := f.load e) (by omega)
      (fun x xs h => by
        have more := full x xs h
        rw [bitmapBytes_cons] at more
        omega)
    rw [List.cons_append, Font.loadAll_fits (by unfold Font.remaining; omega), rest]
    rfl

theorem Font.foldl_load_height : ∀ (es : List GlyphEntry) (f : Font), (es.foldl Font.load f).height = f.height
  | [], _ => rfl
  | e :: es, f => Font.foldl_load_height es (f.load e)

theorem Font.foldl_load_region : ∀ (es : List GlyphEntry) (f : Font),
    (es.foldl Font.load f).region = f.region ++ es.flatMap (fun e => e.bitmap)
  | [], f => (List.append_nil f.region).symm
  | e :: es, f => by
    rw [List.foldl_cons, Font.foldl_load_region es, Font.load_region, List.flatMap_cons, List.append_assoc]

theorem Font.foldl_load_used (es : List GlyphEntry) (f : Font) :
    (es.foldl Font.load f).region.length = f.region.length + bitmapBytes es := by
  rw [Font.foldl_load_region, List.length_append, List.length_flatMap]
  rfl

/-- A glyph that no entry names stays as it was. -/
theorem Font.foldl_load_glyph?_other {g : Nat} : ∀ {es : List GlyphEntry} (f : Font), (∀ e ∈ es, e.glyph ≠ g) →
    (es.foldl Font.load f).glyph? g = f.glyph? g
  | [], _, _ => rfl
  | e :: es, f, apart => by
    obtain ⟨first, rest⟩ := List.forall_mem_cons.1 apart
    exact (Font.foldl_load_glyph?_other (f.load e) rest).trans (f.load_glyph?_other first)

/-- A glyph is as the last entry that names it loads it: after the bitmaps of the entries before. -/
theorem Font.foldl_load_glyph?_last {before after : List GlyphEntry} {e : GlyphEntry} (f : Font)
    (last : ∀ x ∈ after, x.glyph ≠ e.glyph) : ((before ++ e :: after).foldl Font.load f).glyph? e.glyph =
      if e.width = 0 then none else some ⟨e.width, f.region.length + bitmapBytes before⟩ := by
  rw [List.foldl_append, List.foldl_cons, Font.foldl_load_glyph?_other _ last, Font.load_glyph?_same,
    Font.foldl_load_used]

end Sys2Proof.Machine
end

section
/-! The requests of the type store by their cases, and the invariant of the font regions (R118 to R121, R123). -/

namespace Sys2Proof.Machine

/-! ## FONT_SETUP (R120) -/

theorem setupFont_above {font : Nat} (above : 3 < font) (height : Nat) (c : Content) (d : Delivery) :
    setupFont font height c d = (c, d, refuse .badValue) := by
  simp only [setupFont, index?_of_le above]

theorem setupFont_height {height : Nat} (h : height = 8 ∨ height = 16) (f : FontId) (c : Content) (d : Delivery) :
    setupFont f.val height c d = (c.setFont f ⟨height, [], []⟩, raiseFont c f d, okWith (b1 height)) := by
  simp only [setupFont, index?_val, if_pos h]

theorem setupFont_noHeight {height : Nat} (h : ¬ (height = 8 ∨ height = 16)) (f : FontId) (c : Content) (d : Delivery) :
    setupFont f.val height c d = (c, d, refuse .badValue) := by
  simp only [setupFont, index?_val, if_neg h]

/-! ## GLYPH_LOAD (R121) -/

theorem loadGlyphs_above {font : Nat} (above : 3 < font) (entries : List GlyphEntry) (c : Content) (d : Delivery) :
    loadGlyphs font entries c d = (c, d, refuse .badValue) := by
  simp only [loadGlyphs, index?_of_le above]

theorem loadGlyphs_bad {f : FontId} {entries : List GlyphEntry} {c : Content}
    (bad : ∃ e ∈ entries, ¬ glyphValid (c.typeStore.fonts[f]).height e = true) (d : Delivery) :
    loadGlyphs f.val entries c d = (c, d, refuse .badValue) := by
  have refused : entries.all (glyphValid (c.typeStore.fonts[f]).height) = false := by
    rw [← Bool.not_eq_true, List.all_eq_true]
    exact fun all => bad.elim fun e ⟨m, invalid⟩ => invalid (all e m)
  simp only [loadGlyphs, index?_val, refused, Bool.not_false, if_true]

theorem loadGlyphs_valid {f : FontId} {entries : List GlyphEntry} {c : Content}
    (valid : ∀ e ∈ entries, glyphValid (c.typeStore.fonts[f]).height e = true) (d : Delivery) :
    loadGlyphs f.val entries c d =
      (c.setFont f (Font.loadAll entries c.typeStore.fonts[f]).1,
        if (Font.loadAll entries c.typeStore.fonts[f]).2 = 0 then d else raiseFont c f d,
        okWith (b1 (Font.loadAll entries c.typeStore.fonts[f]).2 ++
          b2 (Font.loadAll entries c.typeStore.fonts[f]).1.remaining)) := by
  have granted : entries.all (glyphValid (c.typeStore.fonts[f]).height) = true := List.all_eq_true.2 valid
  simp only [loadGlyphs, index?_val, granted, Bool.not_true, Bool.false_eq_true, if_false]

/-! ## TOKEN_SET (R123) -/

theorem setToken_above {token : Nat} (above : 3 < token) (text : List Nat) (c : Content) (d : Delivery) :
    setToken token text c d = (c, d, refuse .badValue) := by
  simp only [setToken, index?_of_le above]

section
variable {text : List Nat} {t : FontId} {c : Content}

theorem setToken_bad (bad : ¬ textValid 12 text = true) (d : Delivery) :
    setToken t.val text c d = (c, d, refuse .badValue) := by
  simp only [setToken, index?_val, bad, Bool.not_false, if_true]

theorem setToken_same (valid : textValid 12 text = true) (same : c.typeStore.tokens[t] = text) (d : Delivery) :
    setToken t.val text c d = (c, d, okWith (bText text)) := by
  simp only [setToken, index?_val, valid, same, Bool.not_true, Bool.false_eq_true, if_false, if_true]

theorem setToken_other (valid : textValid 12 text = true) (other : c.typeStore.tokens[t] ≠ text) (d : Delivery) :
    setToken t.val text c d =
      ({ c with typeStore := { c.typeStore with tokens := c.typeStore.tokens.set t text } },
        d.raiseWhere c.board .content (c.board.draws (fun pl => pl.content.isDepartures)), okWith (bText text)) := by
  simp only [setToken, index?_val, valid, if_neg other, Bool.not_true, Bool.false_eq_true, if_false]

end

/-! ## Every step keeps the font regions -/

/-- Every font is as it should be. -/
def Content.fontsOk (c : Content) : Prop := ∀ f : FontId, fontOk c.typeStore.fonts[f]

theorem Content.fontsOk.congr {c c' : Content} (ok : c.fontsOk) (e : c'.typeStore.fonts = c.typeStore.fonts) :
    c'.fontsOk := fun f => by
  rw [e]
  exact ok f

theorem Content.fontsOk.setFont {c : Content} (ok : c.fontsOk) (f : FontId) {x : Font} (new : fontOk x) :
    (c.setFont f x).fontsOk := by
  intro m
  rw [Content.setFont_typeStore, set_getFin]
  split
  · exact new
  · exact ok m

/-- A cleared font holds nothing, whatever its height (R120). -/
theorem fontOk_cleared {height : Nat} (h : height = 8 ∨ height = 16) : fontOk ⟨height, [], []⟩ :=
  ⟨h, Nat.zero_le _, List.Pairwise.nil, fun _ m => by cases m⟩

theorem exists_fontId {font : Nat} (within : ¬ 3 < font) : ∃ f : FontId, f.val = font :=
  ⟨⟨font, Nat.lt_succ_of_le (Nat.not_lt.1 within)⟩, rfl⟩

theorem setupFont_fontsOk (font height : Nat) {c : Content} (d : Delivery) (ok : c.fontsOk) :
    (setupFont font height c d).1.fontsOk := by
  by_cases above : 3 < font
  · rw [setupFont_above above]
    exact ok
  obtain ⟨f, rfl⟩ := exists_fontId above
  by_cases h : height = 8 ∨ height = 16
  · rw [setupFont_height h]
    exact ok.setFont f (fontOk_cleared h)
  · rw [setupFont_noHeight h]
    exact ok

theorem loadGlyphs_fontsOk (font : Nat) (entries : List GlyphEntry) {c : Content} (d : Delivery) (ok : c.fontsOk) :
    (loadGlyphs font entries c d).1.fontsOk := by
  by_cases above : 3 < font
  · rw [loadGlyphs_above above]
    exact ok
  obtain ⟨f, rfl⟩ := exists_fontId above
  by_cases valid : ∀ e ∈ entries, glyphValid (c.typeStore.fonts[f]).height e = true
  · rw [loadGlyphs_valid valid]
    exact ok.setFont f (fontOk_loadAll (ok f) valid)
  · rw [loadGlyphs_bad (by simpa using valid)]
    exact ok

theorem effect_fontsOk (i : Instr) (c : Content) (d : Delivery) (ok : c.fontsOk) : (effect i c d).fontsOk := by
  have sameStore {c' : Content} (e : c'.typeStore = c.typeStore) : c'.fontsOk := ok.congr (congrArg TypeStore.fonts e)
  cases moves : movesType i with
  | false => exact sameStore (effect_sameType i c d moves).1
  | true =>
    cases i with
    | resetn =>
      obtain ⟨-, -, -, -, -, -, fonts, -⟩ := resetStateIsSafe
      exact fonts
    | fontSetup p font height => exact setupFont_fontsOk font height d ok
    | glyphLoad p font entries => exact loadGlyphs_fontsOk font entries d ok
    | tokenSet p token text => exact ok.congr (setToken_fonts token text c d)
    | tickerSetup => exact sameStore (setupTicker_typeStore _ _ _ _ _ _ c d)
    | tickerFeed => exact sameStore (feedTicker_typeStore _ _ _ c d)
    | tickerFlush => exact sameStore (flushTicker_typeStore _ c d)
    | scrollStep => exact sameStore (scrollTicker_typeStore _ c d)
    | boardClear =>
      rw [effect, clearAll_eq]
      exact ok
    | _ => cases moves

/-- Settles O10: only RESETN, FONT_SETUP and GLYPH_LOAD touch a font. The first two leave it cleared, and a GLYPH_LOAD stores
each bitmap in the room that remains, its directory entry at the place of the bitmap. -/
theorem stepsKeepFontRegions : Obligations.StepsKeepFontRegions := by
  unfold Obligations.StepsKeepFontRegions
  intro s t ok step
  exact step_keeps_content Content.fontsOk effect_fontsOk s t step ok

/-- Settles O58: each request by the cases of its check, and a GLYPH_LOAD by the split of its entries at the first that finds
no room. -/
theorem typeStoreRequests : Obligations.TypeStoreRequests := by
  unfold Obligations.TypeStoreRequests
  refine ⟨fun p v height entries text s above supervisor i listed take => ?_, fun p f s => ⟨?_, ?_, ?_⟩⟩
  · simp only [List.mem_cons, List.not_mem_nil, or_false] at listed
    rcases listed with rfl | rfl | rfl
    · exact refuses_of_supervised p _ (setupFont v height) s _ rfl take supervisor (setupFont_above above height _ _)
    · exact refuses_of_supervised p _ (loadGlyphs v entries) s _ rfl take supervisor (loadGlyphs_above above entries _ _)
    · exact refuses_of_supervised p _ (setToken v text) s _ rfl take supervisor (setToken_above above text _ _)
  · intro height i take supervisor
    refine ⟨fun h => ?_, fun not8 not16 => ?_⟩
    · exact replies_of_supervised p i (setupFont f.val height) s _ _ _ rfl take supervisor (setupFont_height h f _ _)
    · exact refuses_of_supervised p i (setupFont f.val height) s _ rfl take supervisor
        (setupFont_noHeight (not_or.2 ⟨not8, not16⟩) f _ _)
  · intro entries i valid size take supervisor
    have valid_iff (e : GlyphEntry) := glyphValid_iff (s.content.typeStore.fonts[f]).height e
    refine ⟨fun ⟨e, m, bad⟩ => ?_, fun all _ loaded skipped split room full => ?_⟩
    · exact refuses_of_supervised p i (loadGlyphs f.val entries) s _ rfl take supervisor
        (loadGlyphs_bad ⟨e, m, fun h => bad ((valid_iff e).1 h)⟩ _)
    · have loads := loadGlyphs_valid (fun e m => (valid_iff e).2 (all e m)) (s.taking p)
      subst split
      rw [Font.loadAll_append room full] at loads
      simp only [List.length_eq_zero_iff] at loads
      exact ⟨loaded.foldl Font.load s.content.typeStore.fonts[f],
        replies_of_supervised p i (loadGlyphs f.val (loaded ++ skipped)) s _ _ _ rfl take supervisor loads,
        Font.foldl_load_height loaded _, Font.foldl_load_region loaded _,
        fun g apart => Font.foldl_load_glyph?_other _ apart,
        fun before e after parts last => by subst parts; exact Font.foldl_load_glyph?_last _ last⟩
  · intro text i take supervisor
    have answers {c : Content} {d : Delivery} {r : Reply} := replies_of_supervised p i (setToken f.val text) s c d r rfl
      take supervisor
    refine ⟨fun bad => answers (setToken_bad (fun good => ?_) _), fun short glyphs => ?_⟩
    · obtain ⟨short, glyphs⟩ := (textValid_iff 12 text).1 good
      rcases bad with long | ⟨x, m, high⟩
      · exact absurd short (Nat.not_le.2 long)
      · exact absurd (glyphs x m) (Nat.not_le.2 high)
    · have good := (textValid_iff 12 text).2 ⟨short, glyphs⟩
      exact ⟨fun same => answers (setToken_same good same _), fun other => answers (setToken_other good other _)⟩

end Sys2Proof.Machine
end

section
/-! The ticker record by its events: characters fed (R138), the removals of a scroll step (R140), their low-water crossing
(R142), and what each event keeps of a record in order. -/

namespace Sys2Proof.Machine

/-! ## Characters fed (R138) -/

section
variable {k : Ticker} {p : PortId} {now : Nat} {chars : List Nat}

/-- A text already moving goes on, the new characters at its tail. -/
theorem Ticker.feed_running (running : k.state = .running) :
    k.feed p now chars = { k with chars := k.chars ++ chars, lastFeeder := some p } := by
  simp only [Ticker.feed, running]

/-- A text fed into an IDLE or DRY ticker starts with its lead-in. -/
theorem Ticker.feed_still (still : k.state = .idle ∨ k.state = .dry) : k.feed p now chars = { k with
    state := .running, chars := k.chars ++ chars, offset := -(k.window : Int), lastFeeder := some p
    deadline := some (now + k.period) } := by
  rcases still with idle | dry
  · simp only [Ticker.feed, idle]
  · simp only [Ticker.feed, dry]

end

/-! ## Heads removed (R140 step 3) -/

/-- The columns that characters take with the blank column of each (R122). -/
def Font.advances (f : Font) (gs : List Nat) : Nat := (gs.map f.advance).sum

@[simp] theorem Font.advances_nil (f : Font) : f.advances [] = 0 := rfl

@[simp] theorem Font.advances_cons (f : Font) (g : Nat) (gs : List Nat) :
    f.advances (g :: gs) = f.advance g + f.advances gs := rfl

theorem removeHeads_fits {f : Font} {g : Nat} {offset : Int} (fits : (f.advance g : Int) ≤ offset) (gs : List Nat) :
    removeHeads f (g :: gs) offset = ((removeHeads f gs (offset - f.advance g)).1,
      (removeHeads f gs (offset - f.advance g)).2.1, gs.length :: (removeHeads f gs (offset - f.advance g)).2.2) :=
  if_pos fits

theorem removeHeads_stays {f : Font} {g : Nat} {offset : Int} (stays : ¬ (f.advance g : Int) ≤ offset) (gs : List Nat) :
    removeHeads f (g :: gs) offset = (g :: gs, offset, []) := if_neg stays

theorem removeHeads_length_le (f : Font) : ∀ (gs : List Nat) (offset : Int),
    (removeHeads f gs offset).1.length ≤ gs.length
  | [], _ => Nat.le_refl _
  | g :: gs, offset => by
    by_cases fits : (f.advance g : Int) ≤ offset
    · rw [removeHeads_fits fits]
      exact (removeHeads_length_le f gs _).trans (Nat.le_succ _)
    · rw [removeHeads_stays fits]

/-- The removals leave behind every count from the one below the first to the one of the characters left. -/
theorem mem_removeHeads_counts (f : Font) (n : Nat) : ∀ (gs : List Nat) (offset : Int),
    n ∈ (removeHeads f gs offset).2.2 ↔ (removeHeads f gs offset).1.length ≤ n ∧ n < gs.length
  | [], _ => by simp [removeHeads]
  | g :: gs, offset => by
    by_cases fits : (f.advance g : Int) ≤ offset
    · have shorter := removeHeads_length_le f gs (offset - f.advance g)
      rw [removeHeads_fits fits, List.mem_cons, mem_removeHeads_counts f n gs, List.length_cons]
      dsimp only
      omega
    · rw [removeHeads_stays fits]
      simp only [List.not_mem_nil, List.length_cons, false_iff]
      omega

/-- The characters `gone` are those removed: their advances fit in the offset, and with the next one they do not. -/
theorem removeHeads_append {f : Font} {rest : List Nat} : ∀ {gone : List Nat} {offset : Int},
    gone = [] ∨ (f.advances gone : Int) ≤ offset →
    (∀ g gs, rest = g :: gs → offset < f.advances (gone ++ [g])) →
    (removeHeads f (gone ++ rest) offset).1 = rest ∧
      (removeHeads f (gone ++ rest) offset).2.1 = offset - f.advances gone
  | [], offset, _, stop => by
    cases rest with
    | nil => simp [removeHeads]
    | cons g gs =>
      have stays : offset < f.advance g := by simpa using stop g gs rfl
      rw [List.nil_append, removeHeads_stays (Int.not_le.2 stays)]
      simp
  | g :: gone, offset, fit, stop => by
    have all : (f.advance g : Int) + f.advances gone ≤ offset := by simpa using fit
    have later := removeHeads_append (f := f) (rest := rest) (gone := gone) (offset := offset - f.advance g)
      (.inr (by omega)) (fun x xs e => by
        have next := stop x xs e
        rw [List.cons_append, Font.advances_cons] at next
        omega)
    obtain ⟨left, offsetLeft⟩ := later
    rw [List.cons_append, removeHeads_fits (by omega)]
    refine ⟨left, offsetLeft.trans ?_⟩
    rw [Font.advances_cons]
    omega

/-! ## The scroll step (R140, R142) -/

/-- The characters and the offset that the removals of a scroll step leave (R140 steps 2 and 3). -/
def Ticker.scrolled (f : Font) (k : Ticker) : List Nat × Int :=
  ((removeHeads f k.chars (k.offset + k.columns)).1, (removeHeads f k.chars (k.offset + k.columns)).2.1)

theorem Ticker.scrolled_length_le (f : Font) (k : Ticker) : (k.scrolled f).1.length ≤ k.chars.length :=
  removeHeads_length_le f k.chars _

section
variable {f : Font} {k : Ticker}

/-- Text scrolled out whole: the ticker is DRY. -/
theorem Ticker.step_dry (out : (k.scrolled f).1 = []) (t : Nat) : k.step f t = { k with
    state := .dry, chars := [], head := (k.head + k.chars.length) % 256, offset := 0, deadline := none } := by
  simp only [Ticker.scrolled] at out
  simp [Ticker.step, out]

/-- Characters left: the text moves on. -/
theorem Ticker.step_left (some_left : (k.scrolled f).1 ≠ []) (t : Nat) : k.step f t = { k with
    chars := (k.scrolled f).1, head := (k.head + (k.chars.length - (k.scrolled f).1.length)) % 256
    offset := (k.scrolled f).2, deadline := some (t + k.period) } := by
  simp only [Ticker.scrolled] at some_left
  simp [Ticker.step, Ticker.scrolled, some_left]

/-- The count crosses the low-water value: above it before the step, and no longer after. -/
theorem Ticker.crossesLow_iff : k.crossesLow f = true ↔
    (k.scrolled f).1.length ≤ k.lowWater ∧ k.lowWater < k.chars.length := by
  simp only [Ticker.crossesLow, decide_eq_true_eq, mem_removeHeads_counts, Ticker.scrolled]

end

section
variable {f : Font} {k : Ticker} {gone rest : List Nat} (held : k.chars = gone ++ rest)
  (fit : gone = [] ∨ (f.advances gone : Int) ≤ k.offset + k.columns)
  (stop : ∀ g gs, rest = g :: gs → k.offset + k.columns < f.advances (gone ++ [g]))
include held fit stop

/-- The step by the characters it removes, `gone`, and those it leaves. -/
theorem Ticker.scrolled_split : k.scrolled f = (rest, k.offset + k.columns - f.advances gone) := by
  obtain ⟨left, offset⟩ := removeHeads_append fit stop
  rw [Ticker.scrolled, held, left, offset]

theorem Ticker.step_split (t : Nat) : k.step f t =
    if rest = [] then
      { k with state := .dry, chars := [], head := (k.head + gone.length) % 256, offset := 0, deadline := none }
    else { k with
      chars := rest, head := (k.head + gone.length) % 256, offset := k.offset + k.columns - f.advances gone
      deadline := some (t + k.period) } := by
  have scrolled := Ticker.scrolled_split held fit stop
  have count : k.chars.length = gone.length + rest.length := held ▸ List.length_append
  split
  · next none_left =>
    rw [Ticker.step_dry (by rw [scrolled, none_left]), count, none_left]
    rfl
  · next some_left =>
    rw [Ticker.step_left (by rw [scrolled]; exact some_left), scrolled, count, Nat.add_sub_cancel]

theorem Ticker.crossesLow_split :
    k.crossesLow f = decide (rest.length ≤ k.lowWater ∧ k.lowWater < k.chars.length) := by
  rw [Bool.eq_iff_iff, Ticker.crossesLow_iff, Ticker.scrolled_split held fit stop, decide_eq_true_eq]

end

/-! ## Records in order (R136) -/

theorem tickerOk_configure {k : Ticker} (ok : tickerOk k) (f : FontId) (window period columns low : Nat) :
    tickerOk (k.configure f window period columns low) := by
  obtain ⟨-, -, -, -, -, -, lowWater, rest⟩ := ok
  have water : (k.configure f window period columns low).lowWater ≤ 255 := by
    change (if low < 256 then low else k.lowWater) ≤ 255
    split <;> omega
  refine ⟨?_, ?_, ?_, ?_, ?_, ?_, water, rest⟩ <;> simp only [Ticker.configure, clampTo] <;> omega

theorem tickerOk_emptied {k : Ticker} (ok : tickerOk k) : tickerOk k.emptied := by
  obtain ⟨window, window', period, period', columns, columns', lowWater, -⟩ := ok
  exact ⟨window, window', period, period', columns, columns', lowWater, Nat.zero_le _, Nat.zero_lt_succ _,
    by simp [Ticker.emptied], by simp [Ticker.emptied]⟩

theorem tickerOk_feed {k : Ticker} (ok : tickerOk k) (defined : k.state ≠ .undefined) {chars : List Nat}
    (new : chars ≠ []) (room : k.chars.length + chars.length ≤ 256) (p : PortId) (now : Nat) :
    tickerOk (k.feed p now chars) := by
  obtain ⟨window, window', period, period', columns, columns', lowWater, -, head, -, deadline⟩ := ok
  have count : (k.chars ++ chars).length ≤ 256 := List.length_append ▸ room
  have holds : k.chars ++ chars ≠ [] := List.append_ne_nil_of_right_ne_nil _ new
  cases state : k.state with
  | running =>
    rw [Ticker.feed_running state]
    exact ⟨window, window', period, period', columns, columns', lowWater, count, head, iff_of_true state holds, deadline⟩
  | undefined => exact absurd state defined
  | idle | dry =>
    rw [Ticker.feed_still (by simp [state])]
    exact ⟨window, window', period, period', columns, columns', lowWater, count, head, iff_of_true rfl holds,
      iff_of_true rfl rfl⟩

theorem tickerOk_step {k : Ticker} (ok : tickerOk k) (due : k.deadline.isSome) (f : Font) (t : Nat) :
    tickerOk (k.step f t) := by
  have shorter := k.scrolled_length_le f
  obtain ⟨window, window', period, period', columns, columns', lowWater, count, -, -, deadline⟩ := ok
  by_cases left : (k.scrolled f).1 = []
  · rw [Ticker.step_dry left]
    exact ⟨window, window', period, period', columns, columns', lowWater, Nat.zero_le _, Nat.mod_lt _ (by decide),
      by simp, by simp⟩
  · rw [Ticker.step_left left]
    exact ⟨window, window', period, period', columns, columns', lowWater, shorter.trans count, Nat.mod_lt _ (by decide),
      iff_of_true (deadline.2 due) left, iff_of_true (deadline.2 due) rfl⟩

end Sys2Proof.Machine
end

section
/-! The ticker unit's commands by their cases, and the invariant of the ticker records (R136 to R143). -/

namespace Sys2Proof.Machine

theorem raiseTicker_eq (b : Board) (cause : Cause) (t : TickerId) (d : Delivery) : raiseTicker b cause t d =
    d.raiseWhere b cause (b.draws (fun pl => decide (pl.content = .ticker t))) := by
  have names : Placard.namesTicker t = fun pl => decide (pl.content = .ticker t) := by
    funext pl
    unfold Placard.namesTicker
    cases pl.content <;> simp
  rw [raiseTicker, names]

theorem exists_tickerId {ticker : Nat} (within : ¬ 7 < ticker) : ∃ t : TickerId, t.val = ticker :=
  ⟨⟨ticker, Nat.lt_succ_of_le (Nat.not_lt.1 within)⟩, rfl⟩

/-! ## TICKER_SETUP (R137) -/

theorem setupTicker_above {ticker font : Nat} (above : 7 < ticker ∨ 3 < font) (window period columns low : Nat)
    (c : Content) (d : Delivery) :
    setupTicker ticker font window period columns low c d = (c, d, refuse .badValue) := by
  rcases above with high | high
  · simp only [setupTicker, index?_of_le high]
  · cases ticker_within : index? 8 ticker <;> simp only [setupTicker, index?_of_le high, ticker_within]

theorem setupTicker_val (t : TickerId) (f : FontId) (window period columns low : Nat) (c : Content) (d : Delivery) :
    setupTicker t.val f.val window period columns low c d =
      (c.setTicker t (c.tickers[t].configure f window period columns low).emptied, raiseTicker c.board .content t d,
        okWith ((c.tickers[t].configure f window period columns low).emptied.parameterBytes ++
          b2 (c.tickers[t].configure f window period columns low).emptied.lowWater)) := by
  simp only [setupTicker, index?_val]

/-! ## TICKER_FEED (R138) -/

/-- The characters of a feed are those that a request may carry (R138). -/
def feedValid (chars : List Nat) : Prop := chars ≠ [] ∧ chars.length ≤ 64 ∧ ∀ x ∈ chars, x ≤ 511

theorem feedValid_iff (chars : List Nat) : feedValid chars ↔ (chars.isEmpty || !textValid 64 chars) = false := by
  rw [Bool.or_eq_false_iff, Bool.not_eq_false', textValid_iff, List.isEmpty_eq_false_iff, feedValid]

theorem not_feedValid_iff (chars : List Nat) :
    ¬ feedValid chars ↔ chars = [] ∨ 64 < chars.length ∨ ∃ x ∈ chars, 511 < x := by
  simp only [feedValid, not_and_or, not_not, not_le, not_forall, exists_prop]

theorem feedTicker_above {ticker : Nat} (above : 7 < ticker) (p : PortId) (chars : List Nat) (c : Content) (d : Delivery) :
    feedTicker p ticker chars c d = (c, d, refuse .badValue) := by
  simp only [feedTicker, index?_of_le above]

section
variable {t : TickerId} {chars : List Nat} {c : Content}

theorem feedTicker_bad (bad : ¬ feedValid chars) (p : PortId) (d : Delivery) :
    feedTicker p t.val chars c d = (c, d, refuse .badValue) := by
  rw [feedValid_iff, Bool.not_eq_false] at bad
  simp only [feedTicker, index?_val, bad, if_true]

theorem feedTicker_undefined (valid : feedValid chars) (undefined : (c.tickers[t]).state = .undefined) (p : PortId)
    (d : Delivery) : feedTicker p t.val chars c d = (c, d, refuse .state) := by
  simp only [feedTicker, index?_val, (feedValid_iff chars).1 valid, undefined, Bool.false_eq_true, if_false, if_true]

/-- A feed into a full ring changes nothing. -/
theorem feedTicker_full (valid : feedValid chars) (defined : (c.tickers[t]).state ≠ .undefined)
    (full : 256 ≤ (c.tickers[t]).chars.length) (p : PortId) (d : Delivery) :
    let accepted := chars.take (256 - (c.tickers[t]).chars.length)
    feedTicker p t.val chars c d =
      (c, d, okWith (b1 accepted.length ++ b2 ((c.tickers[t]).chars.length + accepted.length))) := by
  have none : (chars.take (256 - (c.tickers[t]).chars.length)).isEmpty = true := by
    rw [Nat.sub_eq_zero_of_le full]
    rfl
  simp only [feedTicker, index?_val, (feedValid_iff chars).1 valid, if_neg defined, none, Bool.false_eq_true, if_false,
    if_true]

/-- Characters fed into a ring with room are accepted, one at least. -/
theorem accepted_ne_nil (valid : feedValid chars) {count : Nat} (room : count < 256) : chars.take (256 - count) ≠ [] := by
  obtain ⟨some_fed, -, -⟩ := valid
  rw [Ne, List.take_eq_nil_iff, not_or]
  exact ⟨by omega, some_fed⟩

/-- A feed into a ring with room. -/
theorem feedTicker_accepts (valid : feedValid chars) (defined : (c.tickers[t]).state ≠ .undefined)
    (room : (c.tickers[t]).chars.length < 256) (p : PortId) (d : Delivery) :
    let accepted := chars.take (256 - (c.tickers[t]).chars.length)
    feedTicker p t.val chars c d = (c.setTicker t (c.tickers[t].feed p d.works.now accepted),
      raiseTicker c.board .scroll t d,
      okWith (b1 accepted.length ++ b2 ((c.tickers[t]).chars.length + accepted.length))) := by
  have some_accepted := List.isEmpty_eq_false_iff.2 (accepted_ne_nil valid room)
  simp only [feedTicker, index?_val, (feedValid_iff chars).1 valid, if_neg defined, some_accepted, Bool.false_eq_true,
    if_false]

end

/-! ## TICKER_FLUSH (R139) -/

theorem flushTicker_above {ticker : Nat} (above : 7 < ticker) (c : Content) (d : Delivery) :
    flushTicker ticker c d = (c, d, refuse .badValue) := by
  simp only [flushTicker, index?_of_le above]

theorem flushTicker_undefined {t : TickerId} {c : Content} (undefined : (c.tickers[t]).state = .undefined) (d : Delivery) :
    flushTicker t.val c d = (c, d, refuse .state) := by
  simp only [flushTicker, index?_val, if_pos undefined]

theorem flushTicker_defined {t : TickerId} {c : Content} (defined : (c.tickers[t]).state ≠ .undefined) (d : Delivery) :
    flushTicker t.val c d = (c.setTicker t (c.tickers[t]).emptied,
      if (c.tickers[t]).state = .running then raiseTicker c.board .scroll t d else d,
      okWith (b2 (c.tickers[t]).chars.length)) := by
  simp only [flushTicker, index?_val, if_neg defined]

/-! ## SCROLL_STEP (R140) -/

theorem scrollTicker_still {t : TickerId} {c : Content} (still : (c.tickers[t]).deadline = none) (d : Delivery) :
    scrollTicker t c d = (c, d) := by
  simp only [scrollTicker, still]

theorem scrollTicker_due {t : TickerId} {c : Content} {at_ : Nat} (due : (c.tickers[t]).deadline = some at_)
    (d : Delivery) :
    let k := c.tickers[t]
    let f := c.typeStore.fonts[k.font]
    scrollTicker t c d = (c.setTicker t (k.step f at_),
      raiseTicker c.board .scroll t (noticeLow t (k.crossesLow f) k.lastFeeder (d.reach at_))) := by
  simp only [scrollTicker, due]

theorem noticeLow_of_feeder (t : TickerId) (crosses : Prop) [Decidable crosses] (p : PortId) (d : Delivery) :
    noticeLow t (decide crosses) (some p) d = if crosses then d.notify (.tickerLow t) p else d := by
  simp only [noticeLow, decide_eq_true_eq]

theorem leaves_of_contentEvent {i : Instr} {s : State} {c : Content} {d : Delivery}
    (f : Content → Delivery → Content × Delivery) (e : exec i s = contentEvent f s)
    (k : f s.content s.delivery = (c, d)) : Leaves (exec i s) s c d := by
  rw [e, Leaves, contentEvent, k]

/-! ## Every step keeps the tickers -/

/-- Every ticker record is in order. -/
def Content.tickersOk (c : Content) : Prop := ∀ k : TickerId, tickerOk c.tickers[k]

theorem Content.tickersOk.congr {c c' : Content} (ok : c.tickersOk) (e : c'.tickers = c.tickers) : c'.tickersOk :=
  fun k => by
    rw [e]
    exact ok k

theorem Content.tickersOk.setTicker {c : Content} (ok : c.tickersOk) (t : TickerId) {k : Ticker} (new : tickerOk k) :
    (c.setTicker t k).tickersOk := by
  intro m
  rw [Content.setTicker_tickers, set_getFin]
  split
  · exact new
  · exact ok m

/-- A board clear empties the tickers that are set up (R145). -/
theorem Content.tickersOk.cleared {c : Content} (ok : c.tickersOk) : c.cleared.tickersOk := by
  intro m
  simp only [Content.cleared, mapTable_getFin]
  split
  · exact ok m
  · exact tickerOk_emptied (ok m)

theorem setupFont_tickers (font height : Nat) (c : Content) (d : Delivery) :
    (setupFont font height c d).1.tickers = c.tickers := by
  unfold setupFont
  repeat' split
  all_goals rfl

theorem loadGlyphs_tickers (font : Nat) (entries : List GlyphEntry) (c : Content) (d : Delivery) :
    (loadGlyphs font entries c d).1.tickers = c.tickers := by
  unfold loadGlyphs
  dsimp only
  repeat' split
  all_goals rfl

theorem setToken_tickers (token : Nat) (text : List Nat) (c : Content) (d : Delivery) :
    (setToken token text c d).1.tickers = c.tickers := by
  unfold setToken
  repeat' split
  all_goals rfl

section
variable {c : Content} (ok : c.tickersOk) (d : Delivery)
include ok

theorem setupTicker_tickersOk (ticker font window period columns low : Nat) :
    (setupTicker ticker font window period columns low c d).1.tickersOk := by
  by_cases above : 7 < ticker ∨ 3 < font
  · rw [setupTicker_above above]
    exact ok
  · obtain ⟨ticker_within, font_within⟩ := not_or.1 above
    obtain ⟨t, rfl⟩ := exists_tickerId ticker_within
    obtain ⟨f, rfl⟩ := exists_fontId font_within
    rw [setupTicker_val]
    exact ok.setTicker t (tickerOk_emptied (tickerOk_configure (ok t) f window period columns low))

theorem feedTicker_tickersOk (p : PortId) (ticker : Nat) (chars : List Nat) :
    (feedTicker p ticker chars c d).1.tickersOk := by
  by_cases above : 7 < ticker
  · rw [feedTicker_above above]
    exact ok
  obtain ⟨t, rfl⟩ := exists_tickerId above
  by_cases valid : feedValid chars
  · by_cases undefined : (c.tickers[t]).state = .undefined
    · rw [feedTicker_undefined valid undefined]
      exact ok
    by_cases room : (c.tickers[t]).chars.length < 256
    · rw [feedTicker_accepts valid undefined room]
      have short := List.length_take_le (256 - (c.tickers[t]).chars.length) chars
      exact ok.setTicker t (tickerOk_feed (ok t) undefined (accepted_ne_nil valid room) (by omega) p d.works.now)
    · rw [feedTicker_full valid undefined (Nat.not_lt.1 room)]
      exact ok
  · rw [feedTicker_bad valid]
    exact ok

theorem flushTicker_tickersOk (ticker : Nat) : (flushTicker ticker c d).1.tickersOk := by
  by_cases above : 7 < ticker
  · rw [flushTicker_above above]
    exact ok
  obtain ⟨t, rfl⟩ := exists_tickerId above
  by_cases undefined : (c.tickers[t]).state = .undefined
  · rw [flushTicker_undefined undefined]
    exact ok
  · rw [flushTicker_defined undefined]
    exact ok.setTicker t (tickerOk_emptied (ok t))

theorem scrollTicker_tickersOk (t : TickerId) : (scrollTicker t c d).1.tickersOk := by
  cases due : (c.tickers[t]).deadline with
  | none =>
    rw [scrollTicker_still due]
    exact ok
  | some at_ =>
    rw [scrollTicker_due due]
    exact ok.setTicker t (tickerOk_step (ok t) (Option.isSome_of_eq_some due) _ at_)

end

theorem effect_tickersOk (i : Instr) (c : Content) (d : Delivery) (ok : c.tickersOk) : (effect i c d).tickersOk := by
  cases moves : movesType i with
  | false => exact ok.congr (effect_sameType i c d moves).2
  | true =>
    cases i with
    | resetn =>
      obtain ⟨-, -, -, -, -, -, -, tickers, -⟩ := resetStateIsSafe
      exact tickers
    | fontSetup p font height => exact ok.congr (setupFont_tickers font height c d)
    | glyphLoad p font entries => exact ok.congr (loadGlyphs_tickers font entries c d)
    | tokenSet p token text => exact ok.congr (setToken_tickers token text c d)
    | tickerSetup => exact setupTicker_tickersOk ok d _ _ _ _ _ _
    | tickerFeed => exact feedTicker_tickersOk ok d _ _ _
    | tickerFlush => exact flushTicker_tickersOk ok d _
    | scrollStep => exact scrollTicker_tickersOk ok d _
    | boardClear =>
      rw [effect, clearAll_eq]
      exact ok.cleared
    | _ => cases moves

/-- Settles O9: only RESETN, BOARD_CLEAR and the commands of the ticker unit touch a ticker. What empties the ring also ends
RUNNING and the step deadline, and a feed that is accepted sets or keeps both. -/
theorem stepsKeepTickers : Obligations.StepsKeepTickers := by
  unfold Obligations.StepsKeepTickers
  intro s t ok step
  exact step_keeps_content Content.tickersOk effect_tickersOk s t step ok

/-- Settles O59: each request by the cases of its check, and a SCROLL_STEP by the split of the characters held into those
that it removes and those that it leaves. -/
theorem tickersFollowTheirRules : Obligations.TickersFollowTheirRules := by
  unfold Obligations.TickersFollowTheirRules
  refine ⟨fun p v font window period columns low chars s => ⟨fun above take supervisor => ?_, fun above take => ?_,
    fun above take => ?_⟩, fun p t s => ?_⟩
  · exact refuses_of_supervised p _ (setupTicker v font window period columns low) s _ rfl take supervisor
      (setupTicker_above above _ _ _ _ _ _)
  · exact refuses_of_request p _ (feedTicker p v chars) s _ rfl take (feedTicker_above above p chars _ _)
  · exact refuses_of_request p _ (flushTicker v) s _ rfl take (flushTicker_above above _ _)
  intro c k changed raised
  have raises (cause : Cause) (d : Delivery) : raiseTicker c.board cause t d = raised cause d :=
    raiseTicker_eq c.board cause t d
  refine ⟨?_, ?_, ?_, ?_⟩
  · intro f window period columns low i new take supervisor
    have clamped : (k.configure f window period columns low).emptied = new := by
      simp only [Ticker.configure, Ticker.emptied, Nat.lt_succ_iff]
      rfl
    refine replies_of_supervised p i (setupTicker t.val f.val window period columns low) s _ _ _ rfl take supervisor
      ((setupTicker_val t f window period columns low _ _).trans ?_)
    rw [clamped, raises]
    rfl
  · intro chars i accepted reply fed take
    have answers {c' : Content} {d : Delivery} {r : Reply} := replies_of_request p i (feedTicker p t.val chars) s c' d r
      rfl take
    refine ⟨fun bad => answers (feedTicker_bad ((not_feedValid_iff chars).2 bad) p _), fun some_fed short glyphs => ?_⟩
    have valid : feedValid chars := ⟨some_fed, short, glyphs⟩
    refine ⟨fun undefined => answers (feedTicker_undefined valid undefined p _),
      fun defined full => answers (feedTicker_full valid defined full p _), fun running room => ?_, fun still room => ?_⟩
    · have defined : k.state ≠ .undefined := running ▸ by decide
      refine answers ((feedTicker_accepts valid defined room p _).trans ?_)
      rw [raises, Ticker.feed_running running]
      rfl
    · have defined : k.state ≠ .undefined := by
        rcases still with idle | dry
        · exact idle ▸ by decide
        · exact dry ▸ by decide
      refine answers ((feedTicker_accepts valid defined room p _).trans ?_)
      rw [raises, Ticker.feed_still still]
      rfl
  · intro i take
    have answers {c' : Content} {d : Delivery} {r : Reply} := replies_of_request p i (flushTicker t.val) s c' d r rfl take
    refine ⟨fun undefined => answers (flushTicker_undefined undefined _), fun defined => ?_⟩
    refine answers ((flushTicker_defined defined _).trans ?_)
    rw [raises]
    rfl
  · intro at_ gone rest due held f sum offset fit stop head new d
    refine leaves_of_contentEvent (scrollTicker t) rfl ((scrollTicker_due due s.delivery).trans ?_)
    rw [raises, Ticker.step_split held fit stop, Ticker.crossesLow_split held fit stop]
    refine Prod.ext rfl (congrArg (raised .scroll) ?_)
    change noticeLow t (decide (rest.length ≤ k.lowWater ∧ k.lowWater < k.chars.length)) k.lastFeeder d = _
    cases k.lastFeeder with
    | none => rfl
    | some x => exact noticeLow_of_feeder t _ x d

end Sys2Proof.Machine
end

section
/-! Strip coding: what each part of the greedy scan takes from the bytes before it, and the code words of a segment (R152). -/

namespace Sys2Proof.Machine

/-! ## The count of equal bytes (R152) -/

theorem runOf_le (b : Byte) (n : Nat) (bytes : List Byte) : runOf b n bytes ≤ n := by
  fun_induction runOf b n bytes with
  | case1 => exact Nat.le_refl 0
  | case2 => exact Nat.zero_le _
  | case3 n xs ih => exact Nat.succ_le_succ ih
  | case4 => exact Nat.zero_le _

theorem replicate_runOf_append_drop (b : Byte) (n : Nat) (bytes : List Byte) :
    List.replicate (runOf b n bytes) b ++ bytes.drop (runOf b n bytes) = bytes := by
  fun_induction runOf b n bytes with
  | case1 | case2 | case4 => rfl
  | case3 n xs ih => rw [List.replicate_succ, List.cons_append, List.drop_succ_cons, ih]

/-- The count ends at its limit, at another byte, or at the end of the bytes. -/
theorem head?_drop_runOf {b : Byte} {n : Nat} {bytes : List Byte} (short : runOf b n bytes < n) :
    (bytes.drop (runOf b n bytes)).head? ≠ some b := by
  fun_induction runOf b n bytes with
  | case1 => exact absurd short (Nat.lt_irrefl 0)
  | case2 => simp
  | case3 n xs ih => exact ih (Nat.lt_of_succ_lt_succ short)
  | case4 n x xs other => simpa using other

/-- The count tells a RUN from a LITERAL: it reaches 3 where three equal bytes begin. -/
theorem three_le_runOf_iff (b : Byte) (n : Nat) (bytes : List Byte) :
    3 ≤ runOf b (n + 3) (b :: bytes) ↔ beginsRun (b :: bytes) = true := by
  match bytes with
  | [] => simp [runOf, beginsRun]
  | [c] => by_cases second : c = b <;> simp [runOf, beginsRun, second]
  | c :: d :: bytes =>
    by_cases second : c = b
    · subst second
      by_cases third : d = c
      · simp [runOf, beginsRun, third]
      · simp [runOf, beginsRun, third, Ne.symm third]
    · simp [runOf, beginsRun, second, Ne.symm second]

/-! ## The bytes of a LITERAL (R152) -/

theorem literalOf_append (n : Nat) (bytes : List Byte) : (literalOf n bytes).1 ++ (literalOf n bytes).2 = bytes := by
  fun_induction literalOf n bytes with
  | case1 | case2 | case3 => rfl
  | case4 n b bytes _ ih => exact congrArg (b :: ·) ih

theorem literalOf_length_le (n : Nat) (bytes : List Byte) : (literalOf n bytes).1.length ≤ n := by
  fun_induction literalOf n bytes with
  | case1 => exact Nat.le_refl 0
  | case2 | case3 => exact Nat.zero_le _
  | case4 n b bytes _ ih => exact Nat.succ_le_succ ih

theorem literalOf_length_pos {b : Byte} {bytes : List Byte} (none_begins : beginsRun (b :: bytes) = false) (n : Nat) :
    0 < (literalOf (n + 1) (b :: bytes)).1.length := by
  simp [literalOf, none_begins]

/-- No byte joins a LITERAL at which three equal bytes of the segment begin. -/
theorem beginsRun_drop_of_lt_literalOf {n k : Nat} {bytes : List Byte} (inside : k < (literalOf n bytes).1.length) :
    beginsRun (bytes.drop k) = false := by
  fun_induction literalOf n bytes generalizing k with
  | case1 | case2 | case3 => exact absurd inside (Nat.not_lt_zero k)
  | case4 n b bytes none_begins ih =>
    cases k with
    | zero => exact Bool.eq_false_iff.2 none_begins
    | succ k => exact ih (Nat.lt_of_succ_lt_succ inside)

/-- A LITERAL below its limit ends at the end of the segment, or where three equal bytes begin. -/
theorem literalOf_rest {n : Nat} {bytes : List Byte} (short : (literalOf n bytes).1.length < n) :
    (literalOf n bytes).2 = [] ∨ beginsRun (literalOf n bytes).2 = true := by
  fun_induction literalOf n bytes with
  | case1 => exact absurd short (Nat.lt_irrefl 0)
  | case2 => exact .inl rfl
  | case3 n b bytes begins => exact .inr begins
  | case4 n b bytes _ ih => exact ih (Nat.lt_of_succ_lt_succ short)

/-! ## The code words of a segment (R152) -/

/-- What the greedy scan makes sure of for a code word before the bytes `rest` of its segment (R152). -/
def CodeWord.FollowsScan (rest : List Byte) : CodeWord → Prop
  | .run n b => 3 ≤ n ∧ n ≤ 130 ∧ (CodeWord.run n b).bytes.length = 2 ∧ (n < 130 → rest.head? ≠ some b)
  | .literal bytes => 1 ≤ bytes.length ∧ bytes.length ≤ 128 ∧
      (CodeWord.literal bytes).bytes.length = 1 + bytes.length ∧
      (∀ k < bytes.length, beginsRun ((bytes ++ rest).drop k) = false) ∧
      (bytes.length < 128 → rest = [] ∨ beginsRun rest = true)

/-- Every code word stands for a byte at least, so that one word a byte is bound enough for a scan. -/
theorem CodeWord.FollowsScan.rest_length_le {word : CodeWord} {rest bytes : List Byte} {b : Byte}
    (follows : word.FollowsScan rest) (whole : word.expand ++ rest = b :: bytes) : rest.length ≤ bytes.length := by
  have some_byte : 0 < word.expand.length := by
    cases word with
    | run n x =>
      obtain ⟨three, _⟩ := follows
      rw [CodeWord.expand, List.length_replicate]
      exact Nat.zero_lt_of_lt three
    | literal own => exact follows.1
  have lengths := congrArg List.length whole
  rw [List.length_append, List.length_cons] at lengths
  omega

/-- One turn of the scan: the bytes there are those of its code word and those it goes on with. -/
theorem scan_succ (fuel : Nat) (b : Byte) (bytes : List Byte) :
    ∃ word rest, scan (fuel + 1) (b :: bytes) = word :: scan fuel rest ∧ word.expand ++ rest = b :: bytes ∧
      word.FollowsScan rest := by
  by_cases three : 3 ≤ runOf b 130 (b :: bytes)
  · exact ⟨.run (runOf b 130 (b :: bytes)) b, _, if_pos three, replicate_runOf_append_drop b 130 _,
      three, runOf_le b 130 _, rfl, head?_drop_runOf⟩
  · have none_begins : beginsRun (b :: bytes) = false := Bool.eq_false_iff.2 (mt (three_le_runOf_iff b 127 bytes).2 three)
    have whole := literalOf_append 128 (b :: bytes)
    refine ⟨.literal (literalOf 128 (b :: bytes)).1, _, if_neg three, whole, literalOf_length_pos none_begins 127,
      literalOf_length_le 128 _, Nat.add_comm _ 1, fun k inside => ?_, literalOf_rest⟩
    rw [whole]
    exact beginsRun_drop_of_lt_literalOf inside

theorem expand_scan {fuel : Nat} {bytes : List Byte} (enough : bytes.length ≤ fuel) :
    (scan fuel bytes).flatMap CodeWord.expand = bytes := by
  induction fuel generalizing bytes with
  | zero => rw [List.length_eq_zero_iff.1 (Nat.le_zero.1 enough)]; rfl
  | succ fuel ih =>
    cases bytes with
    | nil => rfl
    | cons b bytes =>
      obtain ⟨word, rest, turn, whole, follows⟩ := scan_succ fuel b bytes
      have enough' : rest.length ≤ fuel := (follows.rest_length_le whole).trans (Nat.le_of_succ_le_succ enough)
      rw [turn, List.flatMap_cons, ih enough', whole]

theorem followsScan_of_scan {fuel : Nat} {bytes : List Byte} (enough : bytes.length ≤ fuel) {before after : List CodeWord}
    {word : CodeWord} (split : scan fuel bytes = before ++ word :: after) :
    word.FollowsScan (after.flatMap CodeWord.expand) := by
  induction fuel generalizing bytes before with
  | zero => exact absurd split (by simp [scan])
  | succ fuel ih =>
    cases bytes with
    | nil => exact absurd split (by simp [scan])
    | cons b bytes =>
      obtain ⟨first, rest, turn, whole, follows⟩ := scan_succ fuel b bytes
      have enough' : rest.length ≤ fuel := (follows.rest_length_le whole).trans (Nat.le_of_succ_le_succ enough)
      rw [turn] at split
      cases before with
      | nil =>
        obtain ⟨rfl, rfl⟩ := List.cons.inj split
        rwa [expand_scan enough']
      | cons _ before => exact ih enough' (List.cons.inj split).2

/-- Settles O51: each turn of the scan takes a code word's bytes off the front of the segment and stops where R152 says, and
the bound of one word a byte lets the scan reach the end. -/
theorem codeWordsFollowTheGreedyScan : Obligations.CodeWordsFollowTheGreedyScan := by
  unfold Obligations.CodeWordsFollowTheGreedyScan
  refine fun segment => ⟨expand_scan (Nat.le_refl _), fun before after word split => ?_⟩
  have follows := followsScan_of_scan (Nat.le_refl _) split
  cases word with
  | run n b => exact follows
  | literal bytes => exact follows

end Sys2Proof.Machine
end

section
/-! What the events of a swap make of the group records: members drop out, arrive and leave, groups are armed, set up and
ended, and the groups stay in order (R171 to R178). -/

namespace Sys2Proof.Machine

/-! ## One swap (R171) -/

/-- A swap of a group with the members `ms` is in order: its arrived and its dropped members are apart and expected, and who
is expected and has not dropped out is a member. -/
def swapOk (ms : List PanelId) (x : Swap) : Prop :=
  x.arrived.Nodup ∧ (∀ p ∈ x.arrived, p ∈ x.expected ∧ p ∉ x.dropped) ∧ (∀ p ∈ x.dropped, p ∈ x.expected) ∧
    ∀ p ∈ x.expected, p ∉ x.dropped → p ∈ ms

theorem swapOk_of_groupsOk {gs : Vector Group 8} (ok : groupsOk gs) {g : GroupId} {x : Swap} (swap : (gs[g]).swap = some x) :
    swapOk (gs[g]).members x := by
  obtain ⟨-, groups⟩ := ok
  obtain ⟨-, -, -, -, swaps⟩ := groups g
  exact swaps x swap

theorem swapOk_newSwap (source : ArmSource) (w : Works) (g : Group) : swapOk g.members (newSwap source w g) :=
  ⟨List.nodup_nil, List.forall_mem_nil _, List.forall_mem_nil _, fun _ expected _ => List.mem_of_mem_filter expected⟩

section
variable {ms : List PanelId} {x : Swap} (ok : swapOk ms x)
include ok

theorem swapOk_dropMember {p : PanelId} (expected : p ∈ x.expected) : swapOk ms (x.dropMember p) := by
  obtain ⟨once, arrived, dropped, members⟩ := ok
  have stays {m : PanelId} (mem : m ∈ (x.dropMember p).arrived) : m ∈ x.arrived ∧ m ≠ p := by
    obtain ⟨r, staged, rfl⟩ := List.mem_map.1 mem
    obtain ⟨was, other⟩ := List.mem_filter.1 staged
    exact ⟨List.mem_map_of_mem was, of_decide_eq_true other⟩
  refine ⟨once.sublist (List.filter_sublist.map _), fun m mem => ?_, fun m mem => ?_, fun m mem out => ?_⟩
  · obtain ⟨was, other⟩ := stays mem
    obtain ⟨awaited, present⟩ := arrived m was
    exact ⟨awaited, fun joins => ((mem_insertNumber p m _).1 joins).elim other present⟩
  · rcases (mem_insertNumber p m _).1 mem with rfl | was
    · exact expected
    · exact dropped m was
  · exact members m mem (fun was => out ((mem_insertNumber p m _).2 (.inr was)))

theorem swapOk_dropMembers {ps : List PanelId} (expected : ∀ p ∈ ps, p ∈ x.expected) :
    swapOk ms (ps.foldl (fun x p => x.dropMember p) x) := by
  induction ps generalizing x with
  | nil => exact ok
  | cons p ps ih => exact ih (swapOk_dropMember ok (expected p (.head _))) (fun m mem => expected m (.tail _ mem))

/-- A panel that the swap awaits arrives (R175). -/
theorem swapOk_arrived {r : StagedRecord} (awaited : x.awaits r.panel = true) :
    swapOk ms { x with staged := x.staged ++ [r] } := by
  obtain ⟨once, arrived, dropped, members⟩ := ok
  simp only [Swap.awaits, Bool.and_eq_true, Bool.not_eq_true', decide_eq_true_eq, decide_eq_false_iff_not] at awaited
  obtain ⟨⟨expected, present⟩, missing⟩ := awaited
  have joined : ({ x with staged := x.staged ++ [r] } : Swap).arrived = x.arrived ++ [r.panel] := List.map_append
  refine ⟨?_, fun m mem => ?_, dropped, members⟩
  · rw [joined]
    exact once.append (List.nodup_singleton _) (List.disjoint_singleton.2 missing)
  · rw [joined] at mem
    rcases List.mem_append.1 mem with was | new
    · exact arrived m was
    · exact List.mem_singleton.1 new ▸ ⟨expected, present⟩

end

/-! ## The groups with members and settings as they were -/

theorem groupsOk_of_swaps {gs hs : Vector Group 8} (ok : groupsOk gs)
    (kept : ∀ g : GroupId, (hs[g]).members = (gs[g]).members ∧ (hs[g]).setting = (gs[g]).setting)
    (swaps : ∀ (g : GroupId) (x : Swap), (hs[g]).swap = some x → swapOk (gs[g]).members x) : groupsOk hs := by
  obtain ⟨apart, groups⟩ := ok
  refine ⟨fun g h p inG inH => ?_, fun g => ?_⟩
  · rw [(kept g).1] at inG
    rw [(kept h).1] at inH
    exact apart g h p inG inH
  · obtain ⟨few, sorted, low, high, -⟩ := groups g
    rw [(kept g).1, (kept g).2]
    exact ⟨few, sorted, low, high, swaps g⟩

section
variable {gs : Vector Group 8} (ok : groupsOk gs)
include ok

/-- Every group's swap changed. -/
theorem groupsOk_mapSwaps (f : Group → Option Swap)
    (swaps : ∀ (g : GroupId) (x : Swap), f gs[g] = some x → swapOk (gs[g]).members x) :
    groupsOk (mapTable (fun g => { g with swap := f g }) gs) := by
  refine groupsOk_of_swaps ok (fun g => ?_) (fun g => ?_) <;> rw [mapTable_getFin]
  · exact ⟨rfl, rfl⟩
  · exact swaps g

/-- One group's swap changed. -/
theorem groupsOk_modifySwap (g : GroupId) (f : Group → Option Swap)
    (swaps : ∀ x, f gs[g] = some x → swapOk (gs[g]).members x) :
    groupsOk (modifyAt g (fun r => { r with swap := f r }) gs) := by
  refine groupsOk_of_swaps ok (fun j => ?_) (fun j => ?_) <;> rw [modifyAt_getFin] <;> split
  · next same => exact same ▸ ⟨rfl, rfl⟩
  · exact ⟨rfl, rfl⟩
  · next same => exact same ▸ swaps
  · exact fun x => swapOk_of_groupsOk ok

theorem groupsOk_unarmed (g : GroupId) : groupsOk (modifyAt g (fun r => { r with swap := none }) gs) :=
  groupsOk_modifySwap ok g (fun _ => none) (fun _ swap => by cases swap)

/-! ## Members that join and leave (R82, R172) -/

/-- A group set up with panels of no other group (R172). -/
theorem groupsOk_setUp {g : GroupId} {ps : List PanelId} {setting : Nat} (few : ps.length ≤ 16)
    (sorted : ps.Pairwise (· < ·)) (range : 1 ≤ setting ∧ setting ≤ 100)
    (free : ∀ h : GroupId, h ≠ g → ∀ p ∈ ps, p ∉ (gs[h]).members) :
    groupsOk (modifyAt g (fun _ => ⟨ps, setting, none⟩) gs) := by
  obtain ⟨apart, groups⟩ := ok
  refine ⟨fun j k p inJ inK => ?_, fun j => ?_⟩
  · rw [modifyAt_getFin] at inJ inK
    split at inJ <;> split at inK
    · next ej ek => exact ej.symm.trans ek
    · next other => exact absurd inK (free k (Ne.symm other) p inJ)
    · next other _ => exact absurd inJ (free j (Ne.symm other) p inK)
    · exact apart j k p inJ inK
  · rw [modifyAt_getFin]
    split
    · exact ⟨few, sorted, range.1, range.2, fun _ swap => by cases swap⟩
    · exact groups j

/-- A panel that no swap still expects leaves its group (R82). -/
theorem groupsOk_left {p : PanelId} (out : ∀ g : GroupId, (gs[g]).mayDrop p = false) :
    groupsOk (mapTable (fun g => { g with members := g.members.filter (fun x => decide (x ≠ p)) }) gs) := by
  obtain ⟨apart, groups⟩ := ok
  refine ⟨fun g h m inG inH => ?_, fun g => ?_⟩
  · rw [mapTable_getFin] at inG inH
    exact apart g h m (List.mem_of_mem_filter inG) (List.mem_of_mem_filter inH)
  · rw [mapTable_getFin]
    obtain ⟨few, sorted, low, high, swaps⟩ := groups g
    refine ⟨(List.length_filter_le _ _).trans few, sorted.filter _, low, high, fun x swap => ?_⟩
    obtain ⟨once, arrived, dropped, members⟩ := swaps x swap
    refine ⟨once, arrived, dropped, fun m expected present => List.mem_filter.2 ⟨members m expected present, ?_⟩⟩
    refine decide_eq_true fun e => ?_
    have may : Group.mayDrop p gs[g] = true := by
      rw [Group.mayDrop, swap]
      simp [← e, expected, present]
    exact absurd may (Bool.eq_false_iff.1 (out g))

end

theorem membersOf_sorted {members : List Nat} {ps : List PanelId} (made : membersOf members = some ps) :
    ps.Pairwise (· < ·) ∧ ps.length ≤ members.length := by
  have below : ∀ v ∈ members, v < 64 := fun v mem => by
    by_contra high
    rw [membersOf_none ⟨v, mem, Nat.not_lt.1 high⟩] at made
    cases made
  obtain ⟨ps', made', sorted, mem⟩ := membersOf_some below
  cases made.symm.trans made'
  refine ⟨sorted, ?_⟩
  have once : (ps.map Fin.val).Nodup := List.Nodup.map Fin.val_injective (sorted.imp ne_of_lt)
  rw [← List.length_map Fin.val]
  refine (once.subperm fun v inPs => ?_).length_le
  obtain ⟨p, own, rfl⟩ := List.mem_map.1 inPs
  exact (mem p).1 own

/-! ## Drop-outs, arrivals and completion of a swap (R175 to R177) -/

/-- The check of a group leaves all groups as they are, or ends its swap (R177). -/
theorem checkSwap_groups_cases (b : Board) (g : GroupId) (d : Delivery) : (d.checkSwap b g).groups = d.groups ∨
    (d.checkSwap b g).groups = modifyAt g (fun r => { r with swap := none }) d.groups := by
  unfold Delivery.checkSwap
  split
  · exact .inl rfl
  · split
    · exact .inr (by rw [Delivery.endSwap_groups, showSwap_groups])
    · exact .inl rfl

/-- A swap that goes on after a check was there before it (R177). -/
theorem mayDrop_of_checkSwap {b : Board} {g j : GroupId} {d : Delivery} {p : PanelId}
    (may : ((d.checkSwap b g).groups[j]).mayDrop p = true) : (d.groups[j]).mayDrop p = true := by
  rcases checkSwap_groups_cases b g d with same | ended
  · rwa [same] at may
  · rw [ended, modifyAt_getFin] at may
    split at may
    · cases may
    · exact may

/-- The group that a drop-out reaches expects the panel (R176). -/
theorem mayDrop_of_found {d : Delivery} {p : PanelId} {g : GroupId}
    (found : (List.finRange 8).find? (fun g => (d.groups[g]).mayDrop p) = some g) : (d.groups[g]).mayDrop p = true :=
  List.find?_some (p := fun g : GroupId => (d.groups[g]).mayDrop p) found

theorem mayDrop_dropMember (p : PanelId) (g : Group) :
    Group.mayDrop p { g with swap := g.swap.map (Swap.dropMember p) } = false := by
  unfold Group.mayDrop
  cases g.swap <;> simp [Swap.dropMember, mem_insertNumber]

section
variable {d : Delivery} (ok : groupsOk d.groups)
include ok

theorem checkSwap_groupsOk (b : Board) (g : GroupId) : groupsOk (d.checkSwap b g).groups := by
  rcases checkSwap_groups_cases b g d with same | ended
  · exact same ▸ ok
  · exact ended ▸ groupsOk_unarmed ok g

/-- The group of a panel that drops out, the panel in its dropped set (R176). -/
theorem droppedFrom_groupsOk {g : GroupId} {p : PanelId} (may : (d.groups[g]).mayDrop p = true) :
    groupsOk (d.mapGroup g (fun r => { r with swap := r.swap.map (Swap.dropMember p) })).groups := by
  refine groupsOk_modifySwap ok g (fun r => r.swap.map (Swap.dropMember p)) (fun y mapped => ?_)
  obtain ⟨x, swap, rfl⟩ := Option.map_eq_some_iff.1 mapped
  obtain ⟨x', swap', expected, -⟩ := (mayDrop_iff d g p).1 may
  cases swap.symm.trans swap'
  exact swapOk_dropMember (swapOk_of_groupsOk ok swap) expected

theorem dropOut_groupsOk (b : Board) (p : PanelId) : groupsOk (d.dropOut b p).groups := by
  unfold Delivery.dropOut
  split
  · exact ok
  · next g found => exact checkSwap_groupsOk (droppedFrom_groupsOk ok (mayDrop_of_found found)) b g

/-- The swaps that expect a panel are those of its own group, so that one drop-out ends its part in all of them (R176). -/
theorem dropOut_leaves (b : Board) (p : PanelId) (j : GroupId) : ((d.dropOut b p).groups[j]).mayDrop p = false := by
  unfold Delivery.dropOut
  split
  · next none_found => exact Bool.eq_false_of_not_eq_true (List.find?_eq_none.1 none_found j (List.mem_finRange j))
  · next g found =>
    have member {k : GroupId} (may : (d.groups[k]).mayDrop p = true) : p ∈ (d.groups[k]).members := by
      obtain ⟨x, swap, expected, present⟩ := (mayDrop_iff d k p).1 may
      obtain ⟨-, -, -, members⟩ := swapOk_of_groupsOk ok swap
      exact members p expected present
    refine Bool.eq_false_of_not_eq_true (fun after => ?_)
    have before := mayDrop_of_checkSwap after
    rw [Delivery.mapGroup_groups, modifyAt_getFin] at before
    split at before
    · exact absurd before (Bool.eq_false_iff.1 (mayDrop_dropMember p d.groups[g]))
    · next other => exact other (ok.1 g j p (member (mayDrop_of_found found)) (member before))

theorem dropOutAll_groupsOk (b : Board) (ps : List PanelId) : groupsOk (d.dropOutAll b ps).groups := by
  unfold Delivery.dropOutAll
  refine foldl_keeps (fun e : Delivery => groupsOk e.groups) _ (fun e g k => checkSwap_groupsOk k b g) _ _ ?_
  refine groupsOk_mapSwaps ok (fun g => g.swap.map
    (fun x => (ps.filter (fun p => g.mayDrop p)).foldl (fun x p => x.dropMember p) x)) (fun g y mapped => ?_)
  obtain ⟨x, swap, rfl⟩ := Option.map_eq_some_iff.1 mapped
  refine swapOk_dropMembers (swapOk_of_groupsOk ok swap) (fun p mem => ?_)
  obtain ⟨x', swap', expected, -⟩ := (mayDrop_iff d g p).1 (List.mem_filter.1 mem).2
  cases swap.symm.trans swap'
  exact expected

/-- An arrival of a panel in the group that awaits it (R175). -/
theorem arrive_groupsOk (b : Board) {g : GroupId} {r : StagedRecord} (found : awaitingGroup d.groups r.panel = some g) :
    groupsOk (d.arrive b g r).groups := by
  refine checkSwap_groupsOk ?_ b g
  refine groupsOk_modifySwap ok g (fun k => k.swap.map (fun x => { x with staged := x.staged ++ [r] })) (fun y mapped => ?_)
  obtain ⟨x, swap, rfl⟩ := Option.map_eq_some_iff.1 mapped
  have awaits := List.find?_some found
  rw [Group.awaits, swap] at awaits
  exact swapOk_arrived (swapOk_of_groupsOk ok swap) awaits

/-! ## Raised causes, arming and the deadline (R85, R173, R178) -/

theorem raise_groupsOk (b : Board) (cause : Cause) (p : PanelId) : groupsOk (d.raise b cause p).groups := by
  unfold Delivery.raise
  split
  · exact ok
  · next q _ =>
    simp only []
    split
    · exact dropOut_groupsOk (d := d.mapWorks (Works.setPanel p (q.gain cause))) ok b p
    · exact ok

theorem raiseWhere_groupsOk (b : Board) (cause : Cause) (test : Panel → Bool) :
    groupsOk (d.raiseWhere b cause test).groups :=
  foldl_keeps (fun e : Delivery => groupsOk e.groups) _ (fun _ p k => raise_groupsOk k b cause p) _ _ ok

theorem arm_groupsOk (b : Board) (source : ArmSource) (g : GroupId) : groupsOk (d.arm b source g).groups := by
  cases swap : (d.groups[g]).swap with
  | some x =>
    simp only [Delivery.arm, swap]
    exact ok
  | none =>
    rw [groupArm_eq swap]
    refine checkSwap_groupsOk ?_ b g
    rw [raises_groups b .stage (by decide)]
    refine groupsOk_modifySwap ok g (fun r => some (newSwap source d.works r)) (fun x new => ?_)
    cases new
    exact swapOk_newSwap source d.works d.groups[g]

theorem lapseSwap_groupsOk (b : Board) (g : GroupId) (x : Swap) : groupsOk (d.lapseSwap b g x).groups := by
  unfold Delivery.lapseSwap
  rw [Delivery.endSwap_groups, raises_groups b .content (by decide), notifyIncomplete_groups, showSwap_groups]
  exact groupsOk_unarmed ok g

/-! ## The requests of the swap group unit (R172, R173) -/

theorem setupGroup_groupsOk (group : Nat) (members : List Nat) (deadline : Nat) (c : Content) :
    groupsOk (setupGroup group members deadline c d).2.1.groups := by
  unfold setupGroup
  dsimp only
  repeat' split
  any_goals exact ok
  next g ps _ made short _ others =>
  obtain ⟨sorted, few⟩ := membersOf_sorted made
  refine groupsOk_setUp ok (few.trans (Nat.not_lt.1 short)) sorted ⟨Nat.le_max_left 1 _, by simp [clampTo]⟩
    (fun h other p inPs inH => others ?_)
  exact List.any_eq_true.2 ⟨p, inPs, (inOtherGroup_iff d g p).2 ⟨h, other, inH⟩⟩

theorem armRequest_groupsOk (p : PortId) (group : Nat) (c : Content) :
    groupsOk (armRequest p group c d).2.1.groups := by
  unfold armRequest
  dsimp only
  repeat' split
  any_goals exact ok
  exact arm_groupsOk ok ..

end

end Sys2Proof.Machine
end

section
/-! The commands of the content side keep the swap groups in order: what reaches a group from there is a raised cause or the
arming of a group by a hold (R72, R85, R173, R176). -/

namespace Sys2Proof.Machine

section
variable {d : Delivery} (ok : groupsOk d.groups)
include ok

theorem checkConfirmation_groupsOk (b : Board) (k : Confirmation) : groupsOk (d.checkConfirmation b k).groups := by
  unfold Delivery.checkConfirmation
  split <;> exact ok

theorem checkConfirmations_groupsOk (b : Board) : groupsOk (d.checkConfirmations b).groups :=
  (checkConfirmations_frame b d).1 ▸ ok

theorem checkPlacard_groupsOk (b : Board) (n : PlacardId) : groupsOk (d.checkPlacard b n).groups :=
  foldl_keeps (fun e : Delivery => groupsOk e.groups) _ (fun _ k same => checkConfirmation_groupsOk same b k) _ _ ok

/-! ## Departure lists, parameters and destinations -/

theorem raiseListChange_groupsOk (b : Board) (l : ListId) (content figure : Bool) :
    groupsOk (raiseListChange b l content figure d).groups := by
  have first : groupsOk (if content then raiseList b .content l d else d).groups := by
    split
    · exact raiseWhere_groupsOk ok ..
    · exact ok
  unfold raiseListChange
  dsimp only
  split
  · exact raiseWhere_groupsOk first ..
  · exact first

theorem insertEntry_groupsOk (l : ListId) (e : Entry) (c : Content) : groupsOk (insertEntry l e c d).2.1.groups := by
  unfold insertEntry
  dsimp only
  repeat' split
  any_goals exact ok
  · exact raiseWhere_groupsOk ok ..
  · exact raiseWhere_groupsOk (d := d.notify _ _) ok ..

theorem listRequest_groupsOk (list trip : Nat) (valid : Bool)
    (f : ListId → Content → Delivery → Content × Delivery × Reply) (c : Content)
    (k : ∀ l, groupsOk (f l c d).2.1.groups) : groupsOk (listRequest list trip valid f c d).2.1.groups := by
  unfold listRequest
  repeat' split
  any_goals exact ok
  exact k _

theorem entryRequest_groupsOk (list trip : Nat) (f : ListId → Entry → Content → Delivery → Content × Delivery × Reply)
    (c : Content) (k : ∀ l e, groupsOk (f l e c d).2.1.groups) : groupsOk (entryRequest list trip f c d).2.1.groups := by
  refine listRequest_groupsOk ok list trip true _ c (fun l => ?_)
  split
  · exact ok
  · exact k l _

theorem putTrip_groupsOk (p : PortId) (trip line destination scheduled : Nat) (l : ListId) (c : Content) :
    groupsOk (putTrip p trip line destination scheduled l c d).2.1.groups := by
  unfold putTrip
  split
  · exact insertEntry_groupsOk ok ..
  · exact raiseListChange_groupsOk ok ..

theorem predictTrip_groupsOk (p : PortId) (predicted : Nat) (l : ListId) (e : Entry) (c : Content) :
    groupsOk (predictTrip p predicted l e c d).2.1.groups := by
  unfold predictTrip
  split
  · exact ok
  · exact raiseListChange_groupsOk ok ..

theorem setDestination_groupsOk (index : Nat) (text : List Nat) (c : Content) :
    groupsOk (setDestination index text c d).2.1.groups := by
  unfold setDestination
  repeat' split
  any_goals exact ok
  exact raiseWhere_groupsOk ok ..

theorem refigureAll_groupsOk (c : Content) : groupsOk (refigureAll c d).2.groups :=
  foldl_keeps (fun cd : Content × Delivery => groupsOk cd.2.groups) refigureList
    (fun _ _ k => raiseListChange_groupsOk k ..) _ _ ok

theorem changeSettings_groupsOk (pairs : List (Nat × Nat)) (c : Content) :
    groupsOk (changeSettings pairs c d).2.1.groups := by
  unfold changeSettings
  split
  · exact ok
  · split
    · exact ok
    · next x _ _ =>
      dsimp only
      split
      · exact ok
      · exact refigureAll_groupsOk ok { c with settings := x }

/-! ## The clock -/

theorem evaluateWindows_groupsOk (now : Nat) (c : Content) : groupsOk (evaluateWindows now c d).2.groups := by
  refine foldl_keeps (fun cd : Content × Delivery => groupsOk cd.2.groups) _ (fun cd n k => ?_) _ _ ok
  unfold evaluateWindow
  dsimp only
  repeat' split
  any_goals exact k
  exact raiseWhere_groupsOk (d := cd.2.mapWorks _) k ..

theorem afterSecond_groupsOk (hysteresis : Bool) (c : Content) : groupsOk (afterSecond hysteresis c d).2.groups := by
  unfold afterSecond
  refine evaluateWindows_groupsOk ?_ ..
  refine foldl_keeps (fun e : Delivery => groupsOk e.groups) _ (fun e l k => raiseListChange_groupsOk ?_ ..) _ _ ok
  refine foldl_keeps (fun e : Delivery => groupsOk e.groups) _ (fun e (x : Entry) k => ?_) _ _ k
  exact foldl_keeps (fun e : Delivery => groupsOk e.groups) (fun d n => d.notify n x.source) (fun _ _ k => k) _ _ k

theorem limitNotice_groupsOk (entered : Bool) : groupsOk (limitNotice entered d).groups := by
  unfold limitNotice
  split <;> exact ok

theorem followClock_groupsOk (hysteresis second minute blink limit : Bool) (c : Content) :
    groupsOk (followClock hysteresis second minute blink limit c d).2.groups := by
  have passed : groupsOk (if second then afterSecond hysteresis c d else (c, d)).2.groups := by
    split
    · exact afterSecond_groupsOk ok hysteresis c
    · exact ok
  have raised {e : Delivery} (k : groupsOk e.groups) (b : Board) (yes : Bool) (cause : Cause) (test : Panel → Bool) :
      groupsOk (if yes then e.raiseWhere b cause test else e).groups := by
    split
    · exact raiseWhere_groupsOk k ..
    · exact k
  exact limitNotice_groupsOk (raised (raised passed _ minute .clock _) _ blink .blink _) limit

theorem setClock_groupsOk (t : Nat) (c : Content) : groupsOk (setClock t c d).2.1.groups := by
  have starts : groupsOk (startClock t c d).2.1.groups := by
    rw [startClock_eq]
    exact followClock_groupsOk ok ..
  have steps : groupsOk (stepClock t c d).2.1.groups := by
    rw [stepClock_eq]
    exact followClock_groupsOk ok ..
  have slews (x : Int) : groupsOk (slewClock x c d).2.1.groups := limitNotice_groupsOk ok _
  have adjusts (small : Prop) [Decidable small] (x : Int) :
      groupsOk (if small then slewClock x c d else stepClock t c d).2.1.groups := by
    split
    · exact slews x
    · exact steps
  unfold setClock
  dsimp only
  split
  · exact ok
  · split
    · exact starts
    · split
      · exact ok
      · exact adjusts ..
    all_goals exact adjusts ..

theorem newDay_groupsOk (t : Nat) (c : Content) : groupsOk (newDay t c d).2.1.groups := by
  by_cases above : clockLimit < t
  · rw [newDay_refused t c d above]
    exact ok
  · rw [newDay_eq t c d above]
    exact followClock_groupsOk (evaluateWindows_groupsOk (raiseWhere_groupsOk ok ..) ..) ..

/-! ## The board -/

theorem changePlacard_groupsOk (n : PlacardId) (old : Option Placard) (new : Placard) (order : List PlacardId)
    (cells : Nat) (c : Content) : groupsOk (changePlacard n old new order cells c d).2.groups :=
  checkPlacard_groupsOk (raiseWhere_groupsOk (d := d.mapWorks _) ok ..) ..

theorem removePlacard_groupsOk (n : PlacardId) (old : Placard) (c : Content) :
    groupsOk (removePlacard n old c d).2.groups :=
  foldl_keeps (fun e : Delivery => groupsOk e.groups) Delivery.cancelConfirmation (fun _ _ k => k) _ _
    (raiseWhere_groupsOk (d := d.mapWorks _) ok ..)

theorem postPlacard_groupsOk (p : PortId) (f : PostReq) (c : Content) :
    groupsOk (postPlacard p f c d).2.1.groups := by
  unfold postPlacard
  repeat' split
  any_goals exact ok
  exact changePlacard_groupsOk ok ..

theorem amendPlacard_groupsOk (p : PortId) (f : AmendReq) (n : PlacardId) (old : Placard) (c : Content) :
    groupsOk (amendPlacard p f n old c d).2.1.groups := by
  unfold amendPlacard
  dsimp only
  repeat' split
  any_goals exact ok
  all_goals exact changePlacard_groupsOk ok ..

theorem setText_groupsOk (p : PortId) (text : List Nat) (n : PlacardId) (old : Placard) (c : Content) :
    groupsOk (setText p text n old c d).2.1.groups := by
  unfold setText
  dsimp only
  repeat' split
  any_goals exact ok
  exact changePlacard_groupsOk ok ..

theorem withdrawPlacard_groupsOk (p : PortId) (n : PlacardId) (old : Placard) (c : Content) :
    groupsOk (withdrawPlacard p n old c d).2.1.groups := by
  unfold withdrawPlacard
  dsimp only
  repeat' split
  any_goals exact ok
  exact removePlacard_groupsOk ok ..

theorem placardRequest_groupsOk (number : Nat) (valid : Bool)
    (f : PlacardId → Placard → Content → Delivery → Content × Delivery × Reply) (c : Content)
    (k : ∀ n pl, groupsOk (f n pl c d).2.1.groups) : groupsOk (placardRequest number valid f c d).2.1.groups := by
  unfold placardRequest
  repeat' split
  any_goals exact ok
  exact k _ _

/-- A board clear leaves every group IDLE (R180). -/
theorem clearAll_groupsOk (c : Content) : groupsOk (clearAll c d).2.1.groups := by
  rw [clearAll_delivery]
  exact groupsOk_mapSwaps ok (fun _ => none) (fun _ _ swap => nomatch swap)

/-! ## Holds and split requests -/

theorem taggedRequest_groupsOk (p : PortId) (tag : Nat) (f : Tag → Content → Delivery → Content × Delivery × Reply)
    (c : Content) (k : ∀ t, groupsOk (f t c d).2.1.groups) : groupsOk (taggedRequest p tag f c d).2.1.groups := by
  unfold taggedRequest
  repeat' split
  any_goals exact ok
  exact k _

theorem confirmRequest_groupsOk (p : PortId) (tag number timeout : Nat) (c : Content) : groupsOk
    (taggedRequest p tag (fun t => placardRequest number true (openConfirmation p timeout t)) c d).2.1.groups := by
  refine taggedRequest_groupsOk ok _ _ _ c (fun t => placardRequest_groupsOk ok _ _ _ c (fun n pl => ?_))
  unfold openConfirmation
  exact checkConfirmation_groupsOk (d := { d.mapPort p (fun pt => { pt with tags := pt.tags.set t .confirm }) with
    confirmations := _ }) ok ..

theorem takeHold_groupsOk (p : PortId) (hold : Nat) (wait : Option (Tag × Nat)) (c : Content) :
    groupsOk (takeHold p hold wait c d).2.1.groups := by
  have queued (x : HoldId) (owner : PortId) : groupsOk (queueTake p x owner wait c d).2.1.groups := by
    unfold queueTake
    dsimp only
    repeat' split
    all_goals exact ok
  unfold takeHold
  repeat' split
  any_goals exact ok
  all_goals exact queued _ _

theorem takeRequest_groupsOk (p : PortId) (tag hold wait : Nat) (c : Content) :
    groupsOk (takeRequest p tag hold wait c d).2.1.groups := by
  unfold takeRequest
  split
  · exact takeHold_groupsOk ok ..
  · exact taggedRequest_groupsOk ok p tag _ c (fun _ => takeHold_groupsOk ok ..)

/-- A hold that is released arms its group (R72). -/
theorem releaseNeighbours_groupsOk (x : HoldId) (c : Content) : groupsOk (releaseNeighbours x c d).groups := by
  unfold releaseNeighbours
  dsimp only
  split
  · exact raiseWhere_groupsOk ok ..
  · exact raiseWhere_groupsOk (arm_groupsOk ok ..) ..

theorem releaseHold_groupsOk (x : HoldId) (c : Content) : groupsOk (releaseHold x c d).2.groups := by
  unfold releaseHold
  dsimp only
  split
  · exact releaseNeighbours_groupsOk ok ..
  · exact releaseNeighbours_groupsOk (d := d.complete _ _) ok ..

theorem releaseRequest_groupsOk (p : PortId) (hold : Nat) (c : Content) :
    groupsOk (releaseRequest p hold c d).2.1.groups := by
  unfold releaseRequest
  dsimp only
  repeat' split
  any_goals exact ok
  exact releaseHold_groupsOk ok ..

theorem handoverRequest_groupsOk (p : PortId) (hold heir : Nat) (c : Content) :
    groupsOk (handoverRequest p hold heir c d).2.1.groups := by
  unfold handoverRequest handHold
  dsimp only
  repeat' split
  all_goals exact ok

theorem setupHold_groupsOk (hold limit group : Nat) (c : Content) :
    groupsOk (setupHold hold limit group c d).2.1.groups := by
  unfold setupHold
  dsimp only
  repeat' split
  all_goals exact ok

theorem expireHold_groupsOk (x : HoldId) (c : Content) : groupsOk (expireHold x c d).2.groups := by
  unfold expireHold
  split
  · exact releaseHold_groupsOk (d := (d.reach _).notify _ _) ok ..
  · exact ok

theorem cancelSplit_groupsOk (p : PortId) (tag : Nat) (c : Content) :
    groupsOk (cancelSplit p tag c d).2.1.groups := by
  unfold cancelSplit cancelWait cancelConfirm
  repeat' split
  all_goals exact ok

/-! ## Type store and tickers -/

theorem setupFont_groupsOk (font height : Nat) (c : Content) : groupsOk (setupFont font height c d).2.1.groups := by
  unfold setupFont
  repeat' split
  any_goals exact ok
  exact raiseWhere_groupsOk ok ..

theorem loadGlyphs_groupsOk (font : Nat) (entries : List GlyphEntry) (c : Content) :
    groupsOk (loadGlyphs font entries c d).2.1.groups := by
  unfold loadGlyphs
  dsimp only
  repeat' split
  any_goals exact ok
  exact raiseWhere_groupsOk ok ..

theorem setToken_groupsOk (token : Nat) (text : List Nat) (c : Content) :
    groupsOk (setToken token text c d).2.1.groups := by
  unfold setToken
  repeat' split
  any_goals exact ok
  exact raiseWhere_groupsOk ok ..

theorem setupTicker_groupsOk (ticker font window period columns lowWater : Nat) (c : Content) :
    groupsOk (setupTicker ticker font window period columns lowWater c d).2.1.groups := by
  unfold setupTicker
  repeat' split
  any_goals exact ok
  exact raiseWhere_groupsOk ok ..

theorem feedTicker_groupsOk (p : PortId) (ticker : Nat) (chars : List Nat) (c : Content) :
    groupsOk (feedTicker p ticker chars c d).2.1.groups := by
  unfold feedTicker
  dsimp only
  repeat' split
  any_goals exact ok
  exact raiseWhere_groupsOk ok ..

theorem flushTicker_groupsOk (ticker : Nat) (c : Content) : groupsOk (flushTicker ticker c d).2.1.groups := by
  unfold flushTicker
  dsimp only
  repeat' split
  any_goals exact ok
  exact raiseWhere_groupsOk ok ..

theorem noticeLow_groupsOk (t : TickerId) (crosses : Bool) (feeder : Option PortId) :
    groupsOk (noticeLow t crosses feeder d).groups := by
  unfold noticeLow
  repeat' split
  all_goals exact ok

theorem scrollTicker_groupsOk (t : TickerId) (c : Content) : groupsOk (scrollTicker t c d).2.groups := by
  unfold scrollTicker
  dsimp only
  split
  · exact ok
  · exact raiseWhere_groupsOk (noticeLow_groupsOk (d := d.reach _) ok ..) ..

end

end Sys2Proof.Machine
end

section
/-! The commands of panels, links and lanes keep the swap groups in order, and with them every command (R82, R95, R155, R175,
R176). -/

namespace Sys2Proof.Machine

/-- The report decides on the groups, not the link's return to IDLE (R165). -/
theorem concludeFrame_groupsOk {d : Delivery} {report : Delivery → Delivery} (reported : groupsOk (report d).groups)
    (l : LinkId) (o : LinkOutcome) (p : PanelId) : groupsOk (concludeFrame l o p report d).groups := reported

section
variable {d : Delivery} (ok : groupsOk d.groups)
include ok

theorem mapWorks_groupsOk (f : Works → Works) : groupsOk (d.mapWorks f).groups := ok

/-! ## Reports at the panel table (R87 to R94) -/

theorem reportDelivered_groupsOk (b : Board) (f : FrameRecord) : groupsOk (reportDelivered b f d).groups := by
  unfold reportDelivered
  repeat' split
  any_goals exact ok
  · next found =>
    unfold deliverStaged
    dsimp only
    split <;> exact arrive_groupsOk ok b found
  · exact checkConfirmations_groupsOk (d := d.mapWorks _) ok b

theorem reportFailed_groupsOk (b : Board) (p : PanelId) : groupsOk (reportFailed b p d).groups := by
  unfold reportFailed
  dsimp only
  split
  · exact ok
  · next q _ =>
    split
    · exact ok
    · have dropped := dropOut_groupsOk (d := d.mapWorks (Works.putPanel p q.fail)) ok b p
      refine checkConfirmations_groupsOk ?_ b
      split <;> exact dropped

theorem reportRestarted_groupsOk (b : Board) (p : PanelId) : groupsOk (reportRestarted b p d).groups := by
  unfold reportRestarted
  repeat' split
  any_goals exact ok
  exact checkConfirmations_groupsOk (d := d.mapWorks _) ok b

theorem reportOnline_groupsOk (b : Board) (l : LinkId) (p : PanelId) : groupsOk (reportOnline b l p d).groups := by
  unfold reportOnline
  repeat' split
  any_goals exact ok
  exact checkConfirmations_groupsOk (d := (d.mapWorks _).notifyAll _) ok b

theorem reportMismatch_groupsOk (l : LinkId) (p : PanelId) : groupsOk (reportMismatch l p d).groups := by
  unfold reportMismatch
  repeat' split
  all_goals exact ok

/-- A null staged candidate is an arrival in the group that awaits its panel (R155, R175). -/
theorem arriveNull_groupsOk (b : Board) (p : PanelId) (candidate : Bool) :
    groupsOk (arriveNull b p candidate d).groups := by
  unfold arriveNull
  split
  · split
    · next g r found _ =>
      exact arrive_groupsOk (r := ⟨p, r.strips, r.frame, r.generation, false, false⟩) ok b found
    · exact ok
  · exact ok

theorem reportNull_groupsOk (b : Board) (p : PanelId) (q : Panel) (f : FrameBuild) :
    groupsOk (reportNull b p q f d).groups :=
  arriveNull_groupsOk (checkConfirmations_groupsOk (d := (d.mapWorks _).mapWorks _) ok b) ..

theorem endCoding_groupsOk (n : LaneId) (c : Content) : groupsOk (endCoding n c d).groups := by
  unfold endCoding
  dsimp only
  repeat' split
  any_goals exact ok
  exact reportNull_groupsOk ok ..

theorem copyComplete_groupsOk (n : LaneId) (c : Content) : groupsOk (copyComplete n c d).groups := by
  unfold copyComplete
  dsimp only
  repeat' split
  all_goals exact ok

/-! ## Replies and deadlines (R88, R92, R165 to R168) -/

theorem judgeAck_groupsOk (b : Board) (l : LinkId) (drop number : Byte) (returned : Digest) :
    groupsOk (judgeAck b l drop number returned d).groups := by
  unfold judgeAck
  split
  · exact ok
  · split
    · exact concludeFrame_groupsOk (reportDelivered_groupsOk ok ..) ..
    · exact concludeFrame_groupsOk (reportFailed_groupsOk ok ..) ..

theorem judgeNak_groupsOk (b : Board) (l : LinkId) (drop number reason : Byte) :
    groupsOk (judgeNak b l drop number reason d).groups := by
  unfold judgeNak
  split
  · exact ok
  · split
    · exact concludeFrame_groupsOk (reportFailed_groupsOk ok ..) ..
    · split
      · exact concludeFrame_groupsOk (reportFailed_groupsOk ok ..) ..
      · exact concludeFrame_groupsOk (reportRestarted_groupsOk ok ..) ..

theorem judgeIdent_groupsOk (b : Board) (l : LinkId) (drop cls : Byte) (width height : Nat) :
    groupsOk (judgeIdent b l drop cls width height d).groups := by
  unfold judgeIdent
  split
  · exact ok
  · refine mapWorks_groupsOk ?_ _
    split
    · exact reportOnline_groupsOk ok ..
    · exact reportMismatch_groupsOk ok ..

theorem judgeReply_groupsOk (b : Board) (l : LinkId) (reply : List Byte) :
    groupsOk (judgeReply b l reply d).groups := by
  unfold judgeReply
  split
  · exact ok
  · split
    · exact judgeAck_groupsOk ok ..
    · exact judgeNak_groupsOk ok ..
    · exact judgeIdent_groupsOk ok ..
    · exact ok

theorem receive_groupsOk (l : LinkId) (rx : List RxChar) (c : Content) : groupsOk (receive l rx c d).groups := by
  refine foldl_keeps (fun e : Delivery => groupsOk e.groups) _ (fun e x k => ?_) rx d ok
  unfold receiveChar
  dsimp only
  repeat' split
  any_goals exact k
  exact judgeReply_groupsOk (d := e.mapWorks _) k ..

theorem replyTimeout_groupsOk (l : LinkId) (c : Content) : groupsOk (replyTimeout l c d).groups := by
  unfold replyTimeout
  dsimp only
  repeat' split
  any_goals exact ok
  exact reportFailed_groupsOk (d := d.reach _) ok c.board _

theorem probeFallsDue_groupsOk (p : PanelId) : groupsOk (probeFallsDue p d).groups := by
  unfold probeFallsDue
  repeat' split
  all_goals exact ok

theorem probeTimeout_groupsOk (l : LinkId) : groupsOk (probeTimeout l d).groups := by
  unfold probeTimeout
  dsimp only
  repeat' split
  all_goals exact ok

theorem endHoldoff_groupsOk (p : PanelId) (c : Content) : groupsOk (endHoldoff p c d).groups := by
  unfold endHoldoff
  repeat' split
  any_goals exact ok
  exact raise_groupsOk (d := (d.reach _).mapWorks _) ok ..

theorem reachRefresh_groupsOk (p : PanelId) (c : Content) : groupsOk (reachRefresh p c d).groups := by
  unfold reachRefresh
  repeat' split
  any_goals exact ok
  exact raise_groupsOk (d := (d.reach _).mapWorks _) ok ..

/-! ## The requests of panels, links and ports -/

theorem defineRequest_groupsOk (panel : Nat) (address : Byte) (link drop cls width height level refresh : Nat)
    (c : Content) : groupsOk (defineRequest panel address link drop cls width height level refresh c d).2.1.groups := by
  unfold defineRequest definePanel
  dsimp only
  repeat' split
  all_goals exact ok

/-- A removed panel drops out of its swap before it leaves its group (R82, R176). -/
theorem leaveGroup_groupsOk (b : Board) (p : PanelId) : groupsOk (d.leaveGroup b p).groups :=
  groupsOk_left (dropOut_groupsOk ok b p) (dropOut_leaves ok b p)

theorem removeRequest_groupsOk (panel : Nat) (c : Content) : groupsOk (removeRequest panel c d).2.1.groups := by
  unfold removeRequest removePanel
  repeat' split
  any_goals exact ok
  refine checkConfirmations_groupsOk ?_ c.board
  exact leaveGroup_groupsOk (d := d.mapWorks _) ok c.board _

theorem restoreRequest_groupsOk (panel : Nat) (c : Content) : groupsOk (restoreRequest panel c d).2.1.groups := by
  unfold restoreRequest
  repeat' split
  all_goals exact ok

theorem setupLink_groupsOk (link divider timeout startLevel : Nat) (c : Content) :
    groupsOk (setupLink link divider timeout startLevel c d).2.1.groups := by
  unfold setupLink
  dsimp only
  repeat' split
  all_goals exact ok

theorem enableLink_groupsOk (link : Nat) (c : Content) : groupsOk (enableLink link c d).2.1.groups := by
  unfold enableLink
  dsimp only
  repeat' split
  all_goals exact ok

/-- The panels of a link that is disabled drop out of their swaps (R95, R176). -/
theorem disableLink_groupsOk (link : Nat) (c : Content) : groupsOk (disableLink link c d).2.1.groups := by
  unfold disableLink
  dsimp only
  repeat' split
  any_goals exact ok
  refine dropOutAll_groupsOk ?_ c.board _
  refine foldl_keeps (fun e : Delivery => groupsOk e.groups) _ (fun e p k => ?_) _ _ ok
  unfold disablePanel
  split
  · exact k
  · exact checkConfirmations_groupsOk (d := e.mapWorks _) k c.board

theorem takeNotice_groupsOk (p : PortId) (c : Content) : groupsOk (takeNotice p c d).2.1.groups := by
  unfold takeNotice
  repeat' split
  all_goals exact ok

theorem maskNotices_groupsOk (p : PortId) (kinds : BitVec 16) (c : Content) :
    groupsOk (maskNotices p kinds c d).2.1.groups := by
  unfold maskNotices
  split <;> exact ok

end

/-! ## Every command -/

section
variable {s t : State} (ok : groupsOk s.delivery.groups)
include ok

/-- The selections that follow a command leave the groups alone (R99). -/
theorem groupsOk_of_event {f : Content → Delivery → Delivery} (h : event f s = .next t)
    (k : ∀ c d, groupsOk d.groups → groupsOk (f c d).groups) : groupsOk t.delivery.groups := by
  cases h
  exact k s.content s.delivery ok

theorem groupsOk_of_contentEvent {f : Content → Delivery → Content × Delivery} (h : contentEvent f s = .next t)
    (k : ∀ c d, groupsOk d.groups → groupsOk (f c d).2.groups) : groupsOk t.delivery.groups := by
  cases h
  exact k s.content s.delivery ok

theorem groupsOk_of_request {p : PortId} {i : Instr} {f : Content → Delivery → Content × Delivery × Reply}
    (h : request p i f s = .next t) (k : ∀ c d, groupsOk d.groups → groupsOk (f c d).2.1.groups) :
    groupsOk t.delivery.groups := by
  unfold request at h
  split at h <;> cases h
  · exact k s.content (s.taking p) ok
  · exact ok

theorem groupsOk_of_supervised {p : PortId} {i : Instr} {f : Content → Delivery → Content × Delivery × Reply}
    (h : request p i (supervised p f) s = .next t) (k : ∀ c d, groupsOk d.groups → groupsOk (f c d).2.1.groups) :
    groupsOk t.delivery.groups :=
  groupsOk_of_request ok h (fun c d granted => by
    unfold supervised
    split
    · exact granted
    · exact k c d granted)

theorem groupsOk_of_query {p : PortId} {i : Instr} {f : Content → Delivery → Reply} (h : query p i f s = .next t) :
    groupsOk t.delivery.groups := groupsOk_of_request ok h (fun _ _ same => same)

theorem exec_groupsOk (i : Instr) (h : exec i s = .next t) : groupsOk t.delivery.groups := by
  cases i with
  | resetn =>
    cases h
    exact groupsOk_reset
  | resetnLow =>
    cases h
    exact ok
  | transfer p fdi =>
    change execTransfer p fdi s = .next t at h
    unfold execTransfer at h
    split at h <;> cases h <;> exact ok
  | depPut =>
    exact groupsOk_of_request ok h
      (fun c _ ok => listRequest_groupsOk ok _ _ _ _ c (fun l => putTrip_groupsOk ok _ _ _ _ _ l c))
  | depPredict =>
    exact groupsOk_of_request ok h
      (fun c _ ok => entryRequest_groupsOk ok _ _ _ c (fun l e => predictTrip_groupsOk ok _ _ l e c))
  | depArrive =>
    exact groupsOk_of_request ok h
      (fun c _ ok => entryRequest_groupsOk ok _ _ _ c (fun _ _ => raiseListChange_groupsOk ok ..))
  | depDepart =>
    exact groupsOk_of_request ok h
      (fun c _ ok => entryRequest_groupsOk ok _ _ _ c (fun _ _ => raiseWhere_groupsOk ok ..))
  | depCancel =>
    exact groupsOk_of_request ok h
      (fun c _ ok => entryRequest_groupsOk ok _ _ _ c (fun _ _ => raiseListChange_groupsOk ok ..))
  | depRead | clockRead | boardRead | holdRead | panelRead | tickerRead | linkRead | groupRead | partStatus =>
    unfold exec at h
    exact groupsOk_of_query ok h
  | destSet => exact groupsOk_of_request ok h (fun c _ ok => setDestination_groupsOk ok _ _ c)
  | clockSet => exact groupsOk_of_request ok h (fun c _ ok => setClock_groupsOk ok _ c)
  | newDay => exact groupsOk_of_supervised ok h (fun c _ ok => newDay_groupsOk ok _ c)
  | settings => exact groupsOk_of_supervised ok h (fun c _ ok => changeSettings_groupsOk ok _ c)
  | post => exact groupsOk_of_request ok h (fun c _ ok => postPlacard_groupsOk ok _ _ c)
  | amend =>
    exact groupsOk_of_request ok h
      (fun c _ ok => placardRequest_groupsOk ok _ _ _ c (fun _ _ => amendPlacard_groupsOk ok ..))
  | textSet =>
    exact groupsOk_of_request ok h
      (fun c _ ok => placardRequest_groupsOk ok _ _ _ c (fun _ _ => setText_groupsOk ok ..))
  | withdraw =>
    exact groupsOk_of_request ok h
      (fun c _ ok => placardRequest_groupsOk ok _ _ _ c (fun _ _ => withdrawPlacard_groupsOk ok ..))
  | confirmShown => exact groupsOk_of_request ok h (fun c _ ok => confirmRequest_groupsOk ok _ _ _ _ c)
  | take => exact groupsOk_of_request ok h (fun c _ ok => takeRequest_groupsOk ok _ _ _ _ c)
  | release => exact groupsOk_of_request ok h (fun c _ ok => releaseRequest_groupsOk ok _ _ c)
  | handover => exact groupsOk_of_request ok h (fun c _ ok => handoverRequest_groupsOk ok _ _ _ c)
  | holdSetup => exact groupsOk_of_supervised ok h (fun c _ ok => setupHold_groupsOk ok _ _ _ c)
  | holdExpiry hold => exact groupsOk_of_contentEvent ok h (fun c _ ok => expireHold_groupsOk ok hold c)
  | waitTimeout =>
    unfold exec at h
    exact groupsOk_of_contentEvent ok h (fun _ _ ok => by split <;> exact ok)
  | panelDefine =>
    exact groupsOk_of_supervised ok h (fun c _ ok => defineRequest_groupsOk ok _ _ _ _ _ _ _ _ _ c)
  | panelRemove => exact groupsOk_of_supervised ok h (fun c _ ok => removeRequest_groupsOk ok _ c)
  | panelRestore => exact groupsOk_of_supervised ok h (fun c _ ok => restoreRequest_groupsOk ok _ c)
  | fontSetup => exact groupsOk_of_supervised ok h (fun c _ ok => setupFont_groupsOk ok _ _ c)
  | glyphLoad => exact groupsOk_of_supervised ok h (fun c _ ok => loadGlyphs_groupsOk ok _ _ c)
  | tokenSet => exact groupsOk_of_supervised ok h (fun c _ ok => setToken_groupsOk ok _ _ c)
  | tickerSetup => exact groupsOk_of_supervised ok h (fun c _ ok => setupTicker_groupsOk ok _ _ _ _ _ _ c)
  | tickerFeed => exact groupsOk_of_request ok h (fun c _ ok => feedTicker_groupsOk ok _ _ _ c)
  | tickerFlush => exact groupsOk_of_request ok h (fun c _ ok => flushTicker_groupsOk ok _ c)
  | scrollStep ticker => exact groupsOk_of_contentEvent ok h (fun c _ ok => scrollTicker_groupsOk ok ticker c)
  | linkSetup => exact groupsOk_of_supervised ok h (fun c _ ok => setupLink_groupsOk ok _ _ _ _ c)
  | linkEnable => exact groupsOk_of_supervised ok h (fun c _ ok => enableLink_groupsOk ok _ c)
  | linkDisable => exact groupsOk_of_supervised ok h (fun c _ ok => disableLink_groupsOk ok _ c)
  | groupSetup => exact groupsOk_of_supervised ok h (fun c _ ok => setupGroup_groupsOk ok _ _ _ c)
  | groupArm => exact groupsOk_of_request ok h (fun c _ ok => armRequest_groupsOk ok _ _ c)
  | groupDeadline group =>
    unfold exec at h
    refine groupsOk_of_event ok h (fun c d ok => ?_)
    split
    · exact ok
    · exact lapseSwap_groupsOk (d := d.reach _) ok ..
  | cancelSplit => exact groupsOk_of_request ok h (fun c _ ok => cancelSplit_groupsOk ok _ _ c)
  | noticeTake => exact groupsOk_of_request ok h (fun c _ ok => takeNotice_groupsOk ok _ c)
  | noticeMask => exact groupsOk_of_request ok h (fun c _ ok => maskNotices_groupsOk ok _ _ c)
  | boardClear => exact groupsOk_of_supervised ok h (fun c _ ok => clearAll_groupsOk ok c)
  | countInterval =>
    cases h
    have counted : groupsOk (countClock s.content (s.delivery.reach s.nextCount)).2.groups := by
      rw [countClock_eq]
      exact followClock_groupsOk (d := s.delivery.reach _) ok ..
    exact counted
  | holdoffEnd panel => exact groupsOk_of_event ok h (fun c _ ok => endHoldoff_groupsOk ok panel c)
  | refreshDeadline panel => exact groupsOk_of_event ok h (fun c _ ok => reachRefresh_groupsOk ok panel c)
  | contextCopyComplete lane => exact groupsOk_of_event ok h (fun c _ ok => copyComplete_groupsOk ok lane c)
  | codingEnd lane => exact groupsOk_of_event ok h (fun c _ ok => endCoding_groupsOk ok lane c)
  | ack link rx | nak link rx | ident link rx =>
    exact groupsOk_of_event ok h (fun c _ ok => receive_groupsOk ok link rx c)
  | replyTimeout link => exact groupsOk_of_event ok h (fun c _ ok => replyTimeout_groupsOk ok link c)
  | probeDue panel =>
    exact groupsOk_of_event (f := fun _ => probeFallsDue panel) ok h (fun _ _ ok => probeFallsDue_groupsOk ok panel)
  | probeTimeout link =>
    exact groupsOk_of_event (f := fun _ => probeTimeout link) ok h (fun _ _ ok => probeTimeout_groupsOk ok link)
  | confirmDeadline | fifoRoom | frameStart =>
    unfold exec at h
    exact groupsOk_of_event ok h (fun _ _ ok => by split <;> exact ok)
  | strip | underflow | breakEnd | lastByteSent | probeSent | showEnd =>
    unfold exec at h
    exact groupsOk_of_event ok h (fun _ _ ok => mapWorks_groupsOk ok _)

end

/-- Settles O13: on an empty queue a ms passes, which no group takes part in; every other command changes the groups by
drop-outs, arrivals, armings, ends of swaps and the requests of the group unit alone, and each keeps them in order. -/
theorem stepsKeepSwapGroups : Obligations.StepsKeepSwapGroups := by
  unfold Obligations.StepsKeepSwapGroups
  intro s t ok stepped
  unfold step at stepped
  split at stepped
  · exact groupsOk_of_event ok stepped (fun _ _ ok => mapWorks_groupsOk ok _)
  · next i rest _ => exact exec_groupsOk (s := { s with pending := rest }) ok i stepped

end Sys2Proof.Machine
end

section
/-! What commands make of a port while they run (R184, R185, R187): its request queue and its reserved slot stay as they
are, with the slot reserved its response queue does too, completions wait only behind a full response queue or for a
response, and every pending notice stands under its own kind. -/

namespace Sys2Proof.Machine

/-! ## One port -/

/-- The response queue with the slot reserved is within 8, and with none reserved completions wait only behind 8 frames. -/
def Port.slotsOk (pt : Port) : Prop :=
  pt.responses.length + cond pt.reserved 1 0 ≤ 8 ∧
    (pt.reserved = false → pt.waiting ≠ [] → pt.responses.length = 8)

/-- Each pending notice is under its own kind, with a count of 1 to 255 (R187). -/
def Port.noticesOk (pt : Port) : Prop :=
  ∀ k : Fin 10, ∀ r, pt.notices[k] = some r → r.notice.kind = k ∧ 1 ≤ r.count ∧ r.count ≤ 255

theorem portOk_iff (pt : Port) :
    portOk pt ↔ pt.requests.length ≤ 8 ∧ pt.reserved = false ∧ pt.slotsOk ∧ pt.noticesOk := by
  unfold portOk Port.slotsOk Port.noticesOk
  constructor
  · rintro ⟨requests, responses, idle, full, notices⟩
    exact ⟨requests, idle, ⟨by simpa [idle] using responses, fun _ => full⟩, notices⟩
  · rintro ⟨requests, idle, ⟨responses, full⟩, notices⟩
    exact ⟨requests, by simpa [idle] using responses, idle, full idle, notices⟩

/-- What the port `a` can have become, as `b`, by what commands do to it short of taking a request, answering it, and a
select period. -/
structure PortFollows (a b : Port) : Prop where
  requests : b.requests = a.requests
  reserved : b.reserved = a.reserved
  responses : a.reserved = true → b.responses = a.responses
  slots : a.slotsOk → b.slotsOk
  notices : a.noticesOk → b.noticesOk

theorem portFollows_refl (a : Port) : PortFollows a a := ⟨rfl, rfl, fun _ => rfl, id, id⟩

theorem PortFollows.trans {a b c : Port} (h : PortFollows a b) (k : PortFollows b c) : PortFollows a c where
  requests := k.requests.trans h.requests
  reserved := k.reserved.trans h.reserved
  responses reserved := (k.responses (h.reserved.trans reserved)).trans (h.responses reserved)
  slots ok := k.slots (h.slots ok)
  notices ok := k.notices (h.notices ok)

/-- A port that is in order between commands is so after what follows from it. -/
theorem PortFollows.portOk {a b : Port} (h : PortFollows a b) (ok : portOk a) : portOk b := by
  obtain ⟨requests, idle, slots, notices⟩ := (portOk_iff a).1 ok
  exact (portOk_iff b).2 ⟨h.requests ▸ requests, h.reserved.trans idle, h.slots slots, h.notices notices⟩

/-- Tags, mask and FDO take no part. -/
theorem follows_of_same {a b : Port} (requests : b.requests = a.requests) (reserved : b.reserved = a.reserved)
    (responses : b.responses = a.responses) (waiting : b.waiting = a.waiting) (notices : b.notices = a.notices) :
    PortFollows a b where
  requests := requests
  reserved := reserved
  responses _ := responses
  slots ok := by rwa [Port.slotsOk, responses, reserved, waiting]
  notices ok := by rwa [Port.noticesOk, notices]

/-- A completion takes a free slot when none is reserved and none waits, and waits else (R185). -/
theorem offer_follows (x : Completion) (a : Port) : PortFollows a (a.offer x) := by
  by_cases waits : a.reserved = true ∨ a.waiting ≠ [] ∨ 8 ≤ a.responses.length
  · rw [offer_waits x a waits]
    refine ⟨rfl, rfl, fun _ => rfl, fun ⟨room, full⟩ => ⟨room, fun idle _ => ?_⟩, id⟩
    rcases waits with busy | behind | none_free
    · exact absurd (idle.symm.trans busy) Bool.false_ne_true
    · exact full idle behind
    · exact Nat.le_antisymm ((Nat.le_add_right ..).trans room) none_free
  · obtain ⟨idle, none_waits, room⟩ : a.reserved = false ∧ a.waiting = [] ∧ a.responses.length < 8 := by
      simpa [not_or] using waits
    rw [offer_placed x a idle none_waits room]
    refine ⟨rfl, rfl, fun busy => absurd (idle.symm.trans busy) Bool.false_ne_true, fun _ => ⟨?_, ?_⟩, id⟩
    · simpa [Port.place, idle] using room
    · exact fun _ behind => absurd none_waits behind

/-- The notices stay in order when one kind's record is replaced by one of that kind with a count in range, or removed. -/
theorem noticesOk_set {a : Port} (ok : a.noticesOk) (k : Fin 10) (o : Option PendingNotice)
    (new : ∀ r, o = some r → r.notice.kind = k ∧ 1 ≤ r.count ∧ r.count ≤ 255) :
    Port.noticesOk { a with notices := a.notices.set k o } := by
  intro j r found
  dsimp only at found
  rw [set_getFin] at found
  split at found
  · next same => exact same ▸ new r found
  · exact ok j r found

/-- A record created or merged (R187). -/
theorem record_follows (n : Notice) (a : Port) : PortFollows a (a.record n) := by
  refine ⟨rfl, rfl, fun _ => rfl, id, fun ok => noticesOk_set ok n.kind _ (fun r merged => ?_)⟩
  cases merged
  cases a.notices[n.kind] with
  | none => exact ⟨rfl, Nat.le_refl 1, Nat.le_of_ble_eq_true rfl⟩
  | some r => exact ⟨rfl, Nat.le_min.2 ⟨by decide, Nat.le_add_left ..⟩, Nat.min_le_left ..⟩

theorem removeNotice_follows (k : Fin 10) (a : Port) : PortFollows a (a.removeNotice k) :=
  ⟨rfl, rfl, fun _ => rfl, id, fun ok => noticesOk_set ok k none (fun _ gone => nomatch gone)⟩

/-! ## The four ports -/

/-- Every port of `qs` is one that the port of `ps` can have become. -/
structure PortsFollow (ps qs : Vector Port 4) : Prop where
  port : ∀ p : PortId, PortFollows ps[p] qs[p]

theorem portsFollow_refl (ps : Vector Port 4) : PortsFollow ps ps := ⟨fun p => portFollows_refl ps[p]⟩

section
variable {ps : Vector Port 4} {d : Delivery} (h : PortsFollow ps d.ports)
include h

theorem mapPort_follows (p : PortId) (f : Port → Port) (k : PortFollows d.ports[p] (f d.ports[p])) :
    PortsFollow ps (d.mapPort p f).ports := by
  refine ⟨fun q => ?_⟩
  rw [Delivery.mapPort_ports, modifyAt_getFin]
  split
  · next same => exact same ▸ (h.port p).trans k
  · exact h.port q

theorem mapWorks_follows (f : Works → Works) : PortsFollow ps (d.mapWorks f).ports := h

theorem complete_follows (p : PortId) (x : Completion) : PortsFollow ps (d.complete p x).ports :=
  mapPort_follows h p _ (offer_follows x _)

theorem notify_follows (n : Notice) (p : PortId) : PortsFollow ps (d.notify n p).ports :=
  mapPort_follows h p _ (record_follows n _)

theorem notifyAll_follows (n : Notice) : PortsFollow ps (d.notifyAll n).ports := by
  refine ⟨fun q => ?_⟩
  rw [Delivery.notifyAll_ports, mapTable_getFin]
  exact (h.port q).trans (record_follows n _)

theorem setTag_follows (p : PortId) (t : Tag) (x : TagRecord) :
    PortsFollow ps (d.mapPort p (fun pt => { pt with tags := pt.tags.set t x })).ports :=
  mapPort_follows h p _ (follows_of_same rfl rfl rfl rfl rfl)

theorem completeAll_follows (xs : List (PortId × Completion)) : PortsFollow ps (d.completeAll xs).ports :=
  foldl_keeps (fun e : Delivery => PortsFollow ps e.ports) _ (fun _ x k => complete_follows k x.1 x.2) xs d h

/-! ## Confirmations and swaps (R62, R63, R90, R175 to R178) -/

theorem endConfirmation_follows (k : Confirmation) (x : Completion) : PortsFollow ps (d.endConfirmation k x).ports :=
  complete_follows h k.port x

theorem checkConfirmation_follows (b : Board) (k : Confirmation) : PortsFollow ps (d.checkConfirmation b k).ports := by
  unfold Delivery.checkConfirmation
  split
  · exact h
  · exact endConfirmation_follows h ..

theorem checkConfirmations_follows (b : Board) : PortsFollow ps (d.checkConfirmations b).ports :=
  foldl_keeps (fun e : Delivery => PortsFollow ps e.ports) _ (fun _ k same => checkConfirmation_follows same b k) _ _ h

theorem checkPlacard_follows (b : Board) (n : PlacardId) : PortsFollow ps (d.checkPlacard b n).ports :=
  foldl_keeps (fun e : Delivery => PortsFollow ps e.ports) _ (fun _ k same => checkConfirmation_follows same b k) _ _ h

theorem showSwap_follows (b : Board) (x : Swap) : PortsFollow ps (d.showSwap b x).ports := by
  have adopted : PortsFollow ps (x.toShow.foldl (Delivery.adopt b) d).ports := by
    refine foldl_keeps (fun e : Delivery => PortsFollow ps e.ports) _ (fun e r k => ?_) x.toShow d h
    unfold Delivery.adopt
    split
    · exact k
    · exact checkConfirmations_follows (d := e.mapWorks _) k b
  simpa only [Delivery.showSwap, Delivery.mapWorks_ports] using adopted

theorem checkSwap_follows (b : Board) (g : GroupId) : PortsFollow ps (d.checkSwap b g).ports := by
  unfold Delivery.checkSwap
  split
  · exact h
  · split
    · rw [Delivery.endSwap_ports]
      exact showSwap_follows h b _
    · exact h

theorem dropOut_follows (b : Board) (p : PanelId) : PortsFollow ps (d.dropOut b p).ports := by
  unfold Delivery.dropOut
  split
  · exact h
  · exact checkSwap_follows (d := d.mapGroup _ _) h b _

theorem dropOutAll_follows (b : Board) (panels : List PanelId) : PortsFollow ps (d.dropOutAll b panels).ports :=
  foldl_keeps (fun e : Delivery => PortsFollow ps e.ports) _ (fun _ g k => checkSwap_follows k b g) _ _ h

theorem arrive_follows (b : Board) (g : GroupId) (r : StagedRecord) : PortsFollow ps (d.arrive b g r).ports :=
  checkSwap_follows (d := d.mapGroup g _) h b g

/-! ## Raised causes, arming and the deadline of a swap (R85, R173, R178) -/

theorem raise_follows (b : Board) (cause : Cause) (p : PanelId) : PortsFollow ps (d.raise b cause p).ports := by
  unfold Delivery.raise
  dsimp only
  repeat' split
  any_goals exact h
  exact dropOut_follows (d := d.mapWorks _) h b p

theorem raises_follows (b : Board) (cause : Cause) (panels : List PanelId) :
    PortsFollow ps (panels.foldl (Delivery.raise b cause) d).ports :=
  foldl_keeps (fun e : Delivery => PortsFollow ps e.ports) _ (fun _ p k => raise_follows k b cause p) panels d h

theorem raiseWhere_follows (b : Board) (cause : Cause) (test : Panel → Bool) :
    PortsFollow ps (d.raiseWhere b cause test).ports := raises_follows h b cause _

theorem armGroup_follows (b : Board) (source : ArmSource) (g : GroupId) : PortsFollow ps (d.arm b source g).ports := by
  unfold Delivery.arm
  split
  · exact h
  · exact checkSwap_follows (raises_follows (d := d.mapGroup g _) h b .stage _) b g

theorem lapseSwap_follows (b : Board) (g : GroupId) (x : Swap) : PortsFollow ps (d.lapseSwap b g x).ports := by
  have noted : PortsFollow ps ((d.showSwap b x).notifyIncomplete g x).ports := by
    unfold Delivery.notifyIncomplete
    split
    · exact notify_follows (showSwap_follows h b x) ..
    · exact notifyAll_follows (showSwap_follows h b x) _
  exact raises_follows noted b .content x.missing

end

end Sys2Proof.Machine
end

section
/-! The commands of the content side: what they do to a port is a notice, a completion, a tag, or what a raised cause and an
armed group bring with them. -/

namespace Sys2Proof.Machine

section
variable {ps : Vector Port 4} {d : Delivery} (h : PortsFollow ps d.ports)
include h

/-! ## Departure lists, parameters and destinations -/

theorem raiseListChange_follows (b : Board) (l : ListId) (content figure : Bool) :
    PortsFollow ps (raiseListChange b l content figure d).ports := by
  have first : PortsFollow ps (if content then raiseList b .content l d else d).ports := by
    split
    · exact raiseWhere_follows h ..
    · exact h
  unfold raiseListChange
  dsimp only
  split
  · exact raiseWhere_follows first ..
  · exact first

theorem listRequest_follows (list trip : Nat) (valid : Bool)
    (f : ListId → Content → Delivery → Content × Delivery × Reply) (c : Content)
    (k : ∀ l, PortsFollow ps (f l c d).2.1.ports) : PortsFollow ps (listRequest list trip valid f c d).2.1.ports := by
  unfold listRequest
  repeat' split
  any_goals exact h
  exact k _

theorem entryRequest_follows (list trip : Nat) (f : ListId → Entry → Content → Delivery → Content × Delivery × Reply)
    (c : Content) (k : ∀ l e, PortsFollow ps (f l e c d).2.1.ports) :
    PortsFollow ps (entryRequest list trip f c d).2.1.ports := by
  refine listRequest_follows h list trip true _ c (fun l => ?_)
  split
  · exact h
  · exact k l _

/-- An entry that another one evicts leaves a notice (R6). -/
theorem putTrip_follows (p : PortId) (trip line destination scheduled : Nat) (l : ListId) (c : Content) :
    PortsFollow ps (putTrip p trip line destination scheduled l c d).2.1.ports := by
  unfold putTrip insertEntry
  dsimp only
  repeat' split
  any_goals exact h
  · exact raiseWhere_follows h ..
  · exact raiseWhere_follows (notify_follows h _ _) ..
  · exact raiseListChange_follows h ..

theorem predictTrip_follows (p : PortId) (predicted : Nat) (l : ListId) (e : Entry) (c : Content) :
    PortsFollow ps (predictTrip p predicted l e c d).2.1.ports := by
  unfold predictTrip
  split
  · exact h
  · exact raiseListChange_follows h ..

theorem setDestination_follows (index : Nat) (text : List Nat) (c : Content) :
    PortsFollow ps (setDestination index text c d).2.1.ports := by
  unfold setDestination
  repeat' split
  any_goals exact h
  exact raiseWhere_follows h ..

theorem changeSettings_follows (pairs : List (Nat × Nat)) (c : Content) :
    PortsFollow ps (changeSettings pairs c d).2.1.ports := by
  have refigured (c : Content) : PortsFollow ps (refigureAll c d).2.ports :=
    foldl_keeps (fun cd : Content × Delivery => PortsFollow ps cd.2.ports) refigureList
      (fun _ _ k => raiseListChange_follows k ..) _ _ h
  unfold changeSettings
  split
  · exact h
  · split
    · exact h
    · next x _ _ =>
      dsimp only
      split
      · exact h
      · exact refigured { c with settings := x }

/-! ## The clock -/

theorem evaluateWindows_follows (now : Nat) (c : Content) : PortsFollow ps (evaluateWindows now c d).2.ports := by
  refine foldl_keeps (fun cd : Content × Delivery => PortsFollow ps cd.2.ports) _ (fun cd n k => ?_) _ _ h
  unfold evaluateWindow
  dsimp only
  repeat' split
  any_goals exact k
  exact raiseWhere_follows (d := cd.2.mapWorks _) k ..

/-- The pass leaves its notices entry by entry (R16 to R19). -/
theorem afterSecond_follows (hysteresis : Bool) (c : Content) : PortsFollow ps (afterSecond hysteresis c d).2.ports := by
  have noted {e : Delivery} (k : PortsFollow ps e.ports) (p : PortId) (ns : List Notice) :
      PortsFollow ps (ns.foldl (fun e n => e.notify n p) e).ports :=
    foldl_keeps (fun e : Delivery => PortsFollow ps e.ports) _ (fun _ n k => notify_follows k n p) ns e k
  unfold afterSecond
  refine evaluateWindows_follows ?_ ..
  refine foldl_keeps (fun e : Delivery => PortsFollow ps e.ports) _ (fun e l k => raiseListChange_follows ?_ ..) _ _ h
  exact foldl_keeps (fun e : Delivery => PortsFollow ps e.ports) _ (fun _ (x : Entry) k => noted k x.source _) _ e k

theorem limitNotice_follows (entered : Bool) : PortsFollow ps (limitNotice entered d).ports := by
  unfold limitNotice
  split
  · exact notifyAll_follows h _
  · exact h

theorem followClock_follows (hysteresis second minute blink limit : Bool) (c : Content) :
    PortsFollow ps (followClock hysteresis second minute blink limit c d).2.ports := by
  have passed : PortsFollow ps (if second then afterSecond hysteresis c d else (c, d)).2.ports := by
    split
    · exact afterSecond_follows h hysteresis c
    · exact h
  have raised {e : Delivery} (k : PortsFollow ps e.ports) (b : Board) (yes : Bool) (cause : Cause)
      (test : Panel → Bool) : PortsFollow ps (if yes then e.raiseWhere b cause test else e).ports := by
    split
    · exact raiseWhere_follows k ..
    · exact k
  exact limitNotice_follows (raised (raised passed _ minute .clock _) _ blink .blink _) limit

theorem setClock_follows (t : Nat) (c : Content) : PortsFollow ps (setClock t c d).2.1.ports := by
  have starts : PortsFollow ps (startClock t c d).2.1.ports := by
    rw [startClock_eq]
    exact followClock_follows h ..
  have steps : PortsFollow ps (stepClock t c d).2.1.ports := by
    rw [stepClock_eq]
    exact followClock_follows h ..
  have slews (x : Int) : PortsFollow ps (slewClock x c d).2.1.ports := limitNotice_follows h _
  unfold setClock
  dsimp only
  repeat' split
  any_goals exact h
  any_goals exact starts
  any_goals exact steps
  all_goals exact slews _

theorem newDay_follows (t : Nat) (c : Content) : PortsFollow ps (newDay t c d).2.1.ports := by
  by_cases above : clockLimit < t
  · rw [newDay_refused t c d above]
    exact h
  · rw [newDay_eq t c d above]
    exact followClock_follows (evaluateWindows_follows (raiseWhere_follows h ..) ..) ..

/-! ## The board -/

theorem changePlacard_follows (n : PlacardId) (old : Option Placard) (new : Placard) (order : List PlacardId)
    (cells : Nat) (c : Content) : PortsFollow ps (changePlacard n old new order cells c d).2.ports :=
  checkPlacard_follows (raiseWhere_follows (d := d.mapWorks _) h ..) ..

/-- The confirmations of a placard that is freed are cancelled (R63). -/
theorem removePlacard_follows (n : PlacardId) (old : Placard) (c : Content) :
    PortsFollow ps (removePlacard n old c d).2.ports :=
  foldl_keeps (fun e : Delivery => PortsFollow ps e.ports) Delivery.cancelConfirmation
    (fun _ k same => endConfirmation_follows same k _) _ _ (raiseWhere_follows (d := d.mapWorks _) h ..)

theorem postPlacard_follows (p : PortId) (f : PostReq) (c : Content) : PortsFollow ps (postPlacard p f c d).2.1.ports := by
  unfold postPlacard
  repeat' split
  any_goals exact h
  exact changePlacard_follows h ..

theorem amendPlacard_follows (p : PortId) (f : AmendReq) (n : PlacardId) (old : Placard) (c : Content) :
    PortsFollow ps (amendPlacard p f n old c d).2.1.ports := by
  unfold amendPlacard
  dsimp only
  repeat' split
  any_goals exact h
  all_goals exact changePlacard_follows h ..

theorem setText_follows (p : PortId) (text : List Nat) (n : PlacardId) (old : Placard) (c : Content) :
    PortsFollow ps (setText p text n old c d).2.1.ports := by
  unfold setText
  dsimp only
  repeat' split
  any_goals exact h
  exact changePlacard_follows h ..

theorem withdrawPlacard_follows (p : PortId) (n : PlacardId) (old : Placard) (c : Content) :
    PortsFollow ps (withdrawPlacard p n old c d).2.1.ports := by
  unfold withdrawPlacard
  dsimp only
  repeat' split
  any_goals exact h
  exact removePlacard_follows h ..

theorem placardRequest_follows (number : Nat) (valid : Bool)
    (f : PlacardId → Placard → Content → Delivery → Content × Delivery × Reply) (c : Content)
    (k : ∀ n pl, PortsFollow ps (f n pl c d).2.1.ports) :
    PortsFollow ps (placardRequest number valid f c d).2.1.ports := by
  unfold placardRequest
  repeat' split
  any_goals exact h
  exact k _ _

theorem clearAll_follows (c : Content) : PortsFollow ps (clearAll c d).2.1.ports := by
  rw [clearAll_delivery]
  exact completeAll_follows h _

/-! ## Holds and split requests -/

theorem taggedRequest_follows (p : PortId) (tag : Nat) (f : Tag → Content → Delivery → Content × Delivery × Reply)
    (c : Content) (k : ∀ t, PortsFollow ps (f t c d).2.1.ports) : PortsFollow ps (taggedRequest p tag f c d).2.1.ports := by
  unfold taggedRequest
  repeat' split
  any_goals exact h
  exact k _

theorem openConfirmation_follows (p : PortId) (timeout : Nat) (t : Tag) (n : PlacardId) (old : Placard) (c : Content) :
    PortsFollow ps (openConfirmation p timeout t n old c d).2.1.ports := by
  unfold openConfirmation
  refine checkConfirmation_follows ?_ ..
  exact setTag_follows h p t .confirm

theorem takeHold_follows (p : PortId) (hold : Nat) (wait : Option (Tag × Nat)) (c : Content) :
    PortsFollow ps (takeHold p hold wait c d).2.1.ports := by
  have queued (x : HoldId) (owner : PortId) : PortsFollow ps (queueTake p x owner wait c d).2.1.ports := by
    unfold queueTake
    dsimp only
    repeat' split
    any_goals exact h
    exact setTag_follows h ..
  unfold takeHold
  repeat' split
  any_goals exact h
  all_goals exact queued _ _

theorem takeRequest_follows (p : PortId) (tag hold wait : Nat) (c : Content) :
    PortsFollow ps (takeRequest p tag hold wait c d).2.1.ports := by
  unfold takeRequest
  split
  · exact takeHold_follows h ..
  · exact taggedRequest_follows h p tag _ c (fun _ => takeHold_follows h ..)

theorem releaseNeighbours_follows (x : HoldId) (c : Content) : PortsFollow ps (releaseNeighbours x c d).ports := by
  unfold releaseNeighbours
  dsimp only
  split
  · exact raiseWhere_follows h ..
  · exact raiseWhere_follows (armGroup_follows h ..) ..

theorem releaseHold_follows (x : HoldId) (c : Content) : PortsFollow ps (releaseHold x c d).2.ports := by
  unfold releaseHold
  dsimp only
  split
  · exact releaseNeighbours_follows h ..
  · exact releaseNeighbours_follows (complete_follows h _ _) ..

theorem releaseRequest_follows (p : PortId) (hold : Nat) (c : Content) :
    PortsFollow ps (releaseRequest p hold c d).2.1.ports := by
  unfold releaseRequest
  dsimp only
  repeat' split
  any_goals exact h
  exact releaseHold_follows h ..

theorem handoverRequest_follows (p : PortId) (hold heir : Nat) (c : Content) :
    PortsFollow ps (handoverRequest p hold heir c d).2.1.ports := by
  unfold handoverRequest handHold
  dsimp only
  repeat' split
  any_goals exact h
  exact complete_follows h ..

theorem setupHold_follows (hold limit group : Nat) (c : Content) :
    PortsFollow ps (setupHold hold limit group c d).2.1.ports := by
  unfold setupHold
  dsimp only
  repeat' split
  all_goals exact h

theorem expireHold_follows (x : HoldId) (c : Content) : PortsFollow ps (expireHold x c d).2.ports := by
  unfold expireHold
  split
  · exact releaseHold_follows (notify_follows (d := d.reach _) h _ _) ..
  · exact h

theorem cancelSplit_follows (p : PortId) (tag : Nat) (c : Content) : PortsFollow ps (cancelSplit p tag c d).2.1.ports := by
  unfold cancelSplit cancelWait cancelConfirm
  repeat' split
  any_goals exact h
  · exact complete_follows h ..
  · exact endConfirmation_follows h ..

/-! ## Type store and tickers -/

theorem setupFont_follows (font height : Nat) (c : Content) : PortsFollow ps (setupFont font height c d).2.1.ports := by
  unfold setupFont
  repeat' split
  any_goals exact h
  exact raiseWhere_follows h ..

theorem loadGlyphs_follows (font : Nat) (entries : List GlyphEntry) (c : Content) :
    PortsFollow ps (loadGlyphs font entries c d).2.1.ports := by
  unfold loadGlyphs
  dsimp only
  repeat' split
  any_goals exact h
  exact raiseWhere_follows h ..

theorem setToken_follows (token : Nat) (text : List Nat) (c : Content) :
    PortsFollow ps (setToken token text c d).2.1.ports := by
  unfold setToken
  repeat' split
  any_goals exact h
  exact raiseWhere_follows h ..

theorem setupTicker_follows (ticker font window period columns lowWater : Nat) (c : Content) :
    PortsFollow ps (setupTicker ticker font window period columns lowWater c d).2.1.ports := by
  unfold setupTicker
  repeat' split
  any_goals exact h
  exact raiseWhere_follows h ..

theorem feedTicker_follows (p : PortId) (ticker : Nat) (chars : List Nat) (c : Content) :
    PortsFollow ps (feedTicker p ticker chars c d).2.1.ports := by
  unfold feedTicker
  dsimp only
  repeat' split
  any_goals exact h
  exact raiseWhere_follows h ..

theorem flushTicker_follows (ticker : Nat) (c : Content) : PortsFollow ps (flushTicker ticker c d).2.1.ports := by
  unfold flushTicker
  dsimp only
  repeat' split
  any_goals exact h
  exact raiseWhere_follows h ..

theorem scrollTicker_follows (t : TickerId) (c : Content) : PortsFollow ps (scrollTicker t c d).2.ports := by
  have noted {e : Delivery} (k : PortsFollow ps e.ports) (crosses : Bool) (feeder : Option PortId) :
      PortsFollow ps (noticeLow t crosses feeder e).ports := by
    unfold noticeLow
    repeat' split
    any_goals exact k
    exact notify_follows k _ _
  unfold scrollTicker
  dsimp only
  split
  · exact h
  · exact raiseWhere_follows (noted (e := d.reach _) h ..) ..

end

end Sys2Proof.Machine
end

section
/-! The commands of panels, links, lanes and ports, and with them every command: what a request and what an event does to
the ports (R181, R184). -/

namespace Sys2Proof.Machine

section
variable {ps : Vector Port 4} {d : Delivery} (h : PortsFollow ps d.ports)
include h

/-! ## Reports at the panel table (R87 to R94) -/

theorem reportDelivered_follows (b : Board) (f : FrameRecord) : PortsFollow ps (reportDelivered b f d).ports := by
  unfold reportDelivered deliverStaged
  dsimp only
  repeat' split
  any_goals exact h
  any_goals exact arrive_follows h ..
  exact checkConfirmations_follows (d := d.mapWorks _) h b

theorem reportFailed_follows (b : Board) (p : PanelId) : PortsFollow ps (reportFailed b p d).ports := by
  unfold reportFailed
  dsimp only
  split
  · exact h
  · next q _ =>
    have dropped := dropOut_follows (d := d.mapWorks (Works.putPanel p q.fail)) h b p
    split
    · exact h
    · refine checkConfirmations_follows ?_ b
      split
      · exact notifyAll_follows (d := (Delivery.dropOut b p _).mapWorks _) dropped _
      · exact dropped

theorem reportRestarted_follows (b : Board) (p : PanelId) : PortsFollow ps (reportRestarted b p d).ports := by
  unfold reportRestarted
  repeat' split
  any_goals exact h
  exact checkConfirmations_follows (d := d.mapWorks _) h b

theorem reportOnline_follows (b : Board) (l : LinkId) (p : PanelId) : PortsFollow ps (reportOnline b l p d).ports := by
  unfold reportOnline
  dsimp only
  repeat' split
  any_goals exact h
  exact checkConfirmations_follows (notifyAll_follows (d := d.mapWorks _) h _) b

theorem reportMismatch_follows (l : LinkId) (p : PanelId) : PortsFollow ps (reportMismatch l p d).ports := by
  unfold reportMismatch
  repeat' split
  any_goals exact h
  exact notifyAll_follows (d := d.mapWorks _) h _

theorem endCoding_follows (n : LaneId) (c : Content) : PortsFollow ps (endCoding n c d).ports := by
  have arrives {e : Delivery} (k : PortsFollow ps e.ports) (p : PanelId) (candidate : Bool) :
      PortsFollow ps (arriveNull c.board p candidate e).ports := by
    unfold arriveNull
    repeat' split
    any_goals exact k
    exact arrive_follows k ..
  unfold endCoding
  dsimp only
  repeat' split
  any_goals exact h
  exact arrives (checkConfirmations_follows (d := (d.mapWorks _).mapWorks _) h _) ..

theorem copyComplete_follows (n : LaneId) (c : Content) : PortsFollow ps (copyComplete n c d).ports := by
  unfold copyComplete
  dsimp only
  repeat' split
  all_goals exact h

/-! ## Replies and deadlines (R88, R92, R165 to R168) -/

theorem judgeReply_follows (b : Board) (l : LinkId) (reply : List Byte) : PortsFollow ps (judgeReply b l reply d).ports := by
  unfold judgeReply judgeAck judgeNak judgeIdent
  dsimp only [Delivery.mapWorks_ports]
  repeat' split
  any_goals exact h
  any_goals exact reportFailed_follows h ..
  · exact reportDelivered_follows h ..
  · exact reportRestarted_follows h ..
  · exact reportOnline_follows h ..
  · exact reportMismatch_follows h ..

theorem receive_follows (l : LinkId) (rx : List RxChar) (c : Content) : PortsFollow ps (receive l rx c d).ports := by
  refine foldl_keeps (fun e : Delivery => PortsFollow ps e.ports) _ (fun e x k => ?_) rx d h
  unfold receiveChar
  dsimp only
  repeat' split
  any_goals exact k
  exact judgeReply_follows (d := e.mapWorks _) k ..

theorem replyTimeout_follows (l : LinkId) (c : Content) : PortsFollow ps (replyTimeout l c d).ports := by
  unfold replyTimeout
  dsimp only
  repeat' split
  any_goals exact h
  exact reportFailed_follows (d := d.reach _) h c.board _

theorem probeFallsDue_follows (p : PanelId) : PortsFollow ps (probeFallsDue p d).ports := by
  unfold probeFallsDue
  repeat' split
  all_goals exact h

theorem probeTimeout_follows (l : LinkId) : PortsFollow ps (probeTimeout l d).ports := by
  unfold probeTimeout
  dsimp only
  repeat' split
  all_goals exact h

theorem endHoldoff_follows (p : PanelId) (c : Content) : PortsFollow ps (endHoldoff p c d).ports := by
  unfold endHoldoff
  repeat' split
  any_goals exact h
  exact raise_follows (d := (d.reach _).mapWorks _) h ..

theorem reachRefresh_follows (p : PanelId) (c : Content) : PortsFollow ps (reachRefresh p c d).ports := by
  unfold reachRefresh
  repeat' split
  any_goals exact h
  exact raise_follows (d := (d.reach _).mapWorks _) h ..

/-! ## The requests of panels, links, groups and ports -/

theorem defineRequest_follows (panel : Nat) (address : Byte) (link drop cls width height level refresh : Nat)
    (c : Content) : PortsFollow ps (defineRequest panel address link drop cls width height level refresh c d).2.1.ports := by
  unfold defineRequest definePanel
  dsimp only
  repeat' split
  all_goals exact h

theorem removeRequest_follows (panel : Nat) (c : Content) : PortsFollow ps (removeRequest panel c d).2.1.ports := by
  unfold removeRequest removePanel
  repeat' split
  any_goals exact h
  exact checkConfirmations_follows (d := (Delivery.leaveGroup _ _ _).mapWorks _)
    (dropOut_follows (d := d.mapWorks _) h c.board _) c.board

theorem restoreRequest_follows (panel : Nat) (c : Content) : PortsFollow ps (restoreRequest panel c d).2.1.ports := by
  unfold restoreRequest
  repeat' split
  all_goals exact h

theorem setupLink_follows (link divider timeout startLevel : Nat) (c : Content) :
    PortsFollow ps (setupLink link divider timeout startLevel c d).2.1.ports := by
  unfold setupLink
  dsimp only
  repeat' split
  all_goals exact h

theorem enableLink_follows (link : Nat) (c : Content) : PortsFollow ps (enableLink link c d).2.1.ports := by
  unfold enableLink
  dsimp only
  repeat' split
  all_goals exact h

theorem disableLink_follows (link : Nat) (c : Content) : PortsFollow ps (disableLink link c d).2.1.ports := by
  unfold disableLink
  dsimp only
  repeat' split
  any_goals exact h
  refine dropOutAll_follows ?_ c.board _
  refine foldl_keeps (fun e : Delivery => PortsFollow ps e.ports) _ (fun e p k => ?_) _ _ h
  unfold disablePanel
  split
  · exact k
  · exact checkConfirmations_follows (d := e.mapWorks _) k c.board

theorem setupGroup_follows (group : Nat) (members : List Nat) (deadline : Nat) (c : Content) :
    PortsFollow ps (setupGroup group members deadline c d).2.1.ports := by
  unfold setupGroup
  dsimp only
  repeat' split
  all_goals exact h

theorem armRequest_follows (p : PortId) (group : Nat) (c : Content) :
    PortsFollow ps (armRequest p group c d).2.1.ports := by
  unfold armRequest
  dsimp only
  repeat' split
  any_goals exact h
  exact armGroup_follows h ..

theorem takeNotice_follows (p : PortId) (c : Content) : PortsFollow ps (takeNotice p c d).2.1.ports := by
  unfold takeNotice
  repeat' split
  any_goals exact h
  exact mapPort_follows h p _ (removeNotice_follows _ _)

theorem maskNotices_follows (p : PortId) (kinds : BitVec 16) (c : Content) :
    PortsFollow ps (maskNotices p kinds c d).2.1.ports := by
  unfold maskNotices
  split
  · exact h
  · exact mapPort_follows h p _ (follows_of_same rfl rfl rfl rfl rfl)

end

/-! ## Every request -/

/-- What the block of a request does leaves every port one that follows. -/
def BlockFollows (f : Content → Delivery → Content × Delivery × Reply) : Prop :=
  ∀ (ps : Vector Port 4) (c : Content) (d : Delivery), PortsFollow ps d.ports → PortsFollow ps (f c d).2.1.ports

/-- A request runs as R184 says: taken by its port `p`, it reaches a block `f`, and, where it is a supervisor request, the
check of the rank before it (R181). -/
def RunsAsRequest (p : PortId) (i : Instr) : Prop :=
  ∃ f, (∀ s, exec i s = request p i f s) ∧ BlockFollows f ∧ (supervisorOnly i = true → ∃ g, f = supervised p g)

theorem runs_plain {p : PortId} {i : Instr} {f : Content → Delivery → Content × Delivery × Reply}
    (plain : supervisorOnly i = false) (e : ∀ s, exec i s = request p i f s) (k : BlockFollows f) : RunsAsRequest p i :=
  ⟨f, e, k, fun marked => absurd (plain.symm.trans marked) Bool.false_ne_true⟩

theorem runs_supervised {p : PortId} {i : Instr} {f : Content → Delivery → Content × Delivery × Reply}
    (e : ∀ s, exec i s = request p i (supervised p f) s) (k : BlockFollows f) : RunsAsRequest p i := by
  refine ⟨supervised p f, e, fun ps c d h => ?_, fun _ => ⟨f, rfl⟩⟩
  unfold supervised
  split
  · exact h
  · exact k ps c d h

theorem runs_query {p : PortId} {i : Instr} {f : Content → Delivery → Reply} (plain : supervisorOnly i = false)
    (e : ∀ s, exec i s = query p i f s) : RunsAsRequest p i := runs_plain plain e (fun _ _ _ h => h)

theorem runsAsRequest {i : Instr} {p : PortId} (own : requestPort i = some p) : RunsAsRequest p i := by
  cases i <;> cases own
  case depPut =>
    exact runs_plain rfl (fun _ => rfl)
      (fun _ c _ h => listRequest_follows h _ _ _ _ c (fun l => putTrip_follows h _ _ _ _ _ l c))
  case depPredict =>
    exact runs_plain rfl (fun _ => rfl)
      (fun _ c _ h => entryRequest_follows h _ _ _ c (fun l e => predictTrip_follows h _ _ l e c))
  case depArrive | depCancel =>
    exact runs_plain rfl (fun _ => rfl)
      (fun _ c _ h => entryRequest_follows h _ _ _ c (fun _ _ => raiseListChange_follows h ..))
  case depDepart =>
    exact runs_plain rfl (fun _ => rfl)
      (fun _ c _ h => entryRequest_follows h _ _ _ c (fun _ _ => raiseWhere_follows h ..))
  case depRead | clockRead | boardRead | holdRead | panelRead | tickerRead | linkRead | groupRead | partStatus =>
    exact runs_query rfl (fun _ => by unfold exec; rfl)
  case destSet => exact runs_plain rfl (fun _ => rfl) (fun _ c _ h => setDestination_follows h _ _ c)
  case clockSet => exact runs_plain rfl (fun _ => rfl) (fun _ c _ h => setClock_follows h _ c)
  case newDay => exact runs_supervised (fun _ => rfl) (fun _ c _ h => newDay_follows h _ c)
  case settings => exact runs_supervised (fun _ => rfl) (fun _ c _ h => changeSettings_follows h _ c)
  case post => exact runs_plain rfl (fun _ => rfl) (fun _ c _ h => postPlacard_follows h _ _ c)
  case amend =>
    exact runs_plain rfl (fun _ => rfl)
      (fun _ c _ h => placardRequest_follows h _ _ _ c (fun _ _ => amendPlacard_follows h ..))
  case textSet =>
    exact runs_plain rfl (fun _ => rfl)
      (fun _ c _ h => placardRequest_follows h _ _ _ c (fun _ _ => setText_follows h ..))
  case withdraw =>
    exact runs_plain rfl (fun _ => rfl)
      (fun _ c _ h => placardRequest_follows h _ _ _ c (fun _ _ => withdrawPlacard_follows h ..))
  case confirmShown =>
    exact runs_plain rfl (fun _ => rfl) (fun _ c _ h => taggedRequest_follows h _ _ _ c
      (fun _ => placardRequest_follows h _ _ _ c (fun _ _ => openConfirmation_follows h ..)))
  case take => exact runs_plain rfl (fun _ => rfl) (fun _ c _ h => takeRequest_follows h _ _ _ _ c)
  case release => exact runs_plain rfl (fun _ => rfl) (fun _ c _ h => releaseRequest_follows h _ _ c)
  case handover => exact runs_plain rfl (fun _ => rfl) (fun _ c _ h => handoverRequest_follows h _ _ _ c)
  case holdSetup => exact runs_supervised (fun _ => rfl) (fun _ c _ h => setupHold_follows h _ _ _ c)
  case panelDefine =>
    exact runs_supervised (fun _ => rfl) (fun _ c _ h => defineRequest_follows h _ _ _ _ _ _ _ _ _ c)
  case panelRemove => exact runs_supervised (fun _ => rfl) (fun _ c _ h => removeRequest_follows h _ c)
  case panelRestore => exact runs_supervised (fun _ => rfl) (fun _ c _ h => restoreRequest_follows h _ c)
  case fontSetup => exact runs_supervised (fun _ => rfl) (fun _ c _ h => setupFont_follows h _ _ c)
  case glyphLoad => exact runs_supervised (fun _ => rfl) (fun _ c _ h => loadGlyphs_follows h _ _ c)
  case tokenSet => exact runs_supervised (fun _ => rfl) (fun _ c _ h => setToken_follows h _ _ c)
  case tickerSetup => exact runs_supervised (fun _ => rfl) (fun _ c _ h => setupTicker_follows h _ _ _ _ _ _ c)
  case tickerFeed => exact runs_plain rfl (fun _ => rfl) (fun _ c _ h => feedTicker_follows h _ _ _ c)
  case tickerFlush => exact runs_plain rfl (fun _ => rfl) (fun _ c _ h => flushTicker_follows h _ c)
  case linkSetup => exact runs_supervised (fun _ => rfl) (fun _ c _ h => setupLink_follows h _ _ _ _ c)
  case linkEnable => exact runs_supervised (fun _ => rfl) (fun _ c _ h => enableLink_follows h _ c)
  case linkDisable => exact runs_supervised (fun _ => rfl) (fun _ c _ h => disableLink_follows h _ c)
  case groupSetup => exact runs_supervised (fun _ => rfl) (fun _ c _ h => setupGroup_follows h _ _ _ c)
  case groupArm => exact runs_plain rfl (fun _ => rfl) (fun _ c _ h => armRequest_follows h _ _ c)
  case cancelSplit => exact runs_plain rfl (fun _ => rfl) (fun _ c _ h => cancelSplit_follows h _ _ c)
  case noticeTake => exact runs_plain rfl (fun _ => rfl) (fun _ c _ h => takeNotice_follows h _ c)
  case noticeMask => exact runs_plain rfl (fun _ => rfl) (fun _ c _ h => maskNotices_follows h _ _ c)
  case boardClear => exact runs_supervised (fun _ => rfl) (fun _ c _ h => clearAll_follows h c)

/-! ## Every event -/

section
variable {s t : State}

theorem follows_of_event {f : Content → Delivery → Delivery} (e : event f s = .next t)
    (k : ∀ (ps : Vector Port 4) (c : Content) (d : Delivery), PortsFollow ps d.ports → PortsFollow ps (f c d).ports) :
    PortsFollow s.delivery.ports t.delivery.ports := by
  cases e
  rw [settleDelivery_ports]
  exact k _ s.content s.delivery (portsFollow_refl _)

theorem follows_of_contentEvent {f : Content → Delivery → Content × Delivery} (e : contentEvent f s = .next t)
    (k : ∀ (ps : Vector Port 4) (c : Content) (d : Delivery), PortsFollow ps d.ports → PortsFollow ps (f c d).2.ports) :
    PortsFollow s.delivery.ports t.delivery.ports := by
  cases e
  rw [settleDelivery_ports]
  exact k _ s.content s.delivery (portsFollow_refl _)

/-- No event but the pin and a select period does to a port what `PortFollows` leaves out. -/
theorem exec_event_follows {i : Instr} (event : requestPort i = none) (pin : ∀ rk0 rk1 rk2 rk3, i ≠ .resetn rk0 rk1 rk2 rk3)
    (select : ∀ p fdi, i ≠ .transfer p fdi) (e : exec i s = .next t) :
    PortsFollow s.delivery.ports t.delivery.ports := by
  cases i <;> cases event
  case resetn => exact absurd rfl (pin _ _ _ _)
  case transfer => exact absurd rfl (select _ _)
  case resetnLow =>
    cases e
    refine ⟨fun p => ?_⟩
    rw [mapTable_getFin]
    exact follows_of_same rfl rfl rfl rfl rfl
  case holdExpiry hold => exact follows_of_contentEvent e (fun _ c _ h => expireHold_follows h hold c)
  case waitTimeout =>
    unfold exec at e
    refine follows_of_contentEvent e (fun _ _ d h => ?_)
    split
    · exact h
    · exact complete_follows (d := d.reach _) h ..
  case scrollStep ticker => exact follows_of_contentEvent e (fun _ c _ h => scrollTicker_follows h ticker c)
  case groupDeadline =>
    unfold exec at e
    refine follows_of_event e (fun _ _ d h => ?_)
    split
    · exact h
    · exact lapseSwap_follows (d := d.reach _) h ..
  case countInterval =>
    cases e
    rw [settleDelivery_ports]
    dsimp only
    rw [countClock_eq]
    exact followClock_follows (d := s.delivery.reach _) (portsFollow_refl _) ..
  case confirmDeadline =>
    unfold exec at e
    refine follows_of_event e (fun _ _ d h => ?_)
    split
    · exact h
    · exact endConfirmation_follows (d := d.reach _) h ..
  case holdoffEnd panel => exact follows_of_event e (fun _ c _ h => endHoldoff_follows h panel c)
  case refreshDeadline panel => exact follows_of_event e (fun _ c _ h => reachRefresh_follows h panel c)
  case contextCopyComplete lane => exact follows_of_event e (fun _ c _ h => copyComplete_follows h lane c)
  case codingEnd lane => exact follows_of_event e (fun _ c _ h => endCoding_follows h lane c)
  case ack link rx | nak link rx | ident link rx => exact follows_of_event e (fun _ c _ h => receive_follows h link rx c)
  case replyTimeout link => exact follows_of_event e (fun _ c _ h => replyTimeout_follows h link c)
  case probeDue panel =>
    exact follows_of_event (f := fun _ => probeFallsDue panel) e (fun _ _ _ h => probeFallsDue_follows h panel)
  case probeTimeout link =>
    exact follows_of_event (f := fun _ => probeTimeout link) e (fun _ _ _ h => probeTimeout_follows h link)
  case fifoRoom | frameStart =>
    unfold exec at e
    refine follows_of_event e (fun _ _ _ h => ?_)
    split <;> exact h
  case strip | underflow | breakEnd | lastByteSent | probeSent | showEnd =>
    unfold exec at e
    exact follows_of_event e (fun _ _ _ h => mapWorks_follows h _)

end

end Sys2Proof.Machine
end

section
/-! The feed ports settled: when a request is taken, how it is answered, who may send it, and that every step keeps the port
queues in order (R181 to R187). -/

namespace Sys2Proof.Machine

/-! ## A request taken and answered (R184) -/

theorem canTake_iff (p : PortId) (i : Instr) (s : State) : s.canTake p i ↔ (s.delivery.ports[p]).reserved = false ∧
    (s.delivery.ports[p]).waiting = [] ∧ (s.delivery.ports[p]).responses.length < 8 ∧
      ((s.delivery.ports[p]).requests = [] ∨ (s.delivery.ports[p]).requests.head? = some i) := by
  unfold State.canTake Port.takes Port.slotFree
  cases (s.delivery.ports[p]).reserved <;> simp [and_assoc]

/-- The response takes the reserved slot, and the completions that wait for it the slots that are left. -/
theorem finishRequest_eq (i : Instr) (r : Reply) (a : Port) : a.finishRequest i r = { a with
    responses := a.responses ++ responseFrame i r :: (a.waiting.take (7 - a.responses.length)).map Completion.frame
    reserved := false
    waiting := a.waiting.drop (7 - a.responses.length)
    tags := (a.waiting.take (7 - a.responses.length)).foldl (fun tags x => tags.set x.tag .free) a.tags } := by
  have left : 8 - (a.responses ++ [responseFrame i r]).length = 7 - a.responses.length := by
    rw [List.length_append, List.length_singleton]
    omega
  unfold Port.finishRequest
  rw [drain_eq _ rfl]
  dsimp only
  rw [left, List.append_assoc]
  rfl

theorem finishRequest_slots {a : Port} (ok : a.slotsOk) (busy : a.reserved = true) (i : Instr) (r : Reply) :
    (a.finishRequest i r).slotsOk := by
  obtain ⟨room, -⟩ := ok
  rw [busy, cond_true] at room
  rw [finishRequest_eq]
  simp only [Port.slotsOk, List.length_append, List.length_cons, List.length_map, List.length_take, cond_false, ne_eq,
    List.drop_eq_nil_iff]
  omega

section
variable {a b : Port} (follows : PortFollows a.startRequest b) (i : Instr) (r : Reply)
include follows

/-- A port in order that takes a request is in order again when it is answered. -/
theorem finishRequest_portOk (ok : portOk a) (room : a.responses.length < 8) : portOk (b.finishRequest i r) := by
  obtain ⟨requests, -, -, notices⟩ := (portOk_iff a).1 ok
  have started : a.startRequest.slotsOk := ⟨room, fun idle => nomatch idle⟩
  refine (portOk_iff _).2 ⟨?_, ?_, finishRequest_slots (follows.slots started) follows.reserved i r, ?_⟩ <;>
    rw [finishRequest_eq]
  · dsimp only
    rw [follows.requests, Port.startRequest, List.length_tail]
    exact (Nat.sub_le ..).trans requests
  · exact follows.notices notices

/-- With its slot reserved the response queue waits for the response, and what comes behind it are completions (R184). -/
theorem finishRequest_answers : (b.finishRequest i r).requests = a.requests.tail ∧ (b.finishRequest i r).reserved = false ∧
    ∃ later, (b.finishRequest i r).responses = a.responses ++ responseFrame i r :: later ∧ ∀ f ∈ later, f.form = 0x02 := by
  rw [finishRequest_eq]
  refine ⟨follows.requests, rfl, _, congrArg (· ++ _) (follows.responses rfl), fun f completed => ?_⟩
  obtain ⟨x, -, rfl⟩ := List.mem_map.1 completed
  rfl

end

/-- The ports when the block of a request has done its part: the port that took it as it was with the request out of its
queue and the slot reserved, or what follows from that. -/
theorem taking_follows {f : Content → Delivery → Content × Delivery × Reply} (k : BlockFollows f) (p : PortId) (s : State) :
    PortFollows (s.delivery.ports[p]).startRequest ((f s.content (s.taking p)).2.1.ports[p]) ∧
      ∀ q, q ≠ p → PortFollows s.delivery.ports[q] ((f s.content (s.taking p)).2.1.ports[q]) := by
  have follows := (k (s.taking p).ports s.content (s.taking p) (portsFollow_refl _)).port
  refine ⟨?_, fun q other => ?_⟩
  · have own := follows p
    rwa [State.taking, Delivery.mapPort_ports, modifyAt_getFin_self] at own
  · have apart := follows q
    rwa [State.taking, Delivery.mapPort_ports, modifyAt_getFin_ne _ _ (Ne.symm other)] at apart

/-- Settles O16. -/
theorem portTakesItsOldestRequest : Obligations.PortTakesItsOldestRequest := by
  unfold Obligations.PortTakesItsOldestRequest
  intro i p s own
  refine ⟨canTake_iff p i s, fun left => ?_⟩
  obtain ⟨f, run, -, -⟩ := runsAsRequest own
  rw [run s, request_left p i f s left]

/-- Settles O17: what the block of the request leaves of its port is what `PortFollows` says, and then the response is
placed. -/
theorem everyRequestTakenIsAnsweredOnce : Obligations.EveryRequestTakenIsAnsweredOnce := by
  unfold Obligations.EveryRequestTakenIsAnsweredOnce
  intro i p s own take
  obtain ⟨f, run, block, -⟩ := runsAsRequest own
  have taken := (run s).trans (request_taken p i f s take)
  obtain ⟨requests, idle, later, responses, completions⟩ :=
    finishRequest_answers (taking_follows block p s).1 i (f s.content (s.taking p)).2.2
  refine ⟨_, (f s.content (s.taking p)).2.2, later, taken, ?_, ?_, ?_, completions, rfl⟩ <;>
    rw [settleDelivery_ports, Delivery.mapPort_ports, modifyAt_getFin_self]
  · exact requests
  · exact idle
  · exact responses

/-- Settles O18. -/
theorem supervisorRequestFromFeedPortIsDenied : Obligations.SupervisorRequestFromFeedPortIsDenied := by
  unfold Obligations.SupervisorRequestFromFeedPortIsDenied
  intro i p s own marked feed take
  obtain ⟨f, run, -, rank⟩ := runsAsRequest own
  obtain ⟨g, rfl⟩ := rank marked
  exact replies_of_request p i (supervised p g) s _ _ _ (run s) take
    (supervised_denied p g _ _ ((taking_rank p p s).trans feed))

/-! ## A select period (R182, R183) -/

/-- The waiting completions that take the slots that are free leave the others behind 8 frames (R185). -/
theorem drain_portOk {a : Port} (requests : a.requests.length ≤ 8) (responses : a.responses.length ≤ 8)
    (idle : a.reserved = false) (notices : a.noticesOk) : portOk a.drain := by
  rw [drain_eq _ idle]
  refine ⟨requests, ?_, idle, ?_, notices⟩ <;>
    simp only [List.length_append, List.length_map, List.length_take, ne_eq, List.drop_eq_nil_iff] <;> omega

theorem headLeaves_portOk {a : Port} (ok : portOk a) (clocks : Nat) : portOk (a.headLeaves clocks) := by
  unfold Port.headLeaves
  split
  · exact ok
  · next f rest queue =>
    split
    · obtain ⟨requests, responses, idle, -, notices⟩ := ok
      rw [queue, List.length_cons] at responses
      exact drain_portOk requests (Nat.le_of_succ_le responses) idle notices
    · exact ok

/-- A BAD_FRAME or BUSY response takes a slot only when one is free, and then no completion waits (R183). -/
theorem refuseFrame_portOk {a : Port} (ok : portOk a) (st : Status) (kind tag : Byte) :
    portOk (a.refuseFrame st kind tag) := by
  unfold Port.refuseFrame
  split
  · next free =>
    obtain ⟨requests, responses, idle, full, notices⟩ := ok
    have room : a.responses.length < 8 := by simpa [Port.slotFree, idle] using free
    refine ⟨requests, ?_, idle, fun behind => absurd (full behind) room.ne, notices⟩
    simpa using room
  · exact ok

theorem judged_portOk {a : Port} (ok : portOk a) (j : Judgement) : portOk (a.judged j) := by
  unfold Port.judged
  split
  · exact ok
  · exact refuseFrame_portOk ok ..
  · split
    · next i room =>
      obtain ⟨-, rest⟩ := ok
      exact ⟨by simpa using room, rest⟩
    · exact refuseFrame_portOk ok ..

theorem transfer_portOk {a : Port} (ok : portOk a) (p : PortId) (heights : List Nat) (fdi : List Bool) :
    portOk (a.transfer p heights fdi) := by
  unfold Port.transfer
  split
  · exact ok
  · refine judged_portOk ?_ _
    exact headLeaves_portOk ok fdi.length

/-! ## Every step -/

section
variable {s t : State} (ok : ∀ p : PortId, portOk s.delivery.ports[p])
include ok

theorem request_portOk {i : Instr} {p : PortId} (own : requestPort i = some p) (e : exec i s = .next t) :
    ∀ q : PortId, portOk t.delivery.ports[q] := by
  obtain ⟨f, run, block, -⟩ := runsAsRequest own
  by_cases take : s.canTake p i
  · obtain ⟨-, -, room, -⟩ := (canTake_iff p i s).1 take
    obtain ⟨taker, others⟩ := taking_follows block p s
    cases ((run s).trans (request_taken p i f s take)).symm.trans e
    intro q
    rw [settleDelivery_ports, Delivery.mapPort_ports, modifyAt_getFin]
    split
    · exact finishRequest_portOk taker i _ (ok p) room
    · next other => exact (others q (Ne.symm other)).portOk (ok q)
  · cases ((run s).trans (request_left p i f s take)).symm.trans e
    exact ok

theorem exec_portOk {i : Instr} (e : exec i s = .next t) : ∀ q : PortId, portOk t.delivery.ports[q] := by
  by_cases pin : ∀ rk0 rk1 rk2 rk3, i ≠ .resetn rk0 rk1 rk2 rk3
  · by_cases select : ∀ p fdi, i ≠ .transfer p fdi
    · cases own : requestPort i with
      | some p => exact request_portOk ok own e
      | none => exact fun q => ((exec_event_follows own pin select e).port q).portOk (ok q)
    · push Not at select
      obtain ⟨p, fdi, rfl⟩ := select
      change execTransfer p fdi s = .next t at e
      unfold execTransfer at e
      split at e <;> cases e
      · exact ok
      · intro q
        rw [Delivery.mapPort_ports, modifyAt_getFin]
        split
        · exact transfer_portOk (ok p) p _ fdi
        · exact ok q
  · push Not at pin
    obtain ⟨rk0, rk1, rk2, rk3, rfl⟩ := pin
    cases e
    intro q
    obtain ⟨r, reset⟩ := ports_reset rk0 rk1 rk2 rk3 q
    exact reset ▸ portOk_reset r

end

/-- Settles O11: on an empty queue a ms passes, which no port takes part in; a request, a select period and the pin leave a
port in order, and every other command does no more to it than `PortFollows` says. -/
theorem stepsKeepPortQueues : Obligations.StepsKeepPortQueues := by
  unfold Obligations.StepsKeepPortQueues
  intro s t ok stepped
  unfold step at stepped
  split at stepped
  · have passed := follows_of_event stepped (fun _ _ _ h => mapWorks_follows h _)
    exact fun p => (passed.port p).portOk (ok p)
  · next i rest _ => exact exec_portOk (s := { s with pending := rest }) ok stepped

end Sys2Proof.Machine
end

section
/-! The shift register, the notice set and the reset of a feed port (R181, R182, R187, R188). -/

namespace Sys2Proof.Machine

/-! ## Bits and bytes (R182) -/

/-- The number that the upper bits of a byte spell, one bit more. -/
theorem shift_bit (b : Byte) (k : Nat) : 2 * (b.toNat / 2 ^ (k + 1)) + cond (b.getLsbD k) 1 0 = b.toNat / 2 ^ k := by
  have bit : cond (b.getLsbD k) 1 0 = b.toNat / 2 ^ k % 2 := by
    rw [BitVec.getLsbD, Nat.testBit_eq_decide_div_mod_eq]
    rcases Nat.mod_two_eq_zero_or_one (b.toNat / 2 ^ k) with even | odd
    · rw [even]
      rfl
    · rw [odd]
      rfl
  rw [bit, Nat.pow_succ, ← Nat.div_div_eq_div_mul, Nat.div_add_mod]

theorem byteOfBits_bitsOfByte (b : Byte) : byteOfBits (bitsOfByte b) = b := by
  have empty : b.toNat / 2 ^ (7 + 1) = 0 := Nat.div_eq_of_lt b.isLt
  have spelled : (bitsOfByte b).foldl (fun n x => 2 * n + cond x 1 0) (b.toNat / 2 ^ (7 + 1)) = b.toNat := by
    simp only [bitsOfByte, List.foldl_cons, List.foldl_nil]
    rw [shift_bit b 7, shift_bit b 6, shift_bit b 5, shift_bit b 4, shift_bit b 3, shift_bit b 2, shift_bit b 1,
      shift_bit b 0, Nat.pow_zero, Nat.div_one]
  rw [empty] at spelled
  rw [byteOfBits, spelled, BitVec.ofNat_toNat, BitVec.setWidth_eq]

theorem wholeBytes_byte (b : Byte) (rest : List Bool) : wholeBytes (bitsOfByte b ++ rest) = b :: wholeBytes rest :=
  congrArg (· :: wholeBytes rest) (byteOfBits_bitsOfByte b)

/-- Fewer than 8 bits are no byte. -/
theorem wholeBytes_incomplete {bits : List Bool} (short : bits.length < 8) : wholeBytes bits = [] := by
  unfold wholeBytes
  split
  · simp only [List.length_cons] at short
    omega
  · rfl

/-- Settles O21. -/
theorem bytesSurviveTheShift : Obligations.BytesSurviveTheShift := by
  unfold Obligations.BytesSurviveTheShift
  refine ⟨fun _ => rfl, fun bytes tail short => ?_⟩
  induction bytes with
  | nil => exact wholeBytes_incomplete short
  | cons b bytes ih => rw [List.flatMap_cons, List.append_assoc, wholeBytes_byte, ih]

/-! ## Notices (R187, R188) -/

theorem unmasked_iff (pt : Port) (k : Fin 10) :
    pt.unmasked k = true ↔ (pt.notices[k]).isSome ∧ pt.mask.getLsbD k.val = false := by
  rw [Port.unmasked, Bool.and_eq_true, Bool.not_eq_true']

theorem fntc_iff {s : State} (high : s.resetIsLow = false) (p : PortId) :
    s.fntc p = true ↔ ∃ k, (s.delivery.ports[p]).unmasked k = true := by
  simp [State.fntc, high, Port.fntc]

/-- A port whose request is being executed has the notices and the mask that it had. -/
theorem taking_unmasked (p : PortId) (s : State) (k : Fin 10) :
    ((s.taking p).ports[p]).unmasked k = (s.delivery.ports[p]).unmasked k := by
  rw [State.taking, Delivery.mapPort_ports, modifyAt_getFin_self]
  rfl

section
variable {p : PortId} {c : Content} {d : Delivery}

theorem takeNotice_nothing (masked : ∀ k, (d.ports[p]).unmasked k = false) : takeNotice p c d = (c, d, okWith [0]) := by
  have none_found : (d.ports[p]).firstNotice = none := find_finRange_none _ masked
  simp only [takeNotice, none_found]

theorem takeNotice_first {k : Fin 10} {r : PendingNotice} (pending : (d.ports[p]).unmasked k = true)
    (higher : ∀ j < k, (d.ports[p]).unmasked j = false) (record : (d.ports[p]).notices[k] = some r) : takeNotice p c d =
      (c, d.mapPort p (fun x => { x with notices := x.notices.set k none }),
        okWith ([1] ++ b1 (k.val + 1) ++ b1 r.count ++ r.notice.detail)) := by
  have found : (d.ports[p]).firstNotice = some k :=
    find_finRange _ k pending higher
  simp only [takeNotice, found, record]
  rfl

end

/-- Settles O22. -/
theorem noticesMergeAndAreTakenByPriority : Obligations.NoticesMergeAndAreTakenByPriority := by
  unfold Obligations.NoticesMergeAndAreTakenByPriority
  refine ⟨fun n pt => ⟨fun fresh => ?_, fun r pending => ?_⟩, fun s p high => ?_, fun p s take => ⟨fun masked => ?_,
    fun k r pending higher record => ?_⟩, fun p kinds s take => ⟨fun valid => ?_, fun above => ?_⟩⟩
  · rw [Port.record, fresh]
    rfl
  · rw [Port.record, pending]
    rfl
  · rw [fntc_iff high]
    exact exists_congr (fun k => unmasked_iff _ k)
  · exact replies_of_request p _ (takeNotice p) s _ _ _ rfl take
      (takeNotice_nothing (fun k => (taking_unmasked p s k).trans (masked k)))
  · exact replies_of_request p _ (takeNotice p) s _ _ _ rfl take (takeNotice_first ((taking_unmasked p s k).trans pending)
      (fun j below => (taking_unmasked p s j).trans (higher j below)) (taking_notices p p s ▸ record))
  · exact replies_of_request p _ (maskNotices p kinds) s _ _ _ rfl take (if_neg (Nat.not_le.2 valid))
  · exact replies_of_request p _ (maskNotices p kinds) s _ _ _ rfl take (if_pos above)

/-! ## The RESETn pin (R181) -/

/-- Each port after RESETn, with the rank its RK pin gives it. -/
theorem ports_reset_rank (rk0 rk1 rk2 rk3 : Bool) (p : PortId) : (Delivery.reset rk0 rk1 rk2 rk3).ports[p] =
    Port.reset (if [rk0, rk1, rk2, rk3][p]'p.isLt then .supervisor else .feed) := by
  have pin (high : Bool) : rankOfPin high = if high then .supervisor else .feed := Bool.cond_eq_ite ..
  rw [Delivery.reset, pin, pin, pin, pin]
  fin_cases p <;> rfl

/-- Settles O3: after RESETn each table holds the same record everywhere. -/
theorem resetPinAndInitialState : Obligations.ResetPinAndInitialState := by
  unfold Obligations.ResetPinAndInitialState
  refine ⟨fun rk0 rk1 rk2 rk3 s => ⟨{ State.resetWith rk0 rk1 rk2 rk3 with pending := s.pending }, rfl, rfl, rfl, fun p => ?_,
    fun p => ?_, fun l => replicate_getFin _ l, fun i => replicate_getFin _ i, rfl, rfl, fun n => replicate_getFin _ n, rfl,
    rfl, rfl, rfl, fun h => replicate_getFin _ h, fun f => replicate_getFin _ f, fun k => replicate_getFin _ k,
    fun k => replicate_getFin _ k, fun p => replicate_getFin _ p, fun n => replicate_getFin _ n, rfl, rfl, rfl,
    fun p => replicate_getFin _ p, rfl, fun l => ?_, fun g => replicate_getFin _ g⟩, fun s => ?_⟩
  · exact congrArg Port.rank (ports_reset_rank rk0 rk1 rk2 rk3 p)
  · rw [State.resetWith, ports_reset_rank]
    exact ⟨rfl, rfl, rfl, fun k => replicate_getFin _ k, rfl, fun k => replicate_getFin _ k, rfl⟩
  · have reset : (Vector.replicate 8 Link.reset)[l] = Link.reset := replicate_getFin _ l
    rw [State.resetWith, Delivery.reset, Works.reset]
    dsimp only
    rw [reset]
    exact ⟨rfl, rfl, rfl, rfl, rfl, rfl, rfl, rfl, rfl, rfl, rfl, rfl⟩
  · refine ⟨_, rfl, rfl, rfl, rfl, rfl, rfl, rfl, fun p => ⟨?_, rfl, fun _ => rfl⟩⟩
    exact mapTable_getFin _ _ p

end Sys2Proof.Machine
end

section
/-! Reading the body of a request (chapter 13): each reader takes exactly the bytes that the layout gives the values it
answers, and takes them whenever they are there. -/

namespace Sys2Proof

/-! ## Numbers as bytes -/

theorem leBytes_length : ∀ width v : Nat, (leBytes width v).length = width
  | 0, _ => rfl
  | width + 1, v => congrArg (· + 1) (leBytes_length width (v / 256))

theorem leValue_lt : ∀ bs : List Byte, leValue bs < 256 ^ bs.length
  | [] => Nat.one_pos
  | b :: bs => by
    have rest := leValue_lt bs
    have low := b.isLt
    rw [leValue, List.length_cons, Nat.pow_succ]
    omega

theorem leValue_leBytes : ∀ {width v : Nat}, v < 256 ^ width → leValue (leBytes width v) = v
  | 0, v, fit => (Nat.lt_one_iff.1 fit).symm
  | width + 1, v, fit => by
    have rest : v / 256 < 256 ^ width := Nat.div_lt_of_lt_mul (by rwa [Nat.mul_comm, ← Nat.pow_succ])
    rw [leBytes, leValue, leValue_leBytes rest, BitVec.toNat_ofNat]
    exact Nat.mod_add_div v 256

theorem leBytes_leValue : ∀ bs : List Byte, leBytes bs.length (leValue bs) = bs
  | [] => rfl
  | b :: bs => by
    have low : BitVec.ofNat 8 (b.toNat + 256 * leValue bs) = b := by
      refine BitVec.eq_of_toNat_eq ?_
      rw [BitVec.toNat_ofNat, Nat.add_mul_mod_self_left, Nat.mod_eq_of_lt b.isLt]
    have high : (b.toNat + 256 * leValue bs) / 256 = leValue bs := by
      rw [Nat.add_mul_div_left _ _ (by decide), Nat.div_eq_of_lt b.isLt, Nat.zero_add]
    rw [leValue, List.length_cons, leBytes, low, high, leBytes_leValue bs]

/-! ## Fields -/

/-- Every value fits the width that the layout gives it. -/
def FieldsFit (fs : List Field) : Prop := ∀ f ∈ fs, f.1 < 256 ^ f.2

@[simp] theorem fieldsFit_nil : FieldsFit [] := List.forall_mem_nil _

@[simp] theorem fieldsFit_cons (v width : Nat) (fs : List Field) :
    FieldsFit ((v, width) :: fs) ↔ v < 256 ^ width ∧ FieldsFit fs := List.forall_mem_cons

@[simp] theorem fieldsFit_append (fs gs : List Field) : FieldsFit (fs ++ gs) ↔ FieldsFit fs ∧ FieldsFit gs :=
  List.forall_mem_append

@[simp] theorem fieldBytes_nil : fieldBytes [] = [] := rfl

@[simp] theorem fieldBytes_cons (v width : Nat) (fs : List Field) :
    fieldBytes ((v, width) :: fs) = leBytes width v ++ fieldBytes fs := List.flatMap_cons

@[simp] theorem fieldBytes_append (fs gs : List Field) : fieldBytes (fs ++ gs) = fieldBytes fs ++ fieldBytes gs :=
  List.flatMap_append

@[simp] theorem byteFields_fit (bs : List Byte) : FieldsFit (byteFields bs) := by
  intro f mem
  obtain ⟨b, -, rfl⟩ := List.mem_map.1 mem
  exact b.isLt

@[simp] theorem fieldBytes_byteFields : ∀ bs : List Byte, fieldBytes (byteFields bs) = bs
  | [] => rfl
  | b :: bs => by
    rw [byteFields, List.map_cons, fieldBytes_cons, ← byteFields, fieldBytes_byteFields bs]
    exact congrArg (· :: bs) ((BitVec.ofNat_toNat 8 b).trans (BitVec.setWidth_eq b))

/-- The numbers of so many bytes are spelled by the byte sequences of that length. -/
theorem length_eq_iff (width : Nat) (bs : List Byte) : bs.length = width ↔ ∃ v, v < 256 ^ width ∧ bs = leBytes width v := by
  constructor
  · rintro rfl
    exact ⟨leValue bs, leValue_lt bs, (leBytes_leValue bs).symm⟩
  · rintro ⟨v, -, rfl⟩
    exact leBytes_length width v

/-! ## Readers -/

/-- The reader answers a value and the bytes after it exactly when the bytes begin with those of the value's fields. -/
def Reads {α : Type} (rd : List Byte → Option (α × List Byte)) (enc : α → List Field) : Prop :=
  ∀ bs v rest, rd bs = some (v, rest) ↔ FieldsFit (enc v) ∧ bs = fieldBytes (enc v) ++ rest

section
variable {α β : Type} {rd : List Byte → Option (α × List Byte)} {enc : α → List Field} (h : Reads rd enc)
include h

/-- A reader and what goes on with its value and the bytes left. -/
theorem Reads.bind_eq_some {k : α × List Byte → Option β} {bs : List Byte} {x : β} : (rd bs).bind k = some x ↔
    ∃ v rest, (FieldsFit (enc v) ∧ bs = fieldBytes (enc v) ++ rest) ∧ k (v, rest) = some x := by
  rw [Option.bind_eq_some_iff]
  exact ⟨fun ⟨⟨v, rest⟩, read, next⟩ => ⟨v, rest, (h bs v rest).1 read, next⟩,
    fun ⟨v, rest, read, next⟩ => ⟨(v, rest), (h bs v rest).2 read, next⟩⟩

theorem Reads.atEnd_eq_some {bs : List Byte} {v : α} :
    atEnd (rd bs) = some v ↔ FieldsFit (enc v) ∧ bs = fieldBytes (enc v) := by
  rw [atEnd, Option.bind_eq_bind, h.bind_eq_some]
  constructor
  · rintro ⟨w, rest, ⟨fit, rfl⟩, ended⟩
    dsimp only at ended
    split at ended
    · next empty =>
      cases ended
      rw [List.isEmpty_iff.1 empty, List.append_nil]
      exact ⟨fit, rfl⟩
    · cases ended
  · rintro ⟨fit, rfl⟩
    exact ⟨v, [], ⟨fit, (List.append_nil _).symm⟩, rfl⟩

theorem Reads.read {v : α} (fit : FieldsFit (enc v)) (rest : List Byte) : rd (fieldBytes (enc v) ++ rest) = some (v, rest) :=
  (h _ v rest).2 ⟨fit, rfl⟩

theorem Reads.bind_read {v : α} (fit : FieldsFit (enc v)) (rest : List Byte) (k : α × List Byte → Option β) :
    (rd (fieldBytes (enc v) ++ rest)).bind k = k (v, rest) := by
  rw [h.read fit, Option.bind_some]

end

theorem rdNum_reads (width : Nat) : Reads (rdNum width) (fun v => [(v, width)]) := by
  intro bs v rest
  simp only [fieldsFit_cons, fieldsFit_nil, and_true, fieldBytes_cons, fieldBytes_nil, List.append_nil, rdNum]
  constructor
  · intro read
    split at read
    · cases read
    · next long =>
      cases read
      obtain ⟨v, fit, front⟩ := (length_eq_iff width _).1 (List.length_take_of_le (Nat.not_lt.1 long))
      rw [front, leValue_leBytes fit]
      exact ⟨fit, front ▸ (List.take_append_drop width bs).symm⟩
  · rintro ⟨fit, rfl⟩
    have front := leBytes_length width v
    rw [if_neg (by rw [List.length_append, front]; exact Nat.not_lt.2 (Nat.le_add_right ..)), List.take_left' front,
      List.drop_left' front, leValue_leBytes fit]

theorem rdNum_bind_read {β : Type} {width v : Nat} (fit : v < 256 ^ width) (rest : List Byte)
    (k : Nat × List Byte → Option β) : (rdNum width (leBytes width v ++ rest)).bind k = k (v, rest) := by
  have read := (rdNum_reads width).bind_read (v := v) ((fieldsFit_cons ..).2 ⟨fit, fieldsFit_nil⟩) rest k
  rwa [fieldBytes_cons, fieldBytes_nil, List.append_nil] at read

theorem rdByte_reads : Reads rdByte (fun b => [(b.toNat, 1)]) := by
  intro bs b rest
  have whole : leBytes 1 b.toNat = [b] := fieldBytes_byteFields [b]
  simp only [fieldsFit_cons, fieldsFit_nil, and_true, fieldBytes_cons, fieldBytes_nil, List.append_nil, whole]
  cases bs with
  | nil => simp [rdByte]
  | cons c bs =>
    have fit : b.toNat < 256 := b.isLt
    simp [rdByte, fit]

/-! ## Fields after a mark, lists and texts -/

@[simp] theorem leBytes_one_zero : leBytes 1 0 = [0] := rfl
@[simp] theorem leBytes_one_one : leBytes 1 1 = [1] := rfl
@[simp] theorem leBytes_one_two : leBytes 1 2 = [2] := rfl

/-- The fields of an optional value after its presence byte or its mark. -/
def afterMark {α : Type} (enc : α → List Field) : Option α → List Field
  | none => [(0, 1)]
  | some v => (1, 1) :: enc v

theorem afterMark_reads {α : Type} {rd : List Byte → Option (α × List Byte)} {enc : α → List Field} (h : Reads rd enc) :
    Reads (fun bs => (rdNum 1 bs).bind fun x => match x.1 with
      | 0 => some (none, x.2)
      | 1 => (rd x.2).bind fun y => some (some y.1, y.2)
      | _ => none) (afterMark enc) := by
  intro bs o rest
  rw [(rdNum_reads 1).bind_eq_some]
  constructor
  · rintro ⟨mark, more, ⟨-, rfl⟩, next⟩
    dsimp only at next
    split at next
    · cases next
      exact ⟨by simp [afterMark], rfl⟩
    · rw [h.bind_eq_some] at next
      obtain ⟨v, after, ⟨fit, rfl⟩, ended⟩ := next
      cases ended
      exact ⟨(fieldsFit_cons ..).2 ⟨by decide, fit⟩, by simp [afterMark]⟩
    · cases next
  · rintro ⟨fit, rfl⟩
    cases o with
    | none => exact ⟨0, rest, ⟨by simp, rfl⟩, rfl⟩
    | some v =>
      refine ⟨1, fieldBytes (enc v) ++ rest, ⟨by simp, by simp [afterMark]⟩, ?_⟩
      exact h.bind_eq_some.2 ⟨v, rest, ⟨((fieldsFit_cons ..).1 fit).2, rfl⟩, rfl⟩

theorem rdOpt_reads (width : Nat) : Reads (rdOpt width) (optFields width) := by
  intro bs o rest
  have read := afterMark_reads (rdNum_reads width) bs o rest
  cases o <;> exact read

theorem rdChange_reads (width : Nat) : Reads (rdChange width) (changeFields width) := by
  intro bs o rest
  rw [rdChange, Option.bind_eq_bind, (rdNum_reads 1).bind_eq_some]
  constructor
  · rintro ⟨mark, more, ⟨-, rfl⟩, next⟩
    dsimp only at next
    split at next
    · cases next
      exact ⟨by simp [changeFields], rfl⟩
    · rw [(rdNum_reads width).bind_eq_some] at next
      obtain ⟨v, after, ⟨fit, rfl⟩, ended⟩ := next
      cases ended
      exact ⟨by simpa [changeFields] using fit, by simp [changeFields]⟩
    · cases next
      exact ⟨by simp [changeFields], rfl⟩
    · cases next
  · rintro ⟨fit, rfl⟩
    cases o with
    | keep => exact ⟨0, rest, ⟨by simp, rfl⟩, rfl⟩
    | remove => exact ⟨2, rest, ⟨by simp, rfl⟩, rfl⟩
    | set v =>
      have value : FieldsFit [(v, width)] := by simpa [changeFields] using fit
      refine ⟨1, fieldBytes [(v, width)] ++ rest, ⟨by simp, by simp [changeFields]⟩, ?_⟩
      exact (rdNum_reads width).bind_eq_some.2 ⟨v, rest, ⟨value, rfl⟩, rfl⟩

theorem rdOptByte_reads : Reads rdOptByte (fun o => optFields 1 (o.map BitVec.toNat)) := by
  intro bs o rest
  rw [rdOptByte, Option.bind_eq_bind, (rdOpt_reads 1).bind_eq_some]
  have byte (v : Nat) (fit : v < 256) : (BitVec.ofNat 8 v).toNat = v := Nat.mod_eq_of_lt fit
  constructor
  · rintro ⟨x, more, ⟨fit, rfl⟩, ended⟩
    cases ended
    cases x with
    | none => exact ⟨fit, rfl⟩
    | some v =>
      have small : v < 256 := by simpa [optFields] using fit
      simpa only [Option.map_some, byte v small, and_true] using fit
  · rintro ⟨fit, rfl⟩
    refine ⟨o.map BitVec.toNat, rest, ⟨?_, ?_⟩, ?_⟩
    · cases o <;> exact fit
    · cases o <;> rfl
    · cases o <;> simp

theorem rdMany_eq_some (width : Nat) : ∀ (n : Nat) (bs : List Byte) (vs : List Nat) (rest : List Byte),
    rdMany width n bs = some (vs, rest) ↔ vs.length = n ∧ FieldsFit (vs.map (fun v => (v, width))) ∧
      bs = fieldBytes (vs.map (fun v => (v, width))) ++ rest
  | 0, bs, vs, rest => by
    cases vs <;> simp [rdMany]
  | n + 1, bs, vs, rest => by
    rw [rdMany, Option.bind_eq_bind, (rdNum_reads width).bind_eq_some]
    simp only [Option.bind_eq_bind, Option.bind_eq_some_iff, Prod.exists, rdMany_eq_some width n, Option.some.injEq,
      Prod.mk.injEq]
    constructor
    · rintro ⟨v, _, ⟨fit, rfl⟩, ws, _, ⟨count, fits, rfl⟩, rfl, rfl⟩
      exact ⟨congrArg (· + 1) count, by simpa using ⟨by simpa using fit, fits⟩, by simp⟩
    · rintro ⟨count, fits, rfl⟩
      cases vs with
      | nil => cases count
      | cons v ws =>
        rw [List.map_cons, fieldsFit_cons] at fits
        exact ⟨v, _, ⟨by simpa using fits.1, by simp⟩, ws, rest, ⟨Nat.succ.inj count, fits.2, rfl⟩, rfl, rfl⟩

theorem rdList_reads (width : Nat) : Reads (rdList width) (listFields width) := by
  intro bs vs rest
  rw [rdList, Option.bind_eq_bind, (rdNum_reads 1).bind_eq_some]
  simp only [rdMany_eq_some, listFields, fieldsFit_cons, fieldBytes_cons, List.append_assoc]
  constructor
  · rintro ⟨_, _, ⟨fit, rfl⟩, rfl, fits, rfl⟩
    exact ⟨⟨fit.1, fits⟩, by simp⟩
  · rintro ⟨⟨fit, fits⟩, rfl⟩
    exact ⟨vs.length, _, ⟨⟨fit, fieldsFit_nil⟩, by simp⟩, rfl, fits, rfl⟩

theorem rdText_reads : Reads (rdList 2) textFields := rdList_reads 2

theorem rdOptText_reads : Reads rdOptText (afterMark textFields) := fun bs o rest =>
  afterMark_reads rdText_reads bs o rest

end Sys2Proof
end

section
/-! The readers of whole bodies (chapter 13): lists of numbers of given widths, SETTINGS pairs, GLYPH_LOAD entries, and the
fields of a POST and of an AMEND. -/

namespace Sys2Proof

theorem rdAll_eq_some : ∀ (widths : List Nat) (bs : List Byte) (vs : List Nat), rdAll widths bs = some vs ↔
    vs.length = widths.length ∧ FieldsFit (vs.zip widths) ∧ bs = fieldBytes (vs.zip widths)
  | [], bs, vs => by
    cases bs <;> cases vs <;> simp [rdAll]
  | width :: widths, bs, vs => by
    rw [rdAll, Option.bind_eq_bind, (rdNum_reads width).bind_eq_some]
    simp only [Option.bind_eq_bind, Option.bind_eq_some_iff, rdAll_eq_some widths, Option.some.injEq]
    constructor
    · rintro ⟨v, _, ⟨fit, rfl⟩, ws, ⟨count, fits, rfl⟩, rfl⟩
      exact ⟨congrArg (· + 1) count, by simpa using ⟨by simpa using fit, fits⟩, by simp⟩
    · rintro ⟨count, fits, rfl⟩
      cases vs with
      | nil => cases count
      | cons v ws =>
        rw [List.zip_cons_cons, fieldsFit_cons] at fits
        exact ⟨v, _, ⟨by simpa using fits.1, by simp⟩, ws, ⟨Nat.succ.inj count, fits.2, rfl⟩, rfl⟩

theorem rdPairs_eq_some : ∀ (n : Nat) (bs : List Byte) (qs : List (Nat × Nat)) (rest : List Byte),
    rdPairs n bs = some (qs, rest) ↔ qs.length = n ∧ FieldsFit (qs.flatMap (fun q => [(q.1, 1), (q.2, 2)])) ∧
      bs = fieldBytes (qs.flatMap (fun q => [(q.1, 1), (q.2, 2)])) ++ rest
  | 0, bs, qs, rest => by
    cases qs <;> simp [rdPairs]
  | n + 1, bs, qs, rest => by
    simp only [rdPairs, Option.bind_eq_bind]
    constructor
    · simp only [(rdNum_reads _).bind_eq_some, Option.bind_eq_some_iff, Prod.exists, rdPairs_eq_some n, Option.some.injEq,
        Prod.mk.injEq, fieldsFit_cons, fieldsFit_nil, and_true]
      rintro ⟨code, _, ⟨known, rfl⟩, v, _, ⟨fit, rfl⟩, ps, _, ⟨count, fits, rfl⟩, rfl, rfl⟩
      refine ⟨congrArg (· + 1) count, ?_, by simp⟩
      simp only [List.flatMap_cons, fieldsFit_append, fieldsFit_cons, fieldsFit_nil, and_true]
      exact ⟨⟨known, fit⟩, fits⟩
    · rintro ⟨count, fits, rfl⟩
      cases qs with
      | nil => cases count
      | cons q ps =>
        simp only [List.flatMap_cons, fieldsFit_append, fieldsFit_cons, fieldsFit_nil, and_true] at fits
        obtain ⟨⟨known, fit⟩, fits⟩ := fits
        simp only [List.flatMap_cons, fieldBytes_append, fieldBytes_cons, fieldBytes_nil, List.append_nil, List.append_assoc,
          rdNum_bind_read known, rdNum_bind_read fit, (rdPairs_eq_some n _ ps rest).2 ⟨Nat.succ.inj count, fits, rfl⟩,
          Option.bind_some]

/-- Each bitmap is as long as its width and the height of the font make it (R119). -/
def bitmapsCut (height : Nat) (es : List GlyphEntry) : Prop := ∀ e ∈ es, e.bitmap.length = e.width * height / 8

theorem rdGlyphs_eq_some (height : Nat) : ∀ (n : Nat) (bs : List Byte) (es : List GlyphEntry) (rest : List Byte),
    rdGlyphs height n bs = some (es, rest) ↔ es.length = n ∧ bitmapsCut height es ∧
      FieldsFit (es.flatMap GlyphEntry.fields) ∧ bs = fieldBytes (es.flatMap GlyphEntry.fields) ++ rest
  | 0, bs, es, rest => by
    cases es <;> simp [rdGlyphs, bitmapsCut]
  | n + 1, bs, es, rest => by
    simp only [rdGlyphs, Option.bind_eq_bind]
    constructor
    · simp only [(rdNum_reads _).bind_eq_some, fieldsFit_cons, fieldsFit_nil, and_true]
      rintro ⟨glyph, _, ⟨named, rfl⟩, width, bs, ⟨wide, rfl⟩, next⟩
      split at next
      · cases next
      · next long =>
        obtain ⟨⟨es, _⟩, read, ended⟩ := Option.bind_eq_some_iff.1 next
        cases ended
        obtain ⟨count, cut, fits, rest_eq⟩ := (rdGlyphs_eq_some height n _ _ _).1 read
        refine ⟨congrArg (· + 1) count, List.forall_mem_cons.2 ⟨List.length_take_of_le (Nat.not_lt.1 long), cut⟩, ?_, ?_⟩
        · simp only [List.flatMap_cons, GlyphEntry.fields, fieldsFit_append, fieldsFit_cons, fieldsFit_nil, and_true,
            byteFields_fit]
          exact ⟨⟨named, wide⟩, fits⟩
        · have parts := List.take_append_drop (width * height / 8) bs
          rw [rest_eq] at parts
          conv_lhs => rw [← parts]
          simp [GlyphEntry.fields]
    · rintro ⟨count, cut, fits, rfl⟩
      cases es with
      | nil => cases count
      | cons e es =>
        obtain ⟨own, others⟩ := List.forall_mem_cons.1 cut
        simp only [List.flatMap_cons, GlyphEntry.fields, fieldsFit_append, fieldsFit_cons, fieldsFit_nil, and_true,
          byteFields_fit] at fits
        obtain ⟨⟨named, wide⟩, fits⟩ := fits
        have long : ¬ (e.bitmap ++ (fieldBytes (es.flatMap GlyphEntry.fields) ++ rest)).length < e.bitmap.length := by
          rw [List.length_append]
          exact Nat.not_lt.2 (Nat.le_add_right ..)
        simp only [List.flatMap_cons, GlyphEntry.fields, fieldBytes_append, fieldBytes_cons, fieldBytes_nil,
          fieldBytes_byteFields, List.append_nil, List.append_assoc, rdNum_bind_read named, rdNum_bind_read wide, ← own]
        rw [if_neg long, List.take_left, List.drop_left,
          (rdGlyphs_eq_some height n _ es rest).2 ⟨Nat.succ.inj count, others, fits, rfl⟩, Option.bind_some]

/-! ## POST (R53) -/

/-- The fields that close a POST: colours and flags, the window, the hold. -/
def postTail (x : Nat × Nat × Nat × Option Nat × Option Nat × Option Nat) : List Field :=
  [(x.1, 1), (x.2.1, 1), (x.2.2.1, 1)] ++ optFields 3 x.2.2.2.1 ++ optFields 3 x.2.2.2.2.1 ++ optFields 1 x.2.2.2.2.2

theorem rdPostTail_eq_some (bs : List Byte) (x : Nat × Nat × Nat × Option Nat × Option Nat × Option Nat) :
    rdPostTail bs = some x ↔ FieldsFit (postTail x) ∧ bs = fieldBytes (postTail x) := by
  obtain ⟨foreground, background, flags, windowStart, windowEnd, hold⟩ := x
  simp only [rdPostTail, Option.bind_eq_bind, postTail, fieldsFit_append, fieldsFit_cons, fieldsFit_nil, and_true]
  constructor
  · simp only [(rdNum_reads _).bind_eq_some, (rdOpt_reads _).bind_eq_some, fieldsFit_cons, fieldsFit_nil, and_true]
    rintro ⟨_, _, ⟨h1, rfl⟩, _, _, ⟨h2, rfl⟩, _, _, ⟨h3, rfl⟩, _, _, ⟨h4, rfl⟩, _, _, ⟨h5, rfl⟩, _, rest, ⟨h6, rfl⟩, ended⟩
    split at ended
    · next empty =>
      cases ended
      cases List.isEmpty_iff.1 empty
      exact ⟨⟨⟨⟨⟨h1, h2, h3⟩, h4⟩, h5⟩, h6⟩, by simp⟩
    · cases ended
  · rintro ⟨⟨⟨⟨⟨h1, h2, h3⟩, h4⟩, h5⟩, h6⟩, rfl⟩
    rw [← List.append_nil (fieldBytes _)]
    simp only [fieldBytes_append, fieldBytes_cons, fieldBytes_nil, List.nil_append, List.append_assoc, rdNum_bind_read h1,
      rdNum_bind_read h2, rdNum_bind_read h3, (rdOpt_reads _).bind_read h4, (rdOpt_reads _).bind_read h5,
      (rdOpt_reads _).bind_read h6]
    rfl

end Sys2Proof
end

section
/-! The readers of a POST and of an AMEND (R44, R53, R54). -/

namespace Sys2Proof

/-! ## POST (R44, R53) -/

/-- The kind code of a POST's content. -/
def ContentReq.kindCode : ContentReq → Nat
  | .text _ _ _ => 0
  | .departures _ _ _ _ _ => 1
  | .ticker _ => 2
  | .clock _ => 3
  | .glyph _ _ => 4
  | .unknown code _ => code

/-- The kind fields that follow the kind code. -/
def ContentReq.kindFields : ContentReq → List Field
  | .text chars font align => textFields chars ++ [(font, 1), (align, 1)]
  | .departures list firstRow rowCount rowFont badgeFont =>
    [(list, 1), (firstRow, 1), (rowCount, 1), (rowFont, 1), (badgeFont, 1)]
  | .ticker k => [(k, 1)]
  | .clock font => [(font, 1)]
  | .glyph font g => [(font, 1), (g, 2)]
  | .unknown _ rest => byteFields rest

theorem ContentReq.fields_eq (x : ContentReq) : x.fields = (x.kindCode, 1) :: x.kindFields := by
  cases x <;> rfl

/-- The kind is one that R44 lists. -/
def ContentReq.isKnown (x : ContentReq) : Prop := ∀ code rest, x ≠ .unknown code rest

theorem ContentReq.kindCode_le {x : ContentReq} (known : x.isKnown) : x.kindCode ≤ 4 := by
  cases x with
  | unknown code rest => exact absurd rfl (known code rest)
  | _ => simp [ContentReq.kindCode]

theorem rdContent_unknown {code : Nat} (h : 4 < code) (bs : List Byte) : rdContent code bs = some (.unknown code bs, []) := by
  obtain ⟨n, rfl⟩ := Nat.exists_eq_add_of_lt h
  rw [show 4 + n + 1 = n + 5 by omega]
  rfl

/-- The kind fields of a kind that R44 lists. -/
theorem rdContent_eq_some {code : Nat} (known : code ≤ 4) (bs : List Byte) (x : ContentReq) (rest : List Byte) :
    rdContent code bs = some (x, rest) ↔
      x.isKnown ∧ x.kindCode = code ∧ FieldsFit x.kindFields ∧ bs = fieldBytes x.kindFields ++ rest := by
  constructor
  · intro read
    interval_cases code <;>
      simp only [rdContent, Option.bind_eq_bind, (rdNum_reads _).bind_eq_some, rdText_reads.bind_eq_some, fieldsFit_cons,
        fieldsFit_nil, and_true] at read
    · obtain ⟨chars, _, ⟨h1, rfl⟩, font, _, ⟨h2, rfl⟩, align, _, ⟨h3, rfl⟩, ended⟩ := read
      cases ended
      exact ⟨nofun, rfl, (fieldsFit_append ..).2 ⟨h1, by simpa using ⟨h2, h3⟩⟩,
        by simp [ContentReq.kindFields]⟩
    · obtain ⟨list, _, ⟨h1, rfl⟩, firstRow, _, ⟨h2, rfl⟩, rowCount, _, ⟨h3, rfl⟩, rowFont, _, ⟨h4, rfl⟩, badgeFont, _,
        ⟨h5, rfl⟩, ended⟩ := read
      cases ended
      exact ⟨nofun, rfl, by simpa [ContentReq.kindFields] using ⟨h1, h2, h3, h4, h5⟩, by simp [ContentReq.kindFields]⟩
    · obtain ⟨k, _, ⟨h1, rfl⟩, ended⟩ := read
      cases ended
      exact ⟨nofun, rfl, by simpa [ContentReq.kindFields] using h1, by simp [ContentReq.kindFields]⟩
    · obtain ⟨font, _, ⟨h1, rfl⟩, ended⟩ := read
      cases ended
      exact ⟨nofun, rfl, by simpa [ContentReq.kindFields] using h1, by simp [ContentReq.kindFields]⟩
    · obtain ⟨font, _, ⟨h1, rfl⟩, g, _, ⟨h2, rfl⟩, ended⟩ := read
      cases ended
      exact ⟨nofun, rfl, by simpa [ContentReq.kindFields] using ⟨h1, h2⟩, by simp [ContentReq.kindFields]⟩
  · rintro ⟨listed, rfl, fits, rfl⟩
    cases x with
    | unknown code r => exact absurd rfl (listed code r)
    | text chars font align =>
      simp only [ContentReq.kindFields, fieldsFit_append, fieldsFit_cons, fieldsFit_nil, and_true] at fits
      obtain ⟨h1, h2, h3⟩ := fits
      simp only [rdContent, ContentReq.kindCode, ContentReq.kindFields, Option.bind_eq_bind, fieldBytes_append, fieldBytes_cons,
        fieldBytes_nil, List.append_nil, List.append_assoc, rdText_reads.bind_read h1, rdNum_bind_read h2,
        rdNum_bind_read h3]
    | departures list firstRow rowCount rowFont badgeFont =>
      simp only [ContentReq.kindFields, fieldsFit_cons, fieldsFit_nil, and_true] at fits
      obtain ⟨h1, h2, h3, h4, h5⟩ := fits
      simp only [rdContent, ContentReq.kindCode, ContentReq.kindFields, Option.bind_eq_bind, fieldBytes_cons,
        fieldBytes_nil, List.append_nil, List.append_assoc, rdNum_bind_read h1, rdNum_bind_read h2, rdNum_bind_read h3,
        rdNum_bind_read h4, rdNum_bind_read h5]
    | ticker k =>
      simp only [ContentReq.kindFields, fieldsFit_cons, fieldsFit_nil, and_true] at fits
      simp only [rdContent, ContentReq.kindCode, ContentReq.kindFields, Option.bind_eq_bind, fieldBytes_cons,
        fieldBytes_nil, List.append_nil, rdNum_bind_read fits]
    | clock font =>
      simp only [ContentReq.kindFields, fieldsFit_cons, fieldsFit_nil, and_true] at fits
      simp only [rdContent, ContentReq.kindCode, ContentReq.kindFields, Option.bind_eq_bind, fieldBytes_cons,
        fieldBytes_nil, List.append_nil, rdNum_bind_read fits]
    | glyph font g =>
      simp only [ContentReq.kindFields, fieldsFit_cons, fieldsFit_nil, and_true] at fits
      obtain ⟨h1, h2⟩ := fits
      simp only [rdContent, ContentReq.kindCode, ContentReq.kindFields, Option.bind_eq_bind, fieldBytes_cons,
        fieldBytes_nil, List.append_nil, List.append_assoc, rdNum_bind_read h1, rdNum_bind_read h2]

/-- Some end of the bytes is what closes a POST. -/
theorem endsPost_iff : ∀ bs : List Byte, endsPost bs = true ↔
    ∃ front x, FieldsFit (postTail x) ∧ bs = front ++ fieldBytes (postTail x)
  | [] => by
    simp only [endsPost, Bool.false_eq_true, false_iff]
    rintro ⟨front, x, -, none_left⟩
    have empty := (List.append_eq_nil_iff.1 none_left.symm).2
    simp [postTail, leBytes] at empty
  | b :: bs => by
    rw [endsPost, Bool.or_eq_true, Option.isSome_iff_exists, endsPost_iff bs]
    simp only [rdPostTail_eq_some]
    constructor
    · rintro (⟨x, fits, whole⟩ | ⟨front, x, fits, rfl⟩)
      · exact ⟨[], x, fits, whole⟩
      · exact ⟨b :: front, x, fits, rfl⟩
    · rintro ⟨front, x, fits, parts⟩
      cases front with
      | nil => exact .inl ⟨x, fits, parts⟩
      | cons c front =>
        cases parts
        exact .inr ⟨front, x, fits, rfl⟩

/-- The fields of a POST before its kind code: address, place and size, layer. -/
def PostReq.front (f : PostReq) : List Field :=
  [(f.base.toNat, 1), (f.mask.toNat, 1), (f.x, 2), (f.w, 2), (f.y, 1), (f.h, 1), (f.layer, 1)]

/-- What closes the POST. -/
def PostReq.closing (f : PostReq) : Nat × Nat × Nat × Option Nat × Option Nat × Option Nat :=
  (f.foreground, f.background, f.flags, f.windowStart, f.windowEnd, f.hold)

/-- What follows the kind code: for a kind that R44 lists its kind fields and what closes the POST, else bytes (log 11). -/
def PostReq.afterCode (f : PostReq) : List Field :=
  match f.content with
  | .unknown _ rest => byteFields rest
  | content => content.kindFields ++ postTail f.closing

theorem PostReq.bodyFields_eq (f : PostReq) : f.bodyFields = f.front ++ (f.content.kindCode, 1) :: f.afterCode := by
  unfold PostReq.bodyFields PostReq.afterCode
  rw [ContentReq.fields_eq]
  cases f.content <;> simp [PostReq.front, postTail, PostReq.closing, ContentReq.kindFields]

theorem PostReq.afterCode_known {f : PostReq} (known : f.content.isKnown) :
    f.afterCode = f.content.kindFields ++ postTail f.closing := by
  unfold PostReq.afterCode
  split
  · next e => exact absurd e (known _ _)
  · rfl

/-- The requests that a POST's body can give (log 11): of a known kind, or of a code above 4 with an end that closes a POST
and with nothing read of it. -/
def PostReq.isRead (f : PostReq) : Prop := f.content.isKnown ∨
  ∃ code rest, f.content = .unknown code rest ∧ 4 < code ∧ endsPost rest = true ∧ f.closing = (0, 0, 0, none, none, none)

theorem rdPost_eq_some (bs : List Byte) (f : PostReq) :
    rdPost bs = some f ↔ f.isRead ∧ FieldsFit f.bodyFields ∧ bs = fieldBytes f.bodyFields := by
  constructor
  · intro read
    obtain ⟨base, b1, ⟨h1, e1⟩, read⟩ := rdByte_reads.bind_eq_some.1 read
    obtain ⟨mask, b2, ⟨h2, e2⟩, read⟩ := rdByte_reads.bind_eq_some.1 read
    obtain ⟨x, b3, ⟨h3, e3⟩, read⟩ := (rdNum_reads 2).bind_eq_some.1 read
    obtain ⟨w, b4, ⟨h4, e4⟩, read⟩ := (rdNum_reads 2).bind_eq_some.1 read
    obtain ⟨y, b5, ⟨h5, e5⟩, read⟩ := (rdNum_reads 1).bind_eq_some.1 read
    obtain ⟨h, b6, ⟨h6, e6⟩, read⟩ := (rdNum_reads 1).bind_eq_some.1 read
    obtain ⟨layer, b7, ⟨h7, e7⟩, read⟩ := (rdNum_reads 1).bind_eq_some.1 read
    obtain ⟨code, b8, ⟨h8, e8⟩, read⟩ := (rdNum_reads 1).bind_eq_some.1 read
    obtain ⟨⟨content, rest⟩, kind, next⟩ := Option.bind_eq_some_iff.1 read
    subst e1 e2 e3 e4 e5 e6 e7 e8
    simp only [fieldsFit_cons, fieldsFit_nil, and_true] at h1 h2 h3 h4 h5 h6 h7 h8
    rcases Nat.lt_or_ge 4 code with above | listed
    · rw [rdContent_unknown above] at kind
      cases kind
      dsimp only at next
      split at next
      · next ends =>
        cases next
        refine ⟨.inr ⟨code, b8, rfl, above, ends, rfl⟩, ?_⟩
        rw [PostReq.bodyFields_eq]
        simp only [PostReq.front, PostReq.afterCode, ContentReq.kindCode, fieldsFit_append, fieldsFit_cons,
          fieldsFit_nil, byteFields_fit, and_true]
        exact ⟨⟨⟨h1, h2, h3, h4, h5, h6, h7⟩, h8⟩, by simp⟩
      · cases next
    · obtain ⟨known, rfl, fits, rfl⟩ := (rdContent_eq_some listed _ _ _).1 kind
      dsimp only at next
      split at next
      · exact absurd rfl (known _ _)
      · obtain ⟨closing, tail, made⟩ := Option.bind_eq_some_iff.1 next
        obtain ⟨closed, rfl⟩ := (rdPostTail_eq_some _ _).1 tail
        cases made
        refine ⟨.inl known, ?_⟩
        rw [PostReq.bodyFields_eq, PostReq.afterCode_known known]
        simp only [PostReq.front, fieldsFit_append, fieldsFit_cons, fieldsFit_nil, and_true]
        exact ⟨⟨⟨h1, h2, h3, h4, h5, h6, h7⟩, h8, fits, closed⟩, by simp [PostReq.closing]⟩
  · rintro ⟨read, fits, rfl⟩
    have byte (b : Byte) : FieldsFit [(b.toNat, 1)] := by simpa using b.isLt
    have number {v width : Nat} (fit : v < 256 ^ width) : FieldsFit [(v, width)] := by simpa using fit
    rw [PostReq.bodyFields_eq] at fits ⊢
    simp only [PostReq.front, fieldsFit_append, fieldsFit_cons, fieldsFit_nil, and_true] at fits
    obtain ⟨⟨-, -, h3, h4, h5, h6, h7⟩, h8, fits⟩ := fits
    have parts : fieldBytes (f.front ++ (f.content.kindCode, 1) :: f.afterCode) = fieldBytes [(f.base.toNat, 1)] ++
        (fieldBytes [(f.mask.toNat, 1)] ++ (fieldBytes [(f.x, 2)] ++ (fieldBytes [(f.w, 2)] ++ (fieldBytes [(f.y, 1)] ++
          (fieldBytes [(f.h, 1)] ++ (fieldBytes [(f.layer, 1)] ++ (fieldBytes [(f.content.kindCode, 1)] ++
            fieldBytes f.afterCode))))))) := by simp [PostReq.front]
    rw [parts]
    unfold rdPost
    refine rdByte_reads.bind_eq_some.2 ⟨f.base, _, ⟨byte _, rfl⟩, ?_⟩
    refine rdByte_reads.bind_eq_some.2 ⟨f.mask, _, ⟨byte _, rfl⟩, ?_⟩
    refine (rdNum_reads 2).bind_eq_some.2 ⟨_, _, ⟨number h3, rfl⟩, ?_⟩
    refine (rdNum_reads 2).bind_eq_some.2 ⟨_, _, ⟨number h4, rfl⟩, ?_⟩
    refine (rdNum_reads 1).bind_eq_some.2 ⟨_, _, ⟨number h5, rfl⟩, ?_⟩
    refine (rdNum_reads 1).bind_eq_some.2 ⟨_, _, ⟨number h6, rfl⟩, ?_⟩
    refine (rdNum_reads 1).bind_eq_some.2 ⟨_, _, ⟨number h7, rfl⟩, ?_⟩
    refine (rdNum_reads 1).bind_eq_some.2 ⟨_, _, ⟨number h8, rfl⟩, ?_⟩
    rcases read with known | ⟨code, rest, unknown, above, ends, closing⟩
    · rw [PostReq.afterCode_known known] at fits ⊢
      obtain ⟨fits, closed⟩ := (fieldsFit_append ..).1 fits
      have kind := (rdContent_eq_some (ContentReq.kindCode_le known) _ _ _).2
        ⟨known, rfl, fits, fieldBytes_append _ (postTail f.closing)⟩
      refine Option.bind_eq_some_iff.2 ⟨_, kind, ?_⟩
      dsimp only
      split
      · next e => exact absurd e (known _ _)
      · exact Option.bind_eq_some_iff.2 ⟨_, (rdPostTail_eq_some _ f.closing).2 ⟨closed, rfl⟩, rfl⟩
    · cases f
      cases unknown
      cases closing
      refine Option.bind_eq_some_iff.2 ⟨_, rdContent_unknown above _, ?_⟩
      simp only [PostReq.afterCode, fieldBytes_byteFields, ends, if_true]

end Sys2Proof
end

section
/-! The reader of an AMEND (R54, log 10). -/

namespace Sys2Proof

/-- The fields of an AMEND before the text, each with its width. -/
def AmendReq.front (f : AmendReq) : List (Nat × Option Nat) :=
  [(1, f.base.map BitVec.toNat), (1, f.mask.map BitVec.toNat), (2, f.x), (2, f.w), (1, f.y), (1, f.h), (1, f.layer)]

/-- The fields after the text. -/
def AmendReq.back (f : AmendReq) : List (Nat × Option Nat) :=
  [(1, f.font), (1, f.align), (1, f.list), (1, f.firstRow), (1, f.rowCount), (1, f.rowFont), (1, f.badgeFont), (1, f.ticker),
    (2, f.glyph), (1, f.foreground), (1, f.background), (1, f.flags)]

/-- The removable fields. -/
def AmendReq.removable (f : AmendReq) : List (Nat × Change) := [(3, f.windowStart), (3, f.windowEnd), (1, f.hold)]

theorem AmendReq.bodyFields_eq (f : AmendReq) : f.bodyFields =
    f.front.flatMap (fun q => optFields q.1 q.2) ++ (afterMark textFields f.text ++
      (f.back.flatMap (fun q => optFields q.1 q.2) ++ f.removable.flatMap (fun q => changeFields q.1 q.2))) := by
  have mark (width : Nat) (o : Option Nat) : markFields width o = optFields width o := by cases o <;> rfl
  unfold AmendReq.bodyFields
  cases f.text <;>
    simp only [mark, AmendReq.front, AmendReq.back, AmendReq.removable, List.flatMap_cons, List.flatMap_nil, List.append_assoc,
      List.append_nil, afterMark]

theorem rdAmend_eq_some (bs : List Byte) (f : AmendReq) :
    rdAmend bs = some f ↔ FieldsFit f.bodyFields ∧ bs = fieldBytes f.bodyFields := by
  rw [AmendReq.bodyFields_eq]
  simp only [AmendReq.front, AmendReq.back, AmendReq.removable, List.flatMap_cons, List.flatMap_nil, fieldsFit_append,
    fieldsFit_nil, and_true]
  constructor
  · intro read
    obtain ⟨base, b1, ⟨h1, e1⟩, read⟩ := rdOptByte_reads.bind_eq_some.1 read
    obtain ⟨mask, b2, ⟨h2, e2⟩, read⟩ := rdOptByte_reads.bind_eq_some.1 read
    obtain ⟨x, b3, ⟨h3, e3⟩, read⟩ := (rdOpt_reads 2).bind_eq_some.1 read
    obtain ⟨w, b4, ⟨h4, e4⟩, read⟩ := (rdOpt_reads 2).bind_eq_some.1 read
    obtain ⟨y, b5, ⟨h5, e5⟩, read⟩ := (rdOpt_reads 1).bind_eq_some.1 read
    obtain ⟨h, b6, ⟨h6, e6⟩, read⟩ := (rdOpt_reads 1).bind_eq_some.1 read
    obtain ⟨layer, b7, ⟨h7, e7⟩, read⟩ := (rdOpt_reads 1).bind_eq_some.1 read
    obtain ⟨text, b8, ⟨h8, e8⟩, read⟩ := rdOptText_reads.bind_eq_some.1 read
    obtain ⟨font, b9, ⟨h9, e9⟩, read⟩ := (rdOpt_reads 1).bind_eq_some.1 read
    obtain ⟨align, b10, ⟨h10, e10⟩, read⟩ := (rdOpt_reads 1).bind_eq_some.1 read
    obtain ⟨list, b11, ⟨h11, e11⟩, read⟩ := (rdOpt_reads 1).bind_eq_some.1 read
    obtain ⟨firstRow, b12, ⟨h12, e12⟩, read⟩ := (rdOpt_reads 1).bind_eq_some.1 read
    obtain ⟨rowCount, b13, ⟨h13, e13⟩, read⟩ := (rdOpt_reads 1).bind_eq_some.1 read
    obtain ⟨rowFont, b14, ⟨h14, e14⟩, read⟩ := (rdOpt_reads 1).bind_eq_some.1 read
    obtain ⟨badgeFont, b15, ⟨h15, e15⟩, read⟩ := (rdOpt_reads 1).bind_eq_some.1 read
    obtain ⟨ticker, b16, ⟨h16, e16⟩, read⟩ := (rdOpt_reads 1).bind_eq_some.1 read
    obtain ⟨glyph, b17, ⟨h17, e17⟩, read⟩ := (rdOpt_reads 2).bind_eq_some.1 read
    obtain ⟨foreground, b18, ⟨h18, e18⟩, read⟩ := (rdOpt_reads 1).bind_eq_some.1 read
    obtain ⟨background, b19, ⟨h19, e19⟩, read⟩ := (rdOpt_reads 1).bind_eq_some.1 read
    obtain ⟨flags, b20, ⟨h20, e20⟩, read⟩ := (rdOpt_reads 1).bind_eq_some.1 read
    obtain ⟨windowStart, b21, ⟨h21, e21⟩, read⟩ := (rdChange_reads 3).bind_eq_some.1 read
    obtain ⟨windowEnd, b22, ⟨h22, e22⟩, read⟩ := (rdChange_reads 3).bind_eq_some.1 read
    obtain ⟨hold, b23, ⟨h23, e23⟩, read⟩ := (rdChange_reads 1).bind_eq_some.1 read
    dsimp only at read
    split at read
    · next empty =>
      cases read
      cases List.isEmpty_iff.1 empty
      subst e1 e2 e3 e4 e5 e6 e7 e8 e9 e10 e11 e12 e13 e14 e15 e16 e17 e18 e19 e20 e21 e22 e23
      exact ⟨⟨⟨h1, h2, h3, h4, h5, h6, h7⟩, h8, ⟨h9, h10, h11, h12, h13, h14, h15, h16, h17, h18, h19, h20⟩, h21, h22, h23⟩,
        by simp only [fieldBytes_append, List.append_nil, List.append_assoc]⟩
    · cases read
  · rintro ⟨⟨⟨h1, h2, h3, h4, h5, h6, h7⟩, h8, ⟨h9, h10, h11, h12, h13, h14, h15, h16, h17, h18, h19, h20⟩, h21, h22, h23⟩, rfl⟩
    simp only [fieldBytes_append, List.append_nil, List.append_assoc]
    refine rdOptByte_reads.bind_eq_some.2 ⟨_, _, ⟨h1, rfl⟩, ?_⟩
    refine rdOptByte_reads.bind_eq_some.2 ⟨_, _, ⟨h2, rfl⟩, ?_⟩
    refine (rdOpt_reads 2).bind_eq_some.2 ⟨_, _, ⟨h3, rfl⟩, ?_⟩
    refine (rdOpt_reads 2).bind_eq_some.2 ⟨_, _, ⟨h4, rfl⟩, ?_⟩
    refine (rdOpt_reads 1).bind_eq_some.2 ⟨_, _, ⟨h5, rfl⟩, ?_⟩
    refine (rdOpt_reads 1).bind_eq_some.2 ⟨_, _, ⟨h6, rfl⟩, ?_⟩
    refine (rdOpt_reads 1).bind_eq_some.2 ⟨_, _, ⟨h7, rfl⟩, ?_⟩
    refine rdOptText_reads.bind_eq_some.2 ⟨_, _, ⟨h8, rfl⟩, ?_⟩
    refine (rdOpt_reads 1).bind_eq_some.2 ⟨_, _, ⟨h9, rfl⟩, ?_⟩
    refine (rdOpt_reads 1).bind_eq_some.2 ⟨_, _, ⟨h10, rfl⟩, ?_⟩
    refine (rdOpt_reads 1).bind_eq_some.2 ⟨_, _, ⟨h11, rfl⟩, ?_⟩
    refine (rdOpt_reads 1).bind_eq_some.2 ⟨_, _, ⟨h12, rfl⟩, ?_⟩
    refine (rdOpt_reads 1).bind_eq_some.2 ⟨_, _, ⟨h13, rfl⟩, ?_⟩
    refine (rdOpt_reads 1).bind_eq_some.2 ⟨_, _, ⟨h14, rfl⟩, ?_⟩
    refine (rdOpt_reads 1).bind_eq_some.2 ⟨_, _, ⟨h15, rfl⟩, ?_⟩
    refine (rdOpt_reads 1).bind_eq_some.2 ⟨_, _, ⟨h16, rfl⟩, ?_⟩
    refine (rdOpt_reads 2).bind_eq_some.2 ⟨_, _, ⟨h17, rfl⟩, ?_⟩
    refine (rdOpt_reads 1).bind_eq_some.2 ⟨_, _, ⟨h18, rfl⟩, ?_⟩
    refine (rdOpt_reads 1).bind_eq_some.2 ⟨_, _, ⟨h19, rfl⟩, ?_⟩
    refine (rdOpt_reads 1).bind_eq_some.2 ⟨_, _, ⟨h20, rfl⟩, ?_⟩
    refine (rdChange_reads 3).bind_eq_some.2 ⟨_, _, ⟨h21, rfl⟩, ?_⟩
    refine (rdChange_reads 3).bind_eq_some.2 ⟨_, _, ⟨h22, rfl⟩, ?_⟩
    refine (rdChange_reads 1).bind_eq_some.2 ⟨_, [], ⟨h23, (List.append_nil _).symm⟩, ?_⟩
    rfl

end Sys2Proof
end

section
/-! Which bytes the fields of a body can be: those whose counts and marks account for them (R192). -/

namespace Sys2Proof.Machine

/-- The byte sequences that the fields of the values with `good` make are those with `shape`. -/
def Shapes {α : Type} (shape : List Byte → Prop) (good : α → Prop) (enc : α → List Field) : Prop :=
  ∀ bs, shape bs ↔ ∃ v, good v ∧ FieldsFit (enc v) ∧ bs = fieldBytes (enc v)

/-! ## One field (R192) -/

theorem number_shapes (width : Nat) :
    Shapes (fun bs => bs.length = width) (fun _ : Nat => True) (fun v => [(v, width)]) := fun bs => by
  simpa using length_eq_iff width bs

theorem afterMark_shapes {α : Type} {shape : List Byte → Prop} {enc : α → List Field}
    (one : Shapes shape (fun _ => True) enc) :
    Shapes (fun bs => bs = [0] ∨ ∃ v, bs = 1 :: v ∧ shape v) (fun _ => True) (afterMark enc) := by
  intro bs
  constructor
  · rintro (rfl | ⟨_, rfl, own⟩)
    · exact ⟨none, trivial, by simp [afterMark], rfl⟩
    · obtain ⟨v, -, fit, rfl⟩ := (one _).1 own
      exact ⟨some v, trivial, (fieldsFit_cons ..).2 ⟨by decide, fit⟩, by simp [afterMark]⟩
  · rintro ⟨o, -, fit, rfl⟩
    cases o with
    | none => exact .inl rfl
    | some v => exact .inr ⟨_, by simp [afterMark], (one _).2 ⟨v, trivial, ((fieldsFit_cons ..).1 fit).2, rfl⟩⟩

theorem marked_shapes (width : Nat) : Shapes (markedField width) (fun _ => True) (optFields width) := by
  intro bs
  have same : afterMark (fun v => [(v, width)]) = optFields width := funext fun o => by cases o <;> rfl
  exact same ▸ afterMark_shapes (number_shapes width) bs

theorem removable_shapes (width : Nat) :
    Shapes (fun bs => bs = [2] ∨ markedField width bs) (fun _ => True) (changeFields width) := by
  intro bs
  simp only [(marked_shapes width) bs]
  constructor
  · rintro (rfl | ⟨o, -, fit, rfl⟩)
    · exact ⟨.remove, trivial, by simp [changeFields], rfl⟩
    · cases o with
      | none => exact ⟨.keep, trivial, fit, rfl⟩
      | some v => exact ⟨.set v, trivial, fit, rfl⟩
  · rintro ⟨x, -, fit, rfl⟩
    cases x with
    | keep => exact .inr ⟨none, trivial, fit, rfl⟩
    | set v => exact .inr ⟨some v, trivial, fit, rfl⟩
    | remove => exact .inl rfl

/-! ## Sequences of fields -/

/-- So many byte sequences of one shape, joined. -/
theorem repeated_shapes {α : Type} {shape : List Byte → Prop} {good : α → Prop} {enc : α → List Field}
    (one : Shapes shape good enc) : ∀ n : Nat,
    Shapes (fun bs => ∃ parts : List (List Byte), parts.length = n ∧ (∀ part ∈ parts, shape part) ∧ bs = parts.flatten)
      (fun vs : List α => vs.length = n ∧ ∀ v ∈ vs, good v) (fun vs => vs.flatMap enc)
  | 0, bs => by simp
  | n + 1, bs => by
    constructor
    · rintro ⟨parts, count, shaped, rfl⟩
      cases parts with
      | nil => cases count
      | cons part parts =>
        obtain ⟨own, others⟩ := List.forall_mem_cons.1 shaped
        obtain ⟨v, fine, fit, rfl⟩ := (one part).1 own
        obtain ⟨vs, ⟨rfl, all⟩, fits, joined⟩ := (repeated_shapes one n _).1 ⟨parts, Nat.succ.inj count, others, rfl⟩
        exact ⟨v :: vs, ⟨rfl, List.forall_mem_cons.2 ⟨fine, all⟩⟩, by simpa using ⟨fit, fits⟩, by simp [joined]⟩
    · rintro ⟨vs, ⟨count, all⟩, fits, rfl⟩
      cases vs with
      | nil => cases count
      | cons v vs =>
        simp only [List.flatMap_cons, fieldsFit_append] at fits
        obtain ⟨fine, others⟩ := List.forall_mem_cons.1 all
        obtain ⟨parts, counted, shaped, joined⟩ :=
          (repeated_shapes one n _).2 ⟨vs, ⟨Nat.succ.inj count, others⟩, fits.2, rfl⟩
        exact ⟨_ :: parts, congrArg (· + 1) counted, List.forall_mem_cons.2 ⟨(one _).2 ⟨v, fine, fits.1, rfl⟩, shaped⟩,
          by simp [joined]⟩

/-- Bytes cut into so many parts of one length. -/
theorem length_eq_mul_iff (width : Nat) : ∀ (n : Nat) (bs : List Byte), bs.length = width * n ↔
    ∃ parts : List (List Byte), parts.length = n ∧ (∀ part ∈ parts, part.length = width) ∧ bs = parts.flatten
  | 0, bs => by simp
  | n + 1, bs => by
    constructor
    · intro long
      rw [Nat.mul_succ] at long
      have rest : (bs.drop width).length = width * n := by rw [List.length_drop, long, Nat.add_sub_cancel]
      obtain ⟨parts, count, cut, joined⟩ := (length_eq_mul_iff width n _).1 rest
      have first : (bs.take width).length = width := List.length_take_of_le (long ▸ Nat.le_add_left ..)
      exact ⟨bs.take width :: parts, congrArg (· + 1) count, List.forall_mem_cons.2 ⟨first, cut⟩,
        by rw [List.flatten_cons, ← joined, List.take_append_drop]⟩
    · rintro ⟨parts, count, cut, rfl⟩
      cases parts with
      | nil => cases count
      | cons part parts =>
        obtain ⟨own, others⟩ := List.forall_mem_cons.1 cut
        rw [List.flatten_cons, List.length_append, own,
          (length_eq_mul_iff width n _).2 ⟨parts, Nat.succ.inj count, others, rfl⟩, Nat.mul_succ, Nat.add_comm]

/-- Values of one length each, so many of them. -/
theorem counted_shapes {α : Type} {width : Nat} {enc : α → List Field}
    (one : Shapes (fun bs => bs.length = width) (fun _ => True) enc) (n : Nat) :
    Shapes (fun bs => bs.length = width * n) (fun vs : List α => vs.length = n) (fun vs => vs.flatMap enc) := fun bs => by
  have joined := repeated_shapes one n bs
  simp only [implies_true, and_true, ← length_eq_mul_iff] at joined
  exact joined

/-- Fields of the widths given, one after the other. -/
theorem sequence_shapes {α : Type} {shape : Nat → List Byte → Prop} {enc : Nat → α → List Field}
    (one : ∀ width, Shapes (shape width) (fun _ => True) (enc width)) : ∀ widths : List Nat,
    Shapes (fun bs => ∃ parts : List (List Byte), List.Forall₂ shape widths parts ∧ bs = parts.flatten)
      (fun vs : List α => vs.length = widths.length) (fun vs => (widths.zip vs).flatMap (fun q => enc q.1 q.2))
  | [], bs => by simp
  | width :: widths, bs => by
    constructor
    · rintro ⟨_, shaped, rfl⟩
      cases shaped with
      | cons own others =>
        obtain ⟨v, -, fit, rfl⟩ := (one width _).1 own
        obtain ⟨vs, count, fits, joined⟩ := (sequence_shapes one widths _).1 ⟨_, others, rfl⟩
        exact ⟨v :: vs, congrArg (· + 1) count, by simpa using ⟨fit, fits⟩, by simp [joined]⟩
    · rintro ⟨vs, count, fits, rfl⟩
      cases vs with
      | nil => cases count
      | cons v vs =>
        simp only [List.zip_cons_cons, List.flatMap_cons, fieldsFit_append] at fits
        obtain ⟨parts, shaped, joined⟩ := (sequence_shapes one widths _).2 ⟨vs, Nat.succ.inj count, fits.2, rfl⟩
        exact ⟨_ :: parts, .cons ((one width _).2 ⟨v, trivial, fits.1, rfl⟩) shaped, by simp [joined]⟩

/-- Bytes of the length that the widths add up to. -/
theorem widths_shapes : ∀ widths : List Nat, Shapes (fun bs => bs.length = widths.sum)
    (fun vs : List Nat => vs.length = widths.length) (fun vs => vs.zip widths)
  | [], bs => by simp
  | width :: widths, bs => by
    constructor
    · intro long
      rw [List.sum_cons] at long
      have rest : (bs.drop width).length = widths.sum := by rw [List.length_drop, long, Nat.add_sub_cancel_left]
      obtain ⟨vs, count, fits, joined⟩ := (widths_shapes widths _).1 rest
      obtain ⟨v, fit, front⟩ := (length_eq_iff width _).1 (List.length_take_of_le (long ▸ Nat.le_add_right ..))
      exact ⟨v :: vs, congrArg (· + 1) count, by simpa using ⟨fit, fits⟩, by
        simp only [List.zip_cons_cons, fieldBytes_cons, ← joined, ← front, List.take_append_drop]⟩
    · rintro ⟨vs, count, fits, rfl⟩
      cases vs with
      | nil => cases count
      | cons v vs =>
        simp only [List.zip_cons_cons, fieldsFit_cons] at fits
        have rest : (fieldBytes (vs.zip widths)).length = widths.sum :=
          (widths_shapes widths _).2 ⟨vs, Nat.succ.inj count, fits.2, rfl⟩
        simp only [List.zip_cons_cons, fieldBytes_cons, List.length_append, leBytes_length, List.sum_cons, rest]

/-! ## Texts and lists (chapter 13) -/

/-- A one-byte number. -/
theorem leBytes_one_toNat (n : Byte) : leBytes 1 n.toNat = [n] := fieldBytes_byteFields [n]

theorem numbers_shapes (width n : Nat) : Shapes (fun bs => bs.length = width * n) (fun vs : List Nat => vs.length = n)
    (fun vs => vs.map (fun v => (v, width))) := by
  have each (vs : List Nat) : vs.flatMap (fun v => [(v, width)]) = vs.map (fun v => (v, width)) :=
    List.flatMap_pure_eq_map (fun v => (v, width)) vs
  have many := counted_shapes (number_shapes width) n
  simp only [each] at many
  exact many

/-- A one-byte count, and then so many parts of one length. -/
theorem afterCount_shapes {α : Type} {width : Nat} {enc : List α → List Field}
    (many : ∀ n, Shapes (fun bs => bs.length = width * n) (fun vs : List α => vs.length = n) enc) :
    Shapes (fun bs => ∃ (n : Byte) (rest : List Byte), bs = n :: rest ∧ rest.length = width * n.toNat) (fun _ => True)
      (fun vs : List α => (vs.length, 1) :: enc vs) := by
  intro bs
  constructor
  · rintro ⟨n, rest, rfl, long⟩
    obtain ⟨vs, count, fits, rfl⟩ := (many n.toNat rest).1 long
    exact ⟨vs, trivial, (fieldsFit_cons ..).2 ⟨count.trans_lt n.isLt, fits⟩, by
      rw [fieldBytes_cons, show vs.length = n.toNat from count, leBytes_one_toNat]
      rfl⟩
  · rintro ⟨vs, -, fits, rfl⟩
    obtain ⟨few, fits⟩ := (fieldsFit_cons ..).1 fits
    have count : (BitVec.ofNat 8 vs.length).toNat = vs.length := Nat.mod_eq_of_lt few
    exact ⟨BitVec.ofNat 8 vs.length, _, fieldBytes_cons .., count.symm ▸ (many vs.length _).2 ⟨vs, rfl, fits, rfl⟩⟩

theorem text_shapes : Shapes countedText (fun _ => True) textFields := afterCount_shapes (numbers_shapes 2)

end Sys2Proof.Machine
end

section
/-! The judgement of a body by its kind code (R192): a request is read exactly when the counts and marks of the body account
for its bytes, and its values are then those of the body. -/

namespace Sys2Proof.Machine

theorem byteField_fit (n : Byte) : FieldsFit [(n.toNat, 1)] := byteFields_fit [n]

theorem byte_cons (n : Byte) (rest : List Byte) : n :: rest = fieldBytes [(n.toNat, 1)] ++ rest := by
  rw [fieldBytes_cons, leBytes_one_toNat]
  rfl

/-- A number of one byte is a byte. -/
theorem byte_of_fit {n : Nat} (small : n < 256 ^ 1) : ∃ b : Byte, n = b.toNat :=
  ⟨BitVec.ofNat 8 n, (Nat.mod_eq_of_lt small).symm⟩

/-- The request `i` is one of port `p`, of this kind and, where it has a tag, of this tag. -/
structure RequestOf (p : PortId) (kind : Nat) (tag : Byte) (i : Instr) : Prop where
  port : requestPort i = some p
  code : i.kindCode = kind
  tag : kind = 0x35 ∨ kind = 0x40 → i.tagByte = tag

/-- The reading `r` of a body: a request exactly when the body is accounted for, its values those of the body. -/
structure Judged (p : PortId) (kind : Nat) (tag : Byte) (body : List Byte) (accounted : Prop) (r : Option Instr) : Prop where
  found : accounted → ∃ i, r = some i
  sound : ∀ i, r = some i → accounted ∧ RequestOf p kind tag i ∧ fieldBytes i.bodyFields = body

theorem Judged.none_of_not {p : PortId} {kind : Nat} {tag : Byte} {body : List Byte} {accounted : Prop} {r : Option Instr}
    (h : Judged p kind tag body accounted r) (malformed : ¬ accounted) : r = none :=
  Option.eq_none_iff_forall_ne_some.2 (fun i read => malformed (h.sound i read).1)

section
variable {p : PortId} {kind : Nat} {tag : Byte} {body : List Byte} {accounted : Prop} {r : Option Instr}

/-- From the bytes that the fields of the requests can be, and what a reader answers. -/
theorem judged_of {α : Type} {mk : α → Instr} {good : α → Prop}
    (shape : accounted ↔ ∃ a, good a ∧ FieldsFit (mk a).bodyFields ∧ body = fieldBytes (mk a).bodyFields)
    (found : ∀ a, good a → FieldsFit (mk a).bodyFields → body = fieldBytes (mk a).bodyFields → ∃ i, r = some i)
    (read : ∀ i, r = some i → ∃ a, (good a ∧ FieldsFit (mk a).bodyFields ∧ body = fieldBytes (mk a).bodyFields) ∧ mk a = i)
    (own : ∀ a, RequestOf p kind tag (mk a)) : Judged p kind tag body accounted r where
  found ok := by
    obtain ⟨a, fine, fit, bytes⟩ := shape.1 ok
    exact found a fine fit bytes
  sound i answer := by
    obtain ⟨a, spelled, rfl⟩ := read i answer
    exact ⟨shape.2 ⟨a, spelled⟩, own a, spelled.2.2.symm⟩

/-! ## Fixed body lengths -/

/-- A kind of fixed body length. -/
theorem judged_fixed {widths : List Nat} (unread : rdAll widths body = none → r = none)
    (read : ∀ vs : List Nat, vs.length = widths.length → rdAll widths body = some vs → FieldsFit (vs.zip widths) →
      ∃ i, r = some i ∧ RequestOf p kind tag i ∧ i.bodyFields = vs.zip widths) :
    Judged p kind tag body (some widths.sum = some body.length) r where
  found ok := by
    obtain ⟨vs, count, fits, bytes⟩ := (widths_shapes widths body).1 (Option.some.inj ok).symm
    obtain ⟨i, answer, -⟩ := read vs count ((rdAll_eq_some widths body vs).2 ⟨count, fits, bytes⟩) fits
    exact ⟨i, answer⟩
  sound i answer := by
    cases all : rdAll widths body with
    | none => cases (unread all).symm.trans answer
    | some vs =>
      obtain ⟨count, fits, bytes⟩ := (rdAll_eq_some widths body vs).1 all
      obtain ⟨j, answer', own, fields⟩ := read vs count all fits
      cases answer.symm.trans answer'
      exact ⟨congrArg some ((widths_shapes widths body).2 ⟨vs, count, fits, bytes⟩).symm, own, fields ▸ bytes.symm⟩

/-- A body of one number. -/
theorem judged_one {width : Nat} {k : Nat → Instr} (own : ∀ v, RequestOf p kind tag (k v))
    (fields : ∀ v, v < 256 ^ width → (k v).bodyFields = [(v, width)]) :
    Judged p kind tag body (some width = some body.length) (rd1 width k body) where
  found ok := by
    obtain ⟨v, fit, rfl⟩ := (length_eq_iff width body).1 (Option.some.inj ok).symm
    refine ⟨k v, (rdNum_reads width).bind_eq_some.2 ⟨v, [], ⟨by simpa using fit, by simp⟩, rfl⟩⟩
  sound i answer := by
    obtain ⟨v, rest, ⟨fit, e⟩, ended⟩ := (rdNum_reads width).bind_eq_some.1 answer
    rw [fieldsFit_cons] at fit
    dsimp only at ended
    split at ended
    · next empty =>
      cases ended
      cases List.isEmpty_iff.1 empty
      rw [List.append_nil] at e
      have long := (length_eq_iff width body).2 ⟨v, fit.1, by rw [e, fieldBytes_cons, fieldBytes_nil, List.append_nil]⟩
      exact ⟨congrArg some long.symm, own v, by rw [fields v fit.1, e]⟩
    · cases ended

/-- No body. -/
theorem judged_empty {i : Instr} (own : RequestOf p kind tag i) (fields : i.bodyFields = []) :
    Judged p kind tag body (some 0 = some body.length) (if body.isEmpty then some i else none) := by
  cases body with
  | nil =>
    refine ⟨fun _ => ⟨i, rfl⟩, fun j answer => ?_⟩
    cases answer
    exact ⟨rfl, own, by rw [fields, fieldBytes_nil]⟩
  | cons b body => exact ⟨nofun, fun j answer => absurd answer (by simp)⟩

/-! ## Bodies with counts and marks -/

/-- A number and a text. -/
theorem judged_text {k : Nat → List Nat → Instr} (own : ∀ n t, RequestOf p kind tag (k n t))
    (fields : ∀ n t, (k n t).bodyFields = (n, 1) :: textFields t) :
    Judged p kind tag body (∃ (n : Byte) (text : List Byte), body = n :: text ∧ countedText text) (rdNumText k body) where
  found := by
    rintro ⟨n, text, rfl, counted⟩
    obtain ⟨t, -, fit, rfl⟩ := (text_shapes text).1 counted
    refine ⟨k n.toNat t, ?_⟩
    unfold rdNumText
    refine (rdNum_reads 1).bind_eq_some.2 ⟨n.toNat, fieldBytes (textFields t), ⟨byteField_fit n, byte_cons n _⟩, ?_⟩
    exact Option.bind_eq_some_iff.2 ⟨t, rdText_reads.atEnd_eq_some.2 ⟨fit, rfl⟩, rfl⟩
  sound i answer := by
    obtain ⟨n, rest, ⟨small, e⟩, answer⟩ := (rdNum_reads 1).bind_eq_some.1 answer
    obtain ⟨t, text, made⟩ := Option.bind_eq_some_iff.1 answer
    obtain ⟨fit, e'⟩ := rdText_reads.atEnd_eq_some.1 text
    cases made
    subst e e'
    obtain ⟨b, rfl⟩ := byte_of_fit ((fieldsFit_cons ..).1 small).1
    exact ⟨⟨b, _, (byte_cons ..).symm, (text_shapes _).2 ⟨t, trivial, fit, rfl⟩⟩, own _ t, by rw [fields]; rfl⟩

end

end Sys2Proof.Machine
end

section
/-! The bodies of SETTINGS, POST, AMEND, GLYPH_LOAD and GROUP_SETUP: the bytes that their fields can be (R192). -/

namespace Sys2Proof.Machine

/-! ## POST (R44, R53) -/

theorem postFront_shapes : Shapes (fun bs => bs.length = 9) (fun _ => True) PostReq.front := by
  intro bs
  have widths := widths_shapes [1, 1, 2, 2, 1, 1, 1] bs
  constructor
  · intro long
    obtain ⟨vs, count, fits, rfl⟩ := widths.1 long
    match vs, count with
    | [base, mask, x, w, y, h, layer], _ =>
      simp only [List.zip_cons_cons, List.zip_nil_left] at fits
      obtain ⟨b, rfl⟩ := byte_of_fit ((fieldsFit_cons ..).1 fits).1
      obtain ⟨m, rfl⟩ := byte_of_fit ((fieldsFit_cons ..).1 ((fieldsFit_cons ..).1 fits).2).1
      exact ⟨⟨b, m, x, w, y, h, layer, .clock 0, 0, 0, 0, none, none, none⟩, trivial, fits, rfl⟩
  · rintro ⟨f, -, fits, rfl⟩
    exact widths.2 ⟨f.front.map Prod.fst, rfl, fits, rfl⟩

theorem postTail_shapes : Shapes (fun bs => ∃ look start stop hold, look.length = 3 ∧ bs = look ++ start ++ stop ++ hold ∧
    markedField 3 start ∧ markedField 3 stop ∧ markedField 1 hold) (fun _ => True) postTail := by
  intro bs
  constructor
  · rintro ⟨_, _, _, _, three, rfl, start, stop, hold⟩
    obtain ⟨vs, count, looks, rfl⟩ := (widths_shapes [1, 1, 1] _).1 three
    obtain ⟨from', -, starts, rfl⟩ := (marked_shapes 3 _).1 start
    obtain ⟨until', -, stops, rfl⟩ := (marked_shapes 3 _).1 stop
    obtain ⟨held, -, holds, rfl⟩ := (marked_shapes 1 _).1 hold
    match vs, count with
    | [foreground, background, flags], _ =>
      refine ⟨(foreground, background, flags, from', until', held), trivial, ?_, by simp [postTail]⟩
      simp only [postTail, fieldsFit_append]
      exact ⟨⟨⟨looks, starts⟩, stops⟩, holds⟩
  · rintro ⟨x, -, fits, rfl⟩
    simp only [postTail, fieldsFit_append] at fits
    obtain ⟨⟨⟨looks, starts⟩, stops⟩, holds⟩ := fits
    exact ⟨_, _, _, _, (widths_shapes [1, 1, 1] _).2 ⟨[x.1, x.2.1, x.2.2.1], rfl, looks, rfl⟩, by simp [postTail],
      (marked_shapes 3 _).2 ⟨_, trivial, starts, rfl⟩, (marked_shapes 3 _).2 ⟨_, trivial, stops, rfl⟩,
      (marked_shapes 1 _).2 ⟨_, trivial, holds, rfl⟩⟩

/-- The kind fields of a kind that R44 lists. -/
theorem kindField_shapes {code : Byte} (listed : code.toNat ≤ 4) : Shapes (kindFieldBytes code)
    (fun x : ContentReq => x.isKnown ∧ x.kindCode = code.toNat) ContentReq.kindFields := by
  intro bs
  unfold kindFieldBytes
  constructor
  · intro shaped
    split at shaped
    · next e =>
      obtain ⟨_, _, rfl, chars, two⟩ := shaped
      obtain ⟨t, -, fit, rfl⟩ := (text_shapes _).1 chars
      obtain ⟨vs, count, fits, rfl⟩ := (widths_shapes [1, 1] _).1 two
      match vs, count with
      | [font, align], _ => exact ⟨.text t font align, ⟨nofun, e.symm⟩, (fieldsFit_append ..).2 ⟨fit, fits⟩,
          (fieldBytes_append ..).symm⟩
    · next e =>
      obtain ⟨vs, count, fits, rfl⟩ := (widths_shapes [1, 1, 1, 1, 1] _).1 shaped
      match vs, count with
      | [list, firstRow, rowCount, rowFont, badgeFont], _ =>
        exact ⟨.departures list firstRow rowCount rowFont badgeFont, ⟨nofun, e.symm⟩, fits, rfl⟩
    · next e =>
      obtain ⟨k, -, fit, rfl⟩ := (number_shapes 1 _).1 shaped
      exact ⟨.ticker k, ⟨nofun, e.symm⟩, fit, rfl⟩
    · next e =>
      obtain ⟨font, -, fit, rfl⟩ := (number_shapes 1 _).1 shaped
      exact ⟨.clock font, ⟨nofun, e.symm⟩, fit, rfl⟩
    · next e =>
      obtain ⟨vs, count, fits, rfl⟩ := (widths_shapes [1, 2] _).1 shaped
      match vs, count with
      | [font, g], _ => exact ⟨.glyph font g, ⟨nofun, e.symm⟩, fits, rfl⟩
    · next n0 n1 n2 n3 n4 => grind
  · rintro ⟨x, ⟨known, same⟩, fits, rfl⟩
    rw [← same]
    cases x with
    | text chars font align =>
      obtain ⟨fit, fits⟩ := (fieldsFit_append ..).1 fits
      exact ⟨_, _, fieldBytes_append .., (text_shapes _).2 ⟨chars, trivial, fit, rfl⟩,
        (widths_shapes [1, 1] _).2 ⟨[font, align], rfl, fits, rfl⟩⟩
    | departures list firstRow rowCount rowFont badgeFont =>
      exact (widths_shapes [1, 1, 1, 1, 1] _).2 ⟨[list, firstRow, rowCount, rowFont, badgeFont], rfl, fits, rfl⟩
    | ticker k => exact (number_shapes 1 _).2 ⟨k, trivial, fits, rfl⟩
    | clock font => exact (number_shapes 1 _).2 ⟨font, trivial, fits, rfl⟩
    | glyph font g => exact (widths_shapes [1, 2] _).2 ⟨[font, g], rfl, fits, rfl⟩
    | unknown code rest => exact absurd rfl (known _ _)

/-- After a code that is no kind any bytes can follow. -/
theorem kindFieldBytes_unknown {code : Byte} (above : 4 < code.toNat) (bs : List Byte) : kindFieldBytes code bs := by
  obtain ⟨n, e⟩ : ∃ n, code.toNat = n + 5 := ⟨code.toNat - 5, by omega⟩
  unfold kindFieldBytes
  rw [e]
  trivial

theorem post_shapes : Shapes (fun body => ∃ (front : List Byte) (code : Byte) (fields look start stop hold : List Byte),
      front.length = 9 ∧ look.length = 3 ∧ body = front ++ code :: (fields ++ look ++ start ++ stop ++ hold) ∧
      kindFieldBytes code fields ∧ markedField 3 start ∧ markedField 3 stop ∧ markedField 1 hold)
    PostReq.isRead PostReq.bodyFields := by
  intro body
  constructor
  · rintro ⟨_, code, fields, look, start, stop, hold, nine, three, rfl, kind, marks⟩
    obtain ⟨f, -, front, rfl⟩ := (postFront_shapes _).1 nine
    obtain ⟨x, -, closed, tail⟩ := (postTail_shapes (look ++ start ++ stop ++ hold)).1
      ⟨look, start, stop, hold, three, rfl, marks⟩
    have parts : fields ++ look ++ start ++ stop ++ hold = fields ++ fieldBytes (postTail x) := by
      rw [← tail]
      simp only [List.append_assoc]
    rw [parts]
    rcases Nat.lt_or_ge 4 code.toNat with above | listed
    · have ends : endsPost (fields ++ fieldBytes (postTail x)) = true := (endsPost_iff _).2 ⟨fields, x, closed, rfl⟩
      refine ⟨{ f with
        content := .unknown code.toNat (fields ++ fieldBytes (postTail x)), foreground := 0, background := 0, flags := 0
        windowStart := none, windowEnd := none, hold := none }, .inr ⟨_, _, rfl, above, ends, rfl⟩, ?_⟩
      rw [PostReq.bodyFields_eq]
      exact ⟨(fieldsFit_append ..).2 ⟨front, (fieldsFit_cons ..).2 ⟨code.isLt, byteFields_fit _⟩⟩, by
        rw [fieldBytes_append, fieldBytes_cons, PostReq.afterCode, fieldBytes_byteFields, ContentReq.kindCode, leBytes_one_toNat]
        rfl⟩
    · obtain ⟨content, ⟨known, same⟩, own, rfl⟩ := (kindField_shapes listed _).1 kind
      refine ⟨{ f with
        content, foreground := x.1, background := x.2.1, flags := x.2.2.1, windowStart := x.2.2.2.1
        windowEnd := x.2.2.2.2.1, hold := x.2.2.2.2.2 }, .inl known, ?_⟩
      rw [PostReq.bodyFields_eq, PostReq.afterCode_known known, same]
      have after := (fieldsFit_append ..).2 ⟨own, closed⟩
      exact ⟨(fieldsFit_append ..).2 ⟨front, (fieldsFit_cons ..).2 ⟨code.isLt, after⟩⟩, by
        rw [fieldBytes_append, fieldBytes_cons, fieldBytes_append, leBytes_one_toNat]
        rfl⟩
  · rintro ⟨f, read, fits, rfl⟩
    rw [PostReq.bodyFields_eq] at fits ⊢
    obtain ⟨front, fits⟩ := (fieldsFit_append ..).1 fits
    obtain ⟨small, fits⟩ := (fieldsFit_cons ..).1 fits
    obtain ⟨code, same⟩ := byte_of_fit small
    have nine := (postFront_shapes _).2 ⟨f, trivial, front, rfl⟩
    have bytes : fieldBytes (f.front ++ (f.content.kindCode, 1) :: f.afterCode) =
        fieldBytes f.front ++ code :: fieldBytes f.afterCode := by
      rw [fieldBytes_append, fieldBytes_cons, same, leBytes_one_toNat]
      rfl
    rw [bytes]
    suffices ∃ fields x, kindFieldBytes code fields ∧ FieldsFit (postTail x) ∧
        fieldBytes f.afterCode = fields ++ fieldBytes (postTail x) by
      obtain ⟨fields, x, kind, closed, after⟩ := this
      obtain ⟨look, start, stop, hold, three, tail, marks⟩ := (postTail_shapes _).2 ⟨x, trivial, closed, rfl⟩
      refine ⟨_, code, fields, look, start, stop, hold, nine, three, ?_, kind, marks⟩
      rw [after, tail]
      simp only [List.append_assoc]
    rcases read with known | ⟨n, rest, unknown, above, ends, -⟩
    · have listed : code.toNat ≤ 4 := by
        rw [← same]
        exact ContentReq.kindCode_le known
      rw [PostReq.afterCode_known known] at fits
      obtain ⟨own, closed⟩ := (fieldsFit_append ..).1 fits
      refine ⟨_, f.closing, (kindField_shapes listed _).2 ⟨f.content, ⟨known, same⟩, own, rfl⟩, closed, ?_⟩
      rw [PostReq.afterCode_known known, fieldBytes_append]
    · obtain ⟨fields, x, closed, rfl⟩ := (endsPost_iff rest).1 ends
      have noKind : 4 < code.toNat := by
        rw [← same, unknown]
        exact above
      refine ⟨fields, x, kindFieldBytes_unknown noKind fields, closed, ?_⟩
      rw [PostReq.afterCode, unknown, fieldBytes_byteFields]

/-! ## AMEND (R54, log 10) -/

/-- An AMEND that carries nothing. -/
def AmendReq.blank : AmendReq :=
  ⟨none, none, none, none, none, none, none, none, none, none, none, none, none, none, none, none, none, none, none, none,
    .keep, .keep, .keep⟩

/-- An optional number of one byte is an optional byte. -/
theorem byteOption_of_fit {o : Option Nat} (fit : FieldsFit (optFields 1 o)) : ∃ b : Option Byte, o = b.map BitVec.toNat := by
  cases o with
  | none => exact ⟨none, rfl⟩
  | some v =>
    obtain ⟨b, rfl⟩ := byte_of_fit ((fieldsFit_cons ..).1 ((fieldsFit_cons ..).1 fit).2).1
    exact ⟨some b, rfl⟩

theorem amendFront_shapes : Shapes
    (fun bs => ∃ parts : List (List Byte), List.Forall₂ markedField [1, 1, 2, 2, 1, 1, 1] parts ∧ bs = parts.flatten)
    (fun _ => True) (fun f : AmendReq => f.front.flatMap (fun q => optFields q.1 q.2)) := by
  intro bs
  have fields := sequence_shapes marked_shapes [1, 1, 2, 2, 1, 1, 1] bs
  constructor
  · intro shaped
    obtain ⟨vs, count, fits, rfl⟩ := fields.1 shaped
    match vs, count with
    | [base, mask, x, w, y, h, layer], _ =>
      obtain ⟨own, others⟩ := (fieldsFit_append ..).1 fits
      obtain ⟨b, rfl⟩ := byteOption_of_fit own
      obtain ⟨m, rfl⟩ := byteOption_of_fit ((fieldsFit_append ..).1 others).1
      exact ⟨{ AmendReq.blank with base := b, mask := m, x, w, y, h, layer }, trivial, fits, rfl⟩
  · rintro ⟨f, -, fits, rfl⟩
    exact fields.2 ⟨f.front.map Prod.snd, rfl, fits, rfl⟩

theorem amendBack_shapes : Shapes
    (fun bs => ∃ parts : List (List Byte),
      List.Forall₂ markedField [1, 1, 1, 1, 1, 1, 1, 1, 2, 1, 1, 1] parts ∧ bs = parts.flatten)
    (fun _ => True) (fun f : AmendReq => f.back.flatMap (fun q => optFields q.1 q.2)) := by
  intro bs
  have fields := sequence_shapes marked_shapes [1, 1, 1, 1, 1, 1, 1, 1, 2, 1, 1, 1] bs
  constructor
  · intro shaped
    obtain ⟨vs, count, fits, rfl⟩ := fields.1 shaped
    match vs, count with
    | [font, align, list, firstRow, rowCount, rowFont, badgeFont, ticker, glyph, foreground, background, flags], _ =>
      exact ⟨{ AmendReq.blank with
        font, align, list, firstRow, rowCount, rowFont, badgeFont, ticker, glyph, foreground, background, flags },
        trivial, fits, rfl⟩
  · rintro ⟨f, -, fits, rfl⟩
    exact fields.2 ⟨f.back.map Prod.snd, rfl, fits, rfl⟩

theorem amendRemovable_shapes : Shapes
    (fun bs => ∃ parts : List (List Byte),
      List.Forall₂ (fun width bs => bs = [2] ∨ markedField width bs) [3, 3, 1] parts ∧ bs = parts.flatten)
    (fun _ => True) (fun f : AmendReq => f.removable.flatMap (fun q => changeFields q.1 q.2)) := by
  intro bs
  have fields := sequence_shapes removable_shapes [3, 3, 1] bs
  constructor
  · intro shaped
    obtain ⟨vs, count, fits, rfl⟩ := fields.1 shaped
    match vs, count with
    | [windowStart, windowEnd, hold], _ =>
      exact ⟨{ AmendReq.blank with windowStart, windowEnd, hold }, trivial, fits, rfl⟩
  · rintro ⟨f, -, fits, rfl⟩
    exact fields.2 ⟨f.removable.map Prod.snd, rfl, fits, rfl⟩

theorem amend_shapes : Shapes (fun body => ∃ (n : Byte) (front : List (List Byte)) (text : List Byte)
      (back removable : List (List Byte)), body = n :: (front.flatten ++ text ++ back.flatten ++ removable.flatten) ∧
      List.Forall₂ markedField [1, 1, 2, 2, 1, 1, 1] front ∧
      (text = [0] ∨ ∃ t, text = 1 :: t ∧ countedText t) ∧
      List.Forall₂ markedField [1, 1, 1, 1, 1, 1, 1, 1, 2, 1, 1, 1] back ∧
      List.Forall₂ (fun width bs => bs = [2] ∨ markedField width bs) [3, 3, 1] removable)
    (fun _ => True) (fun q : Nat × AmendReq => (q.1, 1) :: q.2.bodyFields) := by
  intro body
  constructor
  · rintro ⟨n, front, _, back, removable, rfl, fronts, marked, backs, removables⟩
    obtain ⟨f, -, fitFront, bytesFront⟩ := (amendFront_shapes _).1 ⟨front, fronts, rfl⟩
    obtain ⟨text, -, fitText, rfl⟩ := (afterMark_shapes text_shapes _).1 marked
    obtain ⟨g, -, fitBack, bytesBack⟩ := (amendBack_shapes _).1 ⟨back, backs, rfl⟩
    obtain ⟨r, -, fitRemovable, bytesRemovable⟩ := (amendRemovable_shapes _).1 ⟨removable, removables, rfl⟩
    refine ⟨(n.toNat, { g with
      base := f.base, mask := f.mask, x := f.x, w := f.w, y := f.y, h := f.h, layer := f.layer, text
      windowStart := r.windowStart, windowEnd := r.windowEnd, hold := r.hold }), trivial, ?_⟩
    dsimp only
    rw [AmendReq.bodyFields_eq, fieldsFit_cons, fieldBytes_cons, leBytes_one_toNat]
    simp only [fieldsFit_append, fieldBytes_append]
    rw [bytesFront, bytesBack, bytesRemovable, List.append_assoc, List.append_assoc]
    exact ⟨⟨n.isLt, fitFront, fitText, fitBack, fitRemovable⟩, rfl⟩
  · rintro ⟨⟨v, f⟩, -, fits, rfl⟩
    dsimp only at fits ⊢
    rw [AmendReq.bodyFields_eq] at fits ⊢
    simp only [fieldsFit_cons, fieldsFit_append] at fits
    obtain ⟨small, fitFront, fitText, fitBack, fitRemovable⟩ := fits
    obtain ⟨n, rfl⟩ := byte_of_fit small
    obtain ⟨front, fronts, bytesFront⟩ := (amendFront_shapes _).2 ⟨f, trivial, fitFront, rfl⟩
    obtain ⟨back, backs, bytesBack⟩ := (amendBack_shapes _).2 ⟨f, trivial, fitBack, rfl⟩
    obtain ⟨removable, removables, bytesRemovable⟩ := (amendRemovable_shapes _).2 ⟨f, trivial, fitRemovable, rfl⟩
    refine ⟨n, front, _, back, removable, ?_, fronts, (afterMark_shapes text_shapes _).2 ⟨f.text, trivial, fitText, rfl⟩, backs,
      removables⟩
    simp only [fieldBytes_cons, fieldBytes_append, leBytes_one_toNat, bytesFront, bytesBack, bytesRemovable, List.append_assoc]
    rfl

/-! ## SETTINGS (R190), GLYPH_LOAD (R119), GROUP_SETUP (R171) -/

theorem settings_shapes : Shapes
    (fun body => ∃ (n : Byte) (pairs : List Byte), body = n :: pairs ∧ pairs.length = 3 * n.toNat) (fun _ => True)
    (fun qs : List (Nat × Nat) => (qs.length, 1) :: qs.flatMap (fun q => [(q.1, 1), (q.2, 2)])) := by
  refine afterCount_shapes (counted_shapes fun bs => ?_)
  have widths := widths_shapes [1, 2] bs
  constructor
  · intro long
    obtain ⟨vs, count, fits, rfl⟩ := widths.1 long
    match vs, count with
    | [code, v], _ => exact ⟨(code, v), trivial, fits, rfl⟩
  · rintro ⟨q, -, fits, rfl⟩
    exact widths.2 ⟨[q.1, q.2], rfl, fits, rfl⟩

theorem glyphEntry_shapes (height : Nat) : Shapes (glyphEntryBytes height)
    (fun e : GlyphEntry => e.bitmap.length = e.width * height / 8) GlyphEntry.fields := by
  intro bs
  constructor
  · rintro ⟨g0, g1, width, bitmap, rfl, cut⟩
    obtain ⟨g, -, named, two⟩ := (number_shapes 2 [g0, g1]).1 rfl
    refine ⟨⟨g, width.toNat, bitmap⟩, cut, ?_, ?_⟩
    · simp only [GlyphEntry.fields, fieldsFit_append, byteFields_fit, and_true]
      exact (fieldsFit_cons ..).2 ⟨((fieldsFit_cons ..).1 named).1, byteField_fit width⟩
    · simp only [GlyphEntry.fields, fieldBytes_append, fieldBytes_cons, fieldBytes_byteFields, leBytes_one_toNat]
      rw [fieldBytes_cons, fieldBytes_nil, List.append_nil] at two
      rw [← two]
      rfl
  · rintro ⟨e, cut, fits, rfl⟩
    obtain ⟨g, w, bitmap⟩ := e
    simp only [GlyphEntry.fields, fieldsFit_append, fieldsFit_cons] at fits
    obtain ⟨width, rfl⟩ := byte_of_fit fits.1.2.1
    refine ⟨BitVec.ofNat 8 g, BitVec.ofNat 8 (g / 256), width, bitmap, ?_, cut⟩
    simp only [GlyphEntry.fields, fieldBytes_append, fieldBytes_cons, fieldBytes_byteFields, leBytes_one_toNat]
    rfl

/-- The height at which the bitmaps for a font are cut (log 11): that of the font, or 8 or 16 for a number that names none. -/
def cutHeight (heights : List Nat) (font height : Nat) : Prop :=
  match heights[font]? with
  | some h => height = h
  | none => height = 8 ∨ height = 16

theorem glyphLoad_shapes (heights : List Nat) : Shapes
    (fun body => ∃ (font n : Byte) (entries : List (List Byte)), body = font :: n :: entries.flatten ∧
      entries.length = n.toNat ∧ ∃ height : Nat, (∀ bs ∈ entries, glyphEntryBytes height bs) ∧
        cutHeight heights font.toNat height)
    (fun q : Nat × List GlyphEntry => ∃ height, bitmapsCut height q.2 ∧ cutHeight heights q.1 height)
    (fun q => [(q.1, 1), (q.2.length, 1)] ++ q.2.flatMap GlyphEntry.fields) := by
  intro body
  constructor
  · rintro ⟨font, n, entries, rfl, count, height, shaped, cut⟩
    obtain ⟨es, ⟨same, bitmaps⟩, fits, bytes⟩ :=
      (repeated_shapes (glyphEntry_shapes height) n.toNat _).1 ⟨entries, count, shaped, rfl⟩
    refine ⟨(font.toNat, es), ⟨height, bitmaps, cut⟩, ?_⟩
    simp only [fieldsFit_append, fieldBytes_append, fieldsFit_cons, fieldsFit_nil, and_true, fieldBytes_cons, same,
      leBytes_one_toNat, bytes]
    exact ⟨⟨⟨font.isLt, n.isLt⟩, fits⟩, rfl⟩
  · rintro ⟨⟨f, es⟩, ⟨height, bitmaps, cut⟩, fits, rfl⟩
    simp only [fieldsFit_append, fieldsFit_cons, fieldsFit_nil, and_true] at fits
    obtain ⟨⟨small, few⟩, fits⟩ := fits
    obtain ⟨font, rfl⟩ := byte_of_fit small
    obtain ⟨n, same⟩ := byte_of_fit few
    obtain ⟨entries, count, shaped, bytes⟩ :=
      (repeated_shapes (glyphEntry_shapes height) es.length _).2 ⟨es, ⟨rfl, bitmaps⟩, fits, rfl⟩
    refine ⟨font, n, entries, ?_, count.trans same, height, shaped, cut⟩
    simp only [fieldBytes_append, fieldBytes_cons, same, leBytes_one_toNat, bytes]
    rfl

theorem groupSetup_shapes : Shapes
    (fun body => ∃ (group n : Byte) (rest : List Byte), body = group :: n :: rest ∧ rest.length = n.toNat + 1) (fun _ => True)
    (fun q : Nat × List Nat × Nat => (q.1, 1) :: (listFields 1 q.2.1 ++ [(q.2.2, 1)])) := by
  intro body
  constructor
  · rintro ⟨group, n, rest, rfl, long⟩
    obtain ⟨deadline, small, last⟩ := (length_eq_iff 1 (rest.drop n.toNat)).1 (by rw [List.length_drop]; omega)
    obtain ⟨ms, count, fits, first⟩ := (numbers_shapes 1 n.toNat (rest.take n.toNat)).1 (by
      simp only [List.length_take]; omega)
    refine ⟨(group.toNat, ms, deadline), trivial, ?_⟩
    simp only [listFields, fieldsFit_cons, fieldsFit_append, fieldsFit_nil, and_true, fieldBytes_cons, fieldBytes_append,
      fieldBytes_nil, List.append_nil, count, leBytes_one_toNat, ← first, ← last]
    exact ⟨⟨group.isLt, ⟨n.isLt, fits⟩, small⟩, by
      rw [List.append_assoc, List.take_append_drop]
      rfl⟩
  · rintro ⟨⟨g, ms, deadline⟩, -, fits, rfl⟩
    simp only [listFields, fieldsFit_cons, fieldsFit_append, fieldsFit_nil, and_true] at fits
    obtain ⟨small, ⟨few, fits⟩, -⟩ := fits
    obtain ⟨group, rfl⟩ := byte_of_fit small
    obtain ⟨n, same⟩ := byte_of_fit few
    have members := (numbers_shapes 1 ms.length _).2 ⟨ms, rfl, fits, rfl⟩
    simp only [Nat.one_mul, same] at members
    refine ⟨group, n, fieldBytes (ms.map (fun v => (v, 1)) ++ [(deadline, 1)]), ?_, ?_⟩
    · simp only [listFields, List.cons_append, fieldBytes_cons, same, leBytes_one_toNat]
      rfl
    · rw [fieldBytes_append, List.length_append, members]
      rfl

end Sys2Proof.Machine
end

section
/-! Every body is judged by the layout of its kind (R192). -/

namespace Sys2Proof.Machine

theorem atEnd_eq_some {α : Type} {r : Option (α × List Byte)} {v : α} : atEnd r = some v ↔ r = some (v, []) := by
  rw [atEnd, Option.bind_eq_bind, Option.bind_eq_some_iff]
  constructor
  · rintro ⟨⟨w, rest⟩, rfl, ended⟩
    dsimp only at ended
    split at ended
    · next empty =>
      cases ended
      cases List.isEmpty_iff.1 empty
      rfl
    · cases ended
  · rintro rfl
    exact ⟨_, rfl, rfl⟩

/-! ## The readers of the bodies with counts and marks -/

theorem fieldsFit_first (v : Nat) (fs : List Field) : FieldsFit ((v, 1) :: fs) ↔ FieldsFit [(v, 1)] ∧ FieldsFit fs :=
  fieldsFit_append [(v, 1)] fs

theorem fieldBytes_first (v : Nat) (fs : List Field) : fieldBytes ((v, 1) :: fs) = fieldBytes [(v, 1)] ++ fieldBytes fs :=
  fieldBytes_append [(v, 1)] fs

theorem readRequest_settings {p : PortId} {heights : List Nat} {tag : Nat} {body : List Byte} {i : Instr} :
    readRequest p heights 0x23 tag body = some i ↔ ∃ qs, (True ∧ FieldsFit (Instr.settings p qs).bodyFields ∧
      body = fieldBytes (Instr.settings p qs).bodyFields) ∧ Instr.settings p qs = i := by
  simp only [readRequest, Instr.bodyFields, Option.bind_eq_bind, (rdNum_reads 1).bind_eq_some, Option.bind_eq_some_iff,
    atEnd_eq_some, rdPairs_eq_some, fieldsFit_cons, fieldBytes_cons, Option.some.injEq, true_and, List.append_nil]
  constructor
  · rintro ⟨n, _, ⟨small, rfl⟩, qs, ⟨rfl, fits, rfl⟩, rfl⟩
    exact ⟨qs, ⟨⟨small.1, fits⟩, by simp⟩, rfl⟩
  · rintro ⟨qs, ⟨⟨small, fits⟩, rfl⟩, rfl⟩
    exact ⟨qs.length, _, ⟨⟨small, fieldsFit_nil⟩, by simp⟩, qs, ⟨rfl, fits, rfl⟩, rfl⟩

theorem readRequest_amend {p : PortId} {heights : List Nat} {tag : Nat} {body : List Byte} {i : Instr} :
    readRequest p heights 0x31 tag body = some i ↔ ∃ q : Nat × AmendReq, (True ∧ FieldsFit (Instr.amend p q.1 q.2).bodyFields ∧
      body = fieldBytes (Instr.amend p q.1 q.2).bodyFields) ∧ Instr.amend p q.1 q.2 = i := by
  simp only [readRequest, Option.bind_eq_bind]
  constructor
  · intro read
    obtain ⟨n, b1, ⟨small, e1⟩, read⟩ := (rdNum_reads 1).bind_eq_some.1 read
    obtain ⟨f, read, made⟩ := Option.bind_eq_some_iff.1 read
    obtain ⟨fits, e2⟩ := (rdAmend_eq_some _ _).1 read
    have bytes : body = fieldBytes [(n, 1)] ++ fieldBytes f.bodyFields := e1.trans (congrArg (fieldBytes [(n, 1)] ++ ·) e2)
    exact ⟨(n, f), ⟨trivial, (fieldsFit_first n f.bodyFields).2 ⟨small, fits⟩,
      bytes.trans (fieldBytes_first n f.bodyFields).symm⟩, Option.some.inj made⟩
  · rintro ⟨⟨n, f⟩, ⟨-, fits, rfl⟩, rfl⟩
    obtain ⟨small, fits⟩ := (fieldsFit_cons n 1 f.bodyFields).1 fits
    have fields : rdAmend (fieldBytes f.bodyFields) = some f := (rdAmend_eq_some _ f).2 ⟨fits, rfl⟩
    simp only [Instr.bodyFields, fieldBytes_cons, rdNum_bind_read small, fields, Option.bind_some]

theorem readRequest_groupSetup {p : PortId} {heights : List Nat} {tag : Nat} {body : List Byte} {i : Instr} :
    readRequest p heights 0x90 tag body = some i ↔ ∃ q : Nat × List Nat × Nat,
      (True ∧ FieldsFit (Instr.groupSetup p q.1 q.2.1 q.2.2).bodyFields ∧
        body = fieldBytes (Instr.groupSetup p q.1 q.2.1 q.2.2).bodyFields) ∧ Instr.groupSetup p q.1 q.2.1 q.2.2 = i := by
  simp only [readRequest, Option.bind_eq_bind]
  constructor
  · intro read
    obtain ⟨g, b1, ⟨small, e1⟩, read⟩ := (rdNum_reads 1).bind_eq_some.1 read
    obtain ⟨ms, b2, ⟨fits, e2⟩, read⟩ := (rdList_reads 1).bind_eq_some.1 read
    obtain ⟨deadline, b3, ⟨short, e3⟩, ended⟩ := (rdNum_reads 1).bind_eq_some.1 read
    dsimp only at ended
    split at ended
    · next empty =>
      cases ended
      cases List.isEmpty_iff.1 empty
      subst e1 e2 e3
      refine ⟨(g, ms, deadline), ⟨trivial, ?_, ?_⟩, rfl⟩
      · exact (fieldsFit_append [_] _).2 ⟨small, (fieldsFit_append ..).2 ⟨fits, short⟩⟩
      · simp [Instr.bodyFields]
    · cases ended
  · rintro ⟨⟨g, ms, deadline⟩, ⟨-, fits, rfl⟩, rfl⟩
    obtain ⟨small, fits⟩ := (fieldsFit_append [_] _).1 fits
    obtain ⟨fits, short⟩ := (fieldsFit_append (listFields 1 ms) [(deadline, 1)]).1 fits
    refine (rdNum_reads 1).bind_eq_some.2 ⟨g, _, ⟨small, fieldBytes_append [_] _⟩, ?_⟩
    refine (rdList_reads 1).bind_eq_some.2 ⟨ms, _, ⟨fits, fieldBytes_append (listFields 1 ms) [(deadline, 1)]⟩, ?_⟩
    exact (rdNum_reads 1).bind_eq_some.2 ⟨deadline, [], ⟨short, (List.append_nil _).symm⟩, rfl⟩

theorem atEnd_rdGlyphs_eq_some {height n : Nat} {bs : List Byte} {es : List GlyphEntry} :
    atEnd (rdGlyphs height n bs) = some es ↔ es.length = n ∧ bitmapsCut height es ∧
      FieldsFit (es.flatMap GlyphEntry.fields) ∧ bs = fieldBytes (es.flatMap GlyphEntry.fields) := by
  rw [atEnd_eq_some, rdGlyphs_eq_some, List.append_nil]

theorem cutHeight_of_some {heights : List Nat} {font h : Nat} (e : heights[font]? = some h) (height : Nat) :
    cutHeight heights font height ↔ height = h := by
  rw [cutHeight, e]

theorem cutHeight_of_none {heights : List Nat} {font : Nat} (e : heights[font]? = none) (height : Nat) :
    cutHeight heights font height ↔ height = 8 ∨ height = 16 := by
  rw [cutHeight, e]

theorem rdEntries_of_some {heights : List Nat} {font h : Nat} (e : heights[font]? = some h) (n : Nat) (bs : List Byte) :
    rdEntries heights font n bs = atEnd (rdGlyphs h n bs) := by
  rw [rdEntries, e]

theorem rdEntries_of_none {heights : List Nat} {font : Nat} (e : heights[font]? = none) (n : Nat) (bs : List Byte) :
    rdEntries heights font n bs = (atEnd (rdGlyphs 8 n bs)).or (atEnd (rdGlyphs 16 n bs)) := by
  rw [rdEntries, e]
  exact Option.orElse_eq_or

theorem rdEntries_sound {heights : List Nat} {font n : Nat} {bs : List Byte} {es : List GlyphEntry}
    (read : rdEntries heights font n bs = some es) : ∃ height, cutHeight heights font height ∧
      atEnd (rdGlyphs height n bs) = some es := by
  cases e : heights[font]? with
  | some h => exact ⟨h, (cutHeight_of_some e h).2 rfl, rdEntries_of_some e n bs ▸ read⟩
  | none =>
    rw [rdEntries_of_none e, Option.or_eq_some_iff] at read
    rcases read with at8 | ⟨-, at16⟩
    · exact ⟨8, (cutHeight_of_none e 8).2 (.inl rfl), at8⟩
    · exact ⟨16, (cutHeight_of_none e 16).2 (.inr rfl), at16⟩

theorem rdEntries_found {heights : List Nat} {font n height : Nat} {bs : List Byte} {es : List GlyphEntry}
    (cut : cutHeight heights font height) (read : atEnd (rdGlyphs height n bs) = some es) :
    ∃ es', rdEntries heights font n bs = some es' := by
  cases e : heights[font]? with
  | some h =>
    obtain rfl := (cutHeight_of_some e height).1 cut
    exact ⟨es, (rdEntries_of_some e n bs).trans read⟩
  | none =>
    rw [rdEntries_of_none e]
    rcases (cutHeight_of_none e height).1 cut with rfl | rfl
    · exact ⟨es, by rw [read, Option.some_or]⟩
    · rw [read]
      cases atEnd (rdGlyphs 8 n bs) with
      | none => exact ⟨es, rfl⟩
      | some es' => exact ⟨es', rfl⟩

theorem readRequest_glyphLoad_found {p : PortId} {heights : List Nat} {tag font height : Nat} {es : List GlyphEntry}
    (bitmaps : bitmapsCut height es) (cut : cutHeight heights font height)
    (fits : FieldsFit (Instr.glyphLoad p font es).bodyFields) :
    ∃ i, readRequest p heights 0x61 tag (fieldBytes (Instr.glyphLoad p font es).bodyFields) = some i := by
  simp only [Instr.bodyFields, fieldsFit_append, fieldsFit_cons, fieldsFit_nil, and_true] at fits
  obtain ⟨⟨small, few⟩, fits⟩ := fits
  obtain ⟨es', read⟩ := rdEntries_found cut (atEnd_rdGlyphs_eq_some.2 ⟨rfl, bitmaps, fits, rfl⟩)
  refine ⟨.glyphLoad p font es', ?_⟩
  simp only [readRequest, Instr.bodyFields, Option.bind_eq_bind, fieldBytes_append, fieldBytes_cons, fieldBytes_nil,
    List.append_nil, List.append_assoc, rdNum_bind_read small, rdNum_bind_read few, read, Option.bind_some]

theorem readRequest_glyphLoad_sound {p : PortId} {heights : List Nat} {tag : Nat} {body : List Byte} {i : Instr}
    (read : readRequest p heights 0x61 tag body = some i) : ∃ q : Nat × List GlyphEntry,
      ((∃ height, bitmapsCut height q.2 ∧ cutHeight heights q.1 height) ∧ FieldsFit (Instr.glyphLoad p q.1 q.2).bodyFields ∧
        body = fieldBytes (Instr.glyphLoad p q.1 q.2).bodyFields) ∧ Instr.glyphLoad p q.1 q.2 = i := by
  simp only [readRequest, Option.bind_eq_bind] at read
  obtain ⟨font, b1, ⟨small, e1⟩, read⟩ := (rdNum_reads 1).bind_eq_some.1 read
  obtain ⟨n, b2, ⟨few, e2⟩, read⟩ := (rdNum_reads 1).bind_eq_some.1 read
  obtain ⟨es, entries, made⟩ := Option.bind_eq_some_iff.1 read
  obtain ⟨height, cut, entries⟩ := rdEntries_sound entries
  obtain ⟨count, bitmaps, fits, e3⟩ := atEnd_rdGlyphs_eq_some.1 entries
  cases made
  dsimp only at count e3
  subst count e1 e2 e3
  refine ⟨(font, es), ⟨⟨height, bitmaps, cut⟩, ?_, ?_⟩, rfl⟩
  · exact (fieldsFit_append ..).2 ⟨(fieldsFit_append [_] [_]).2 ⟨small, few⟩, fits⟩
  · simp [Instr.bodyFields]

/-! ## The judgement of each kind -/

theorem requestOf_tagless {p : PortId} {kind : Nat} {tag : Byte} {i : Instr} (port : requestPort i = some p)
    (code : i.kindCode = kind) (tagless : kind ≠ 0x35 ∧ kind ≠ 0x40) : RequestOf p kind tag i :=
  ⟨port, code, fun e => (e.elim tagless.1 tagless.2).elim⟩

theorem judged_none {p : PortId} {kind : Nat} {tag : Byte} {body : List Byte} {accounted : Prop} (malformed : ¬ accounted) :
    Judged p kind tag body accounted none :=
  ⟨fun ok => absurd ok malformed, fun i answer => absurd answer (Option.some_ne_none i).symm⟩

/-- The kinds whose bodies have a fixed length. -/
def fixedKinds : List Nat :=
  [0x10, 0x11, 0x12, 0x13, 0x14, 0x15, 0x20, 0x21, 0x22, 0x33, 0x34, 0x35, 0x40, 0x41, 0x42, 0x43, 0x44, 0x50, 0x51, 0x52,
    0x53, 0x60, 0x70, 0x72, 0x73, 0x80, 0x81, 0x82, 0x83, 0x91, 0x92, 0xA0, 0xA1, 0xA2, 0xA3, 0xA4]

theorem fixedBodyLength_listed {k n : Nat} (fixed : fixedBodyLength k = some n) : k ∈ fixedKinds := by
  unfold fixedBodyLength at fixed
  split at fixed
  case h_37 => cases fixed
  all_goals decide

section
variable {p : PortId} {heights : List Nat} {tag : Byte} {t : Nat} {body : List Byte} {accounted : Prop}

theorem settings_judged (shape : accounted ↔ ∃ qs, True ∧ FieldsFit (Instr.settings p qs).bodyFields ∧
      body = fieldBytes (Instr.settings p qs).bodyFields) :
    Judged p 0x23 tag body accounted (readRequest p heights 0x23 t body) :=
  judged_of shape (fun qs fine fit bytes => ⟨_, readRequest_settings.2 ⟨qs, ⟨fine, fit, bytes⟩, rfl⟩⟩)
    (fun _ => readRequest_settings.1) (fun _ => requestOf_tagless rfl rfl (by decide))

theorem post_judged (shape : accounted ↔ ∃ f : PostReq, f.isRead ∧ FieldsFit f.bodyFields ∧ body = fieldBytes f.bodyFields) :
    Judged p 0x30 tag body accounted (readRequest p heights 0x30 t body) :=
  judged_of (mk := Instr.post p) shape
    (fun f fine fit bytes => ⟨_, Option.map_eq_some_iff.2 ⟨f, (rdPost_eq_some _ _).2 ⟨fine, fit, bytes⟩, rfl⟩⟩)
    (fun _ answer => by
      obtain ⟨f, read, made⟩ := Option.map_eq_some_iff.1 answer
      exact ⟨f, (rdPost_eq_some _ _).1 read, made⟩)
    (fun _ => requestOf_tagless rfl rfl (by decide))

theorem amend_judged (shape : accounted ↔ ∃ q : Nat × AmendReq, True ∧ FieldsFit (Instr.amend p q.1 q.2).bodyFields ∧
      body = fieldBytes (Instr.amend p q.1 q.2).bodyFields) :
    Judged p 0x31 tag body accounted (readRequest p heights 0x31 t body) :=
  judged_of (mk := fun q => .amend p q.1 q.2) shape
    (fun q fine fit bytes => ⟨_, readRequest_amend.2 ⟨q, ⟨fine, fit, bytes⟩, rfl⟩⟩)
    (fun _ => readRequest_amend.1) (fun _ => requestOf_tagless rfl rfl (by decide))

theorem glyphLoad_judged (shape : accounted ↔ ∃ q : Nat × List GlyphEntry,
      (∃ height, bitmapsCut height q.2 ∧ cutHeight heights q.1 height) ∧ FieldsFit (Instr.glyphLoad p q.1 q.2).bodyFields ∧
        body = fieldBytes (Instr.glyphLoad p q.1 q.2).bodyFields) :
    Judged p 0x61 tag body accounted (readRequest p heights 0x61 t body) :=
  judged_of (mk := fun q : Nat × List GlyphEntry => .glyphLoad p q.1 q.2) shape
    (fun _ ⟨_, bitmaps, cut⟩ fit bytes => bytes ▸ readRequest_glyphLoad_found bitmaps cut fit)
    (fun _ => readRequest_glyphLoad_sound) (fun _ => requestOf_tagless rfl rfl (by decide))

theorem groupSetup_judged (shape : accounted ↔ ∃ q : Nat × List Nat × Nat, True ∧
      FieldsFit (Instr.groupSetup p q.1 q.2.1 q.2.2).bodyFields ∧
        body = fieldBytes (Instr.groupSetup p q.1 q.2.1 q.2.2).bodyFields) :
    Judged p 0x90 tag body accounted (readRequest p heights 0x90 t body) :=
  judged_of (mk := fun q => .groupSetup p q.1 q.2.1 q.2.2) shape
    (fun q fine fit bytes => ⟨_, readRequest_groupSetup.2 ⟨q, ⟨fine, fit, bytes⟩, rfl⟩⟩)
    (fun _ => readRequest_groupSetup.1) (fun _ => requestOf_tagless rfl rfl (by decide))

end

/-- The table of chapter 13, one case for each kind code in the order of `readRequest`; the last case is a code of no kind. -/
theorem readRequest_judged (p : PortId) (heights : List Nat) (kind tag : Byte) (body : List Byte) :
    Judged p kind.toNat tag body (bodyAccounted heights kind body) (readRequest p heights kind.toNat tag.toNat body) := by
  have tagged : BitVec.ofNat 8 tag.toNat = tag := (BitVec.ofNat_toNat 8 tag).trans (BitVec.setWidth_eq tag)
  generalize acc : bodyAccounted heights kind body = accounted
  unfold bodyAccounted at acc
  generalize kind.toNat = k at acc ⊢
  unfold readRequest
  split <;> subst acc
  -- Bodies of one number: those of one byte and the two clocks, then NOTICE_MASK; bodies with nothing in them.
  case h_6 | h_8 | h_9 | h_15 | h_16 | h_19 | h_22 | h_24 | h_25 | h_26 | h_32 | h_33 | h_35 | h_36 | h_37 | h_39 | h_40 | h_41 =>
    exact judged_one (fun _ => requestOf_tagless rfl rfl (by decide)) (fun _ _ => rfl)
  case h_43 =>
    exact judged_one (fun _ => requestOf_tagless rfl rfl (by decide)) (fun v fit => by
      rw [Instr.bodyFields, BitVec.toNat_ofNat, Nat.mod_eq_of_lt (b := 2 ^ 16) fit])
  case h_10 | h_42 | h_44 | h_45 => exact judged_empty (requestOf_tagless rfl rfl (by decide)) rfl
  -- Bodies of a fixed length: the departures, CONFIRM_SHOWN and TAKE with their tags, HANDOVER and FONT_SETUP, HOLD_SETUP,
  -- PANEL_DEFINE, TICKER_SETUP, LINK_SETUP.
  case h_1 =>
    refine judged_fixed (widths := [1, 3, 1, 1, 3]) (fun e => by rw [e]) fun vs count all fits => ?_
    rw [all]
    match vs, count with
    | [_, _, _, _, _], _ => exact ⟨_, rfl, requestOf_tagless rfl rfl (by decide), rfl⟩
  case h_2 =>
    refine judged_fixed (widths := [1, 3, 3]) (fun e => by rw [e]) fun vs count all fits => ?_
    rw [all]
    match vs, count with
    | [_, _, _], _ => exact ⟨_, rfl, requestOf_tagless rfl rfl (by decide), rfl⟩
  case h_3 | h_4 | h_5 =>
    refine judged_fixed (widths := [1, 3]) (fun e => by rw [e]) fun vs count all fits => ?_
    rw [all]
    match vs, count with
    | [_, _], _ => exact ⟨_, rfl, requestOf_tagless rfl rfl (by decide), rfl⟩
  case h_17 | h_18 =>
    refine judged_fixed (widths := [1, 1]) (fun e => by rw [e]) fun vs count all fits => ?_
    rw [all]
    match vs, count with
    | [_, _], _ => exact ⟨_, rfl, ⟨rfl, rfl, fun _ => tagged⟩, rfl⟩
  case h_20 | h_27 =>
    refine judged_fixed (widths := [1, 1]) (fun e => by rw [e]) fun vs count all fits => ?_
    rw [all]
    match vs, count with
    | [_, _], _ => exact ⟨_, rfl, requestOf_tagless rfl rfl (by decide), rfl⟩
  case h_21 =>
    refine judged_fixed (widths := [1, 1, 1]) (fun e => by rw [e]) fun vs count all fits => ?_
    rw [all]
    match vs, count with
    | [_, _, _], _ => exact ⟨_, rfl, requestOf_tagless rfl rfl (by decide), rfl⟩
  case h_23 =>
    refine judged_fixed (widths := [1, 1, 1, 1, 1, 2, 1, 1, 1]) (fun e => by rw [e]) fun vs count all fits => ?_
    rw [all]
    match vs, count with
    | [_, address, _, _, _, _, _, _, _], _ =>
      obtain ⟨b, rfl⟩ := byte_of_fit ((fieldsFit_cons ..).1 ((fieldsFit_cons ..).1 fits).2).1
      refine ⟨_, rfl, requestOf_tagless rfl rfl (by decide), ?_⟩
      rw [Instr.bodyFields, BitVec.toNat_ofNat, Nat.mod_eq_of_lt b.isLt]
      rfl
  case h_30 =>
    refine judged_fixed (widths := [1, 1, 2, 1, 1, 2]) (fun e => by rw [e]) fun vs count all fits => ?_
    rw [all]
    match vs, count with
    | [_, _, _, _, _, _], _ => exact ⟨_, rfl, requestOf_tagless rfl rfl (by decide), rfl⟩
  case h_34 =>
    refine judged_fixed (widths := [1, 2, 1, 2]) (fun e => by rw [e]) fun vs count all fits => ?_
    rw [all]
    match vs, count with
    | [_, _, _, _], _ => exact ⟨_, rfl, requestOf_tagless rfl rfl (by decide), rfl⟩
  -- Bodies whose counts and marks account for them: the texts, SETTINGS, POST, AMEND, GLYPH_LOAD, GROUP_SETUP.
  case h_7 | h_14 | h_29 | h_31 =>
    exact judged_text (fun _ _ => requestOf_tagless rfl rfl (by decide)) (fun _ _ => rfl)
  case h_11 => exact settings_judged (heights := heights) (t := tag.toNat) (settings_shapes body)
  case h_12 => exact post_judged (heights := heights) (t := tag.toNat) (post_shapes body)
  case h_13 => exact amend_judged (heights := heights) (t := tag.toNat) (amend_shapes body)
  case h_28 => exact glyphLoad_judged (heights := heights) (t := tag.toNat) (glyphLoad_shapes heights body)
  case h_38 => exact groupSetup_judged (heights := heights) (t := tag.toNat) (groupSetup_shapes body)
  case h_46 =>
    refine judged_none (fun ok => ?_)
    split at ok
    case h_10 =>
      have listed := fixedBodyLength_listed ok
      fin_cases listed <;> contradiction
    all_goals contradiction

end Sys2Proof.Machine
end

section
/-! The bytes of a select period judged, and what TRANSFER makes of them (R182, R183, R192). -/

namespace Sys2Proof.Machine

/-! ## Judging the bytes received (R192) -/

theorem judgeFrame_emptyPoll (p : PortId) (heights : List Nat) {kind : Byte} (poll : kind = 0x00 ∨ kind = 0xFF)
    (rest : List Byte) : judgeFrame p heights (kind :: rest) = .emptyPoll := if_pos poll

theorem judgeFrame_kind_only (p : PortId) (heights : List Nat) {kind : Byte} (frame : ¬ (kind = 0x00 ∨ kind = 0xFF)) :
    judgeFrame p heights [kind] = .badFrame kind 0 := if_neg frame

/-- No length word. -/
theorem judgeFrame_short (p : PortId) (heights : List Nat) {kind : Byte} (frame : ¬ (kind = 0x00 ∨ kind = 0xFF)) (tag : Byte)
    {more : List Byte} (short : more.length < 2) : judgeFrame p heights (kind :: tag :: more) = .badFrame kind tag := by
  unfold judgeFrame
  match more, short with
  | [], _ => exact if_neg frame
  | [_], _ => exact if_neg frame

/-- A frame with its length word. -/
theorem judgeFrame_frame (p : PortId) (heights : List Nat) {kind : Byte} (frame : ¬ (kind = 0x00 ∨ kind = 0xFF))
    (tag l0 l1 : Byte) (after : List Byte) : judgeFrame p heights (kind :: tag :: l0 :: l1 :: after) =
      let len := l0.toNat + 256 * l1.toNat
      if 596 < len ∨ after.length < len then .badFrame kind tag else
        match readRequest p heights kind.toNat tag.toNat (after.take len) with
        | some i => .request i
        | none => .badFrame kind tag := if_neg frame

/-! ## One select period (R182, R183) -/

theorem Port.headLeaves_eq (clocks : Nat) (pt : Port) : pt.headLeaves clocks =
    if pt.responses ≠ [] ∧ 8 * pt.headBytes.length ≤ clocks then Port.drain { pt with responses := pt.responses.tail } else pt := by
  unfold Port.headLeaves Port.headBytes
  cases pt.responses with
  | nil => rfl
  | cons f rest => simp only [ne_eq, reduceCtorEq, not_false_eq_true, true_and, List.tail_cons]

/-- A BAD_FRAME or BUSY response at the tail of the response queue, or none there (R183). -/
theorem Port.refuseFrame_eq (st : Status) (kind tag : Byte) (out : Port) (fdo : List Bool) :
    Port.refuseFrame st kind tag { out with fdo } = { out with
      fdo
      responses := if out.slotFree then out.responses ++ [⟨0x01, kind, st.code, tag, []⟩] else out.responses } := by
  have same : Port.slotFree { out with fdo } = out.slotFree := rfl
  unfold Port.refuseFrame
  rw [same]
  split <;> rfl

theorem Port.transfer_nothing (p : PortId) (heights : List Nat) {fdi : List Bool} (none_whole : wholeBytes fdi = [])
    (pt : Port) : pt.transfer p heights fdi = pt := by
  rw [Port.transfer, none_whole]
  rfl

theorem Port.transfer_bytes (p : PortId) (heights : List Nat) {fdi : List Bool} (some_whole : wholeBytes fdi ≠ [])
    (pt : Port) : pt.transfer p heights fdi =
      Port.judged { pt.headLeaves fdi.length with fdo := pt.shiftOut fdi.length } (judgeFrame p heights (wholeBytes fdi)) :=
  if_neg (by simpa using some_whole)

theorem exec_transfer {s : State} (high : s.resetIsLow = false) (p : PortId) (fdi : List Bool) :
    exec (.transfer p fdi) s = .next { s with delivery := { s.delivery with
      ports := s.delivery.ports.set p ((s.delivery.ports[p]).transfer p s.content.fontHeights fdi) } } := by
  change execTransfer p fdi s = _
  rw [execTransfer, high]
  rfl

/-- Settles O19: a body is read exactly when its counts and marks account for it (`readRequest_judged`), and the port after a
select period is the one whose head response left, with the judgement of the bytes received on it. -/
theorem transferShiftsTheHeadAndJudgesTheFrame : Obligations.TransferShiftsTheHeadAndJudgesTheFrame := by
  unfold Obligations.TransferShiftsTheHeadAndJudgesTheFrame
  constructor
  · intro p heights kind rest
    refine ⟨fun poll => judgeFrame_emptyPoll p heights poll rest, fun not0 notFF => ?_⟩
    have frame : ¬ (kind = 0x00 ∨ kind = 0xFF) := not_or.2 ⟨not0, notFF⟩
    refine ⟨fun e => e ▸ judgeFrame_kind_only p heights frame, ?_⟩
    rintro tag more rfl
    refine ⟨judgeFrame_short p heights frame tag, ?_⟩
    rintro l0 l1 after rfl
    have judged := readRequest_judged p heights kind tag (after.take (l0.toNat + 256 * l1.toNat))
    have read := judgeFrame_frame p heights frame tag l0 l1 after
    dsimp only at read ⊢
    rw [read]
    constructor
    · intro malformed
      split
      · rfl
      · next fits =>
        have unaccounted : ¬ bodyAccounted heights kind (after.take (l0.toNat + 256 * l1.toNat)) := by
          rcases malformed with short | long | unaccounted
          · exact absurd (.inr short) fits
          · exact absurd (.inl long) fits
          · exact unaccounted
        rw [judged.none_of_not unaccounted]
    · intro whole few accounted
      rw [if_neg (by omega)]
      obtain ⟨i, found⟩ := judged.found accounted
      obtain ⟨-, ⟨port, code, tagged⟩, bytes⟩ := judged.sound i found
      rw [found]
      refine ⟨i, rfl, port, code, fun e => tagged ?_, bytes⟩
      exact e.imp (congrArg BitVec.toNat) (congrArg BitVec.toNat)
  · intro p fdi s high
    rw [exec_transfer high]
    refine ⟨fun none_whole => ?_, fun some_whole => ⟨_, rfl, ?_⟩⟩
    · rw [Port.transfer_nothing p _ none_whole, set_self]
    · rw [Port.transfer_bytes p _ some_whole, ← Port.headLeaves_eq]
      generalize judgeFrame p s.content.fontHeights (wholeBytes fdi) = j
      generalize Port.headLeaves fdi.length s.delivery.ports[p] = out
      cases j with
      | emptyPoll => exact ⟨rfl, rfl⟩
      | badFrame kind tag =>
        rw [Port.judged, Port.refuseFrame_eq]
        exact ⟨rfl, rfl⟩
      | request i =>
        rw [Port.judged, Port.refuseFrame_eq]
        dsimp only
        split <;> exact ⟨rfl, rfl⟩

end Sys2Proof.Machine
end
